-- ==== Sys2Proof/Word.lean ====
section
/-! DEFINITION. The plain data types every file of the model uses: bytes, the two host ports, the two flash devices. -/

namespace Sys2Proof

/-- One byte (R6, R7). -/
abbrev Byte := BitVec 8

/-- A byte string, lowest address (or first sent) first. -/
abbrev Bytes := List Byte

/-- The two host ports (R15). -/
inductive Port where
  | a
  | b
  deriving DecidableEq, Repr

/-- 0 for port A, 1 for port B, as every record and frame encodes it. -/
def Port.num : Port → Nat
  | .a => 0
  | .b => 1

/-- The two serial-flash devices: primary on the FL_A_ pins, mirror on the FL_B_ pins (R99). -/
inductive FlashDev where
  | primary
  | mirror
  deriving DecidableEq, Repr

/-- A line channel, CH0 to CH63 (R15). -/
abbrev ChanId := Fin 64

end Sys2Proof
end

