-- ==== Sys2Proof/Syntax.lean ====
section
/-! DEFINITION. The commands of the block: one constructor of `Instr` for each row of spec/opcode_table.json, with
what the row takes from outside (levels, measured values, frames, messages, packets). -/

namespace Sys2Proof

/-- Which of the two reset inputs moves (R51). -/
inductive ResetPin where
  | resetN
  | pwrok
  deriving DecidableEq, Repr

/-- The eight strap levels at the strap sample (Table 2.6). -/
structure StrapLevels where
  imgsel0 : Bool
  imgsel1 : Bool
  hlwA : Bool
  hlwB : Bool
  hrate : Bool
  portenA : Bool
  portenB : Bool
  testmode : Bool
  deriving DecidableEq, Repr

/-- What a pass over one flash device's coefficient area reads (R102): the SFDP bytes that a discovery made now reads from address
0 on, and the bytes of the ten copies, copy c of point p at list position 2p + c. -/
structure CoeffRead where
  sfdp : Bytes
  copies : List Bytes
  deriving DecidableEq, Repr

/-- A 66-bit block as it arrives on a physical lane (R280, R281): the 58 payload bits received before it, the latest as bit 0, its
bits, the sync header as bits 1 and 0, and how many consecutive sync headers up to its own were valid. -/
structure LaneBlock where
  before : BitVec 58
  word : BitVec 66
  run : Nat
  deriving DecidableEq, Repr

/-- The fields of a LINK control block after its subtype (Table 13.3). -/
structure LinkBlock where
  value : BitVec 16
  count : BitVec 16
  check : BitVec 16
  deriving DecidableEq, Repr

/-- A Hunoub packet as received (R338): 32 header bytes, payload, and the trailer's value (0 when there is none). -/
structure Packet where
  header : Bytes
  payload : Bytes
  trailer : BitVec 64
  deriving DecidableEq, Repr

/-- The background classes of Table 6.6. -/
inductive BgClass where
  | calibration
  | diagnostics
  | scrub
  | telemetry
  deriving DecidableEq, Repr

/-- The measured fields of a quality record (Table 11.1, Table 23.1), over the symbols that do not come to the block one by one. -/
structure QualityMeasured where
  evm : Int
  residualEcho : Int
  freqOffset : Int
  noisePeriods : Nat
  noiseSymbols : Nat
  noise : Bytes
  deriving DecidableEq, Repr

/-- A symbol period as received on a channel: its 144 samples as the converter gives them (R180 stage 3), or what stage 8 made of it:
the equalised values of the 59 data carriers and then the pilot, in units of 2^-12 (R191). -/
inductive Reception where
  | samples (v : List Int)
  | equalised (y : List (Int × Int))
  deriving DecidableEq, Repr

/-- One return found in an echo response: its round-trip delay in ps, its sign, and its level relative to the incident burst in
0.1 dB (R247, R248). Distance, corrected amplitude and class are computed. -/
structure Reflection where
  delay : Nat
  positive : Bool
  level : Int
  deriving DecidableEq, Repr

/-- What a sounding measured (R247 to R250): the returns in the whole response and in those of the first and last 32 bursts, the
noise level and the difference of the two halves relative to the response energy in 0.1 dB, whether call energy appeared or
disappeared, for each data carrier the level of the farthest return (echo sounding, 0.1 dB) or the received level with the gain
removed (quiet sounding, 0.1 dBm), and the bursts averaged. -/
structure SoundingMeasured where
  found : List Reflection
  first : List Reflection
  last : List Reflection
  noiseLevel : Int
  difference : Int
  call : Bool
  levels : List Int
  bursts : Nat
  deriving DecidableEq, Repr

/-- What a training phase measured at its end (Table 10.6), over the symbols that do not come to the block one by one: the member skew
in samples, the SNR of the 59 data carriers in 0.01 dB, and the gain acquired. -/
structure TrainMeasured where
  skew : Nat
  snr : List Int
  gain : Nat
  deriving DecidableEq, Repr

/-- What the measure phase found of a channel's stems (R444, R445): the currents of the 288 DAC cells in one unit, the
signal-to-noise-and-distortion ratios of the 18 sub-converters in 0.01 dB and whether their trims lie in range, and the offsets of
the four comparator stems of each in 0.1 mV. -/
structure StemsMeasured where
  cells : List Int
  ratios : List Int
  inRange : List Bool
  offsets : List (List Int)
  deriving DecidableEq, Repr

/-- What the measure phase of a calibration found (R444, R445, R454): a payload that holds the measured values, the count of HCK
cycles in which the reference current charges the timing capacitor, scaled by 2^8 as the factory count is (R463), each channel's stems,
the channels whose no-spare elements were all measured, and those of which only the anti-alias corners and the receive gain were. The
capacitor's value, the selections and the flags of exhausted coppices are computed. -/
structure CalMeasured where
  payload : Bytes
  cap : Nat
  stems : List (Nat × StemsMeasured)
  noSpare : BitVec 64
  corners : BitVec 64
  deriving DecidableEq, Repr

/-- The scope instance of a fault (R418). -/
inductive Scope where
  | channel (c : ChanId)
  | queue (p : Port) (q : Fin 512)
  | device
  deriving DecidableEq, Repr

/-- Where a word with a bit error lies (R440). -/
inductive SramArea where
  | relay (transaction : BitVec 32) (chunk : Nat)
  | retain (c : ChanId)
  | imageTables
  | other
  deriving DecidableEq, Repr

/-- A bit error that SECDED found in a slot (R440): single-bit (corrected) or double-bit. -/
structure SramError where
  area : SramArea
  double : Bool
  addr : Nat
  deriving DecidableEq, Repr

/-- How a KEY_PROGRAM's stay in Run-Test/Idle went (R145): the clock ran, or began to run, and the pulses had their whole
time; no HCK edge arrived; or the pulses were interrupted. -/
inductive KeyWait where
  | complete
  | noClock
  | interrupted
  deriving DecidableEq, Repr

/-- The commands: one constructor per row of the table of operations and events. -/
inductive Instr where
  -- reset and start-up
  | resetAssert (pin : ResetPin)
  | resetRelease (pin : ResetPin)
  | stabilityCountDone (straps : StrapLevels) (calN : Bool)
  | strapResistorStepEnd (rm : List (Option Nat))
  | portStabilityCountDone (p : Port)
  | imageLoaded (sfdp bytes : Bytes)
  | imageChecked
  | coefficientsLoaded (prim mir : CoeffRead) (t : Int) (duration : Nat)
  -- the schedule
  | slotTick (slack : List (Nat × Int)) (late : List Nat) (received : List (ChanId × Reception)) (errors : List SramError)
  | sensorReading (vcore : Nat) (temps : List Int)
  | telemetryBoundary
  | qualityPeriodBoundary (c : ChanId) (m : QualityMeasured)
  | backgroundTaskStart (k : BgClass)
  -- clocks
  | tselChange (level : Bool)
  | sourceSwitchDone
  | startupSwitchCountDone (command : Fin 20) (duration : Nat)
  | hckInterruption
  | hckReturn
  | portClockStop (p : Port)
  | portClockReturn (p : Port)
  -- host link
  | hostTrainAttemptStart (p : Port)
  | trainBlock (p : Port) (lane : Fin 16) (content : Bytes)
  | linkParametersFrame (p : Port) (body : Bytes)
  | trainingPhaseLimit (p : Port)
  | attemptIdleEnd (p : Port)
  | blockLockLost (p : Port) (lane : Fin 16) (headers : List (BitVec 2))
  | hostFrameBad (p : Port) (blocks : List (BitVec 66))
  | frameNotActedOn (p : Port) (seq : BitVec 12) (kind : Byte) (body : Bytes)
  | ack (p : Port) (b : LinkBlock)
  | nak (p : Port) (b : LinkBlock)
  | credit (p : Port) (b : LinkBlock)
  | retrain (p : Port) (b : LinkBlock)
  | ackRepeat (p : Port)
  | creditRepeat (p : Port)
  | replayInterval (p : Port)
  | readCompletion (p : Port) (seq : BitVec 12) (tag : BitVec 16) (status : Byte) (data : Bytes)
  | readCompletionTimeout (p : Port) (tag : BitVec 16)
  | tagHoldExpiry (p : Port) (tag : BitVec 16)
  | anchorMessage (p : Port) (seq : BitVec 12) (body : Bytes)
  | workQueueDoorbell (p : Port) (seq : BitVec 12) (target : BitVec 16) (index : BitVec 32)
  | consumedDoorbell (p : Port) (seq : BitVec 12) (target : BitVec 16) (index : BitVec 32)
  -- rings
  | itemFetch (p : Port) (q : Fin 512)
  | eventFrame (p : Port) (ringKind : Byte) (ring : Fin 64)
  | recordWrite (p : Port)
  -- maintenance items
  | malformedItem (p : Port) (q : Fin 512)
  | faultClear (p : Port) (q : Fin 512)
  | faultAcknowledge (p : Port) (q : Fin 512)
  | calibrate (p : Port) (q : Fin 512)
  | soundCable (p : Port) (q : Fin 512)
  | enterDormant (p : Port) (q : Fin 512)
  | injectCheckInversion (p : Port) (q : Fin 512)
  | channelUp (p : Port) (q : Fin 512)
  | channelDown (p : Port) (q : Fin 512)
  | channelQuiet (p : Port) (q : Fin 512)
  | channelSleep (p : Port) (q : Fin 512)
  | marginOverride (p : Port) (q : Fin 512)
  | windowOpen (p : Port) (q : Fin 512)
  | windowRevoke (p : Port) (q : Fin 512)
  | revokeDrained (p : Port) (q : Fin 512)
  | pageReady (p : Port) (q : Fin 512)
  | pageReadyDrained (p : Port) (q : Fin 512)
  | injectionLimitExpiry (checker : Fin 8)
  -- transport and stream items
  | writeItem (p : Port) (q : Fin 512)
  | readItem (p : Port) (q : Fin 512)
  | sendItem (p : Port) (q : Fin 512)
  | receiveItem (p : Port) (q : Fin 512)
  | atomicItem (p : Port) (q : Fin 512)
  | flushItem (p : Port) (q : Fin 512)
  | relayItem (p : Port) (q : Fin 512)
  | streamStart (p : Port) (q : Fin 512)
  | streamBuffer (p : Port) (q : Fin 512)
  | streamStop (p : Port) (q : Fin 512)
  | reserveRelease (p : Port) (q : Fin 512)
  -- the receive path
  | codewordDecoded (c : ChanId) (lam : List Int)
  | syncMinusS (c : ChanId)
  | missedSyncs (c : ChanId)
  | gainTrackingStep (c : ChanId) (power : Int)
  | antiAliasCornerChange (c : ChanId)
  | preEqualiserUpdate (c : ChanId)
  | transformWindowMove (c : ChanId) (later : Bool)
  | echoRetrainStart (c : ChanId) (residuals : List Int)
  | echoRetrainEnd (c : ChanId)
  | echoRetrainHoldoffEnd (c : ChanId) (residual : Int)
  | loadingRecompute (c : ChanId) (snr : List Int)
  | bitSwapRequest (c : ChanId) (msg : Bytes)
  | bitSwapReply (c : ChanId) (msg : Bytes)
  | bitSwapApply (c : ChanId)
  | bitSwapResendTimeout (c : ChanId)
  -- search, training and fast retrain
  | capabilityFrame (c : ChanId) (carrier : Nat) (frame : BitVec 128)
  | roleFrame (c : ChanId) (carrier : Nat) (frame : BitVec 128)
  | startFrame (c : ChanId) (carrier : Nat) (frame : BitVec 128)
  | assembledFrame (c : ChanId) (carrier : Nat) (frame : BitVec 128)
  | holdFrame (c : ChanId) (carrier : Nat) (frame : BitVec 128)
  | searchRoundStart (c : ChanId) (energy appeared : Bool)
  | exchangeTimeout (c : ChanId)
  | assemblyTimeout (c : ChanId)
  | countdownEnd (c : ChanId)
  | trainPhaseEnd (c : ChanId) (m : TrainMeasured)
  | loadingTable (c : ChanId) (msg : Bytes)
  | stateMessage (c : ChanId) (msg : Bytes)
  | loadingTableApply (c : ChanId)
  | train5Limit (c : ChanId)
  | downNotice (c : ChanId) (msg : Bytes)
  | silenceToleranceExpiry (c : ChanId)
  | f1Acquired (c : ChanId)
  | f1Limit (c : ChanId)
  | f2End (c : ChanId) (snr : List Int)
  | f3Limit (c : ChanId)
  -- quiet, sleep, wake and dormant
  | quietIdleTimeout (c : ChanId)
  | quietRequest (c : ChanId) (msg : Bytes)
  | quietReply (c : ChanId) (msg : Bytes)
  | quietReplyTimeout (c : ChanId)
  | quietStreamsEnded (c : ChanId)
  | quietRefresh (c : ChanId)
  | refreshMissed (c : ChanId)
  | quietWorkPending (c : ChanId)
  | alertDetected (c : ChanId)
  | alertAnswerTimeout (c : ChanId)
  | sleepNotice (c : ChanId) (msg : Bytes)
  | wakeFramesSent (c : ChanId)
  | wakeAnswerLimit (c : ChanId)
  | wakeFrameDecoded (c : ChanId) (runs : List Nat) (ident : BitVec 16) (data : Bytes) (check : BitVec 32)
  | wakeRestoreDone (c : ChanId)
  | falseWakeTimeout (c : ChanId)
  | dormantEntryAfterStore (m : SoundingMeasured) (symbols : Nat) (noise : Bytes)
  | dormantLineStop
  | exitSignal (p : Port)
  | dormantExitBegin
  | warmCountDone (duration : Nat)
  -- transport: arriving messages and packets, and the transport's own timers
  | restart (c : ChanId) (msg : Bytes)
  | resume (c : ChanId) (msg : Bytes)
  | discardNotice (c : ChanId) (msg : Bytes)
  | pad (c : ChanId) (msg : Bytes)
  | retransmitTimeout (c : ChanId)
  | retryBudgetExpiry (c : ChanId)
  | headerCheckFailed (c : ChanId) (header : Bytes)
  | writePacket (c : ChanId) (pkt : Packet)
  | readRequest (c : ChanId) (pkt : Packet)
  | readResponse (c : ChanId) (pkt : Packet)
  | messagePacket (c : ChanId) (pkt : Packet)
  | atomicRequest (c : ChanId) (pkt : Packet)
  | atomicResponse (c : ChanId) (pkt : Packet)
  | flushRequest (c : ChanId) (pkt : Packet)
  | flushResponse (c : ChanId) (pkt : Packet)
  | statusPacket (c : ChanId) (pkt : Packet)
  | stallLimitExpiry (req : Nat)
  | resendBackoffExpiry (transaction : BitVec 32) (chunk : Nat)
  | responseLimitExpiry (transaction : BitVec 32)
  | translationAgedOut (entry : Fin 4096)
  | dedupEntryExpired (table : Fin 1024) (nonce : BitVec 64)
  | streamSlotDue (p : Port) (q : Fin 512)
  | streamSignal (c : ChanId) (msg : Bytes)
  -- faults and calibration
  | graceTimerExpiry (i : Scope)
  | calNFalling
  | calNRising
  | calNArmed
  | calibrationWaitLimit
  | measurePhaseEnd (m : CalMeasured)
  | flashStatusPoll (busy : Bool) (area : Bytes)
  | flashBusyLimit
  | storeReadbackDone (copy : Bytes)
  | soundingEnd (m : SoundingMeasured)
  | noiseFloorMeasurementEnd (symbols : Nat) (noise : Bytes) (call : Bool)
  -- the test access port
  | tapReset (trst : Bool)
  | extest (pins cells : BitVec 512)
  | idcode
  | samplePreload (pins cells : BitVec 512)
  | clamp
  | highz
  | extestPulse (pins cells : BitVec 512)
  | extestTrain (pins cells : BitVec 512)
  | startStatus
  | keyRead
  | keyProgram (bits : BitVec 288) (wait : KeyWait)
  | factoryRef
  | dieId
  | bypass (opcode : Byte)
  -- host-lane rows of training
  | alignRow (p : Port) (row : List LaneBlock)
  | parametersFrameInterval (p : Port)
  deriving DecidableEq, Repr

end Sys2Proof
end

