-- ==== Sys2Proof/Config.lean ====
section
/-! DEFINITION. What the spec leaves open and the model leaves free, and the identity of the modelled stepping. -/

namespace Sys2Proof

/-- A fresh set of the 288 key bits: which of the bits shifted in an interrupted KEY_PROGRAM leaves set is not
specified (R145). DESIGN CHOICE: one fresh value for each use; see assumption 5. -/
opaque Config.keySubset : Nat → BitVec 288

/-- A fresh tap value: which values training, retraining and adaptation give the taps of a filter is a measurement that
the spec gives no value for (R187, R192, R194, R195). DESIGN CHOICE: a free value for each use and tap; see
assumption 6. -/
opaque Config.tap : Nat → Nat → Int

/-- A field of a telemetry record in whose period no sensor was read: R337 states no value. DESIGN CHOICE: a free value for each
record and field; see assumption 7. -/
opaque Config.unread : Nat → Nat → BitVec 16

/-- The word that the SRAM scrubber checks next, as an injected SRAM error names it (Table 18.9): its byte address and the area
among relay, retain and other. The spec gives no place. DESIGN CHOICE: a free value for each use; see assumption 8. -/
opaque Config.scrubbed : Nat → BitVec 32 × Fin 3

/-- The boundary-register cell that drives or captures a ball: cell order is the BSDL file's (R493), which is not part of the spec;
and the cell that enables a three-state ball's driver. DESIGN CHOICE: free; see assumption 78. -/
opaque Config.dataCell : Nat → Fin 512
opaque Config.enableCell : Nat → Fin 512

/-- What the receive path's adaptive parts do with what they measure, where the spec gives a property of the result and no method:
the interpolation kernel by phase and tap (R188); the timing loop's new delay and offset, from the pilot's phase error and the
present offset; and the change of an adapted coefficient by use and place (R190, R192, R194, R195). DESIGN CHOICE: free; see
assumption 85. -/
opaque Config.kernel : Nat → Nat → Int
opaque Config.timing : Int → Int → Int × Int
opaque Config.adapted : Nat → Nat → Int

/-- The request byte that the device makes of the far transmitter on a lane in T2 (Table 13.7): how its receiver adapts is not
specified (R296). DESIGN CHOICE: free, by use and lane; see assumption 94. -/
opaque Config.eqRequest : Nat → Nat → BitVec 8

/-- The measured fields of a closing quality record, over symbols that did not come to the block one by one (R237). DESIGN CHOICE: free
for each use; see assumption 48. -/
opaque Config.evm : Nat → BitVec 16
opaque Config.echo : Nat → BitVec 16
opaque Config.ppm : Nat → BitVec 16
opaque Config.quietPeriods : Nat → BitVec 16
opaque Config.quietSymbols : Nat → BitVec 32
opaque Config.quietNoise : Nat → Nat → Byte

/-- The converter's full scale at the balls at 0 dB gain, in nV, and the power above which a symbol carries energy, in squared
converter steps: the spec gives neither. DESIGN CHOICE: free; see assumption 85. -/
opaque Config.fullScale : Nat
opaque Config.threshold : Nat

/-- The least correlation of a detected sync symbol (R163, R207), and of detected call energy on a carrier (R215). DESIGN CHOICE:
free; see assumption 85. -/
opaque Config.syncLevel : Nat
opaque Config.callLevel : Nat

/-- The timing capacitor's value where the factory field is blank, by the count measured: R463 states no value. DESIGN CHOICE: free; see
assumption 112. -/
opaque Config.blankCap : Nat → Nat

/-- The phases of the tones of a wake frame by its use and carrier, in 1/128 turn: unspecified (R266). DESIGN CHOICE: free; see
assumption 83. -/
opaque Config.wakePhase : Nat → Fin 128

/-- Stepping B1, as the start record and the link parameters frame carry it (R1, Table 5.4). -/
def Config.stepping : Nat := 0x00B1

end Sys2Proof
end

