-- ==== Sys2Proof/Machine/State.lean ====
section
/-! DEFINITION. The state of the block: every piece of state the spec gives the PM6403, as plain data, the reasons a
step can stop, and the state after reset. -/

namespace Sys2Proof.Machine

/-- A keyed table: the entries that differ from the table's default, at most one for each key, keys rising. -/
abbrev Tab (α : Type) := List (Nat × α)

/-- A loading table (R164): for each of the 59 data carriers, in carrier order, its bits and its gain code. -/
abbrev Table := List (Nat × Nat)

/-- A superframe count (R17). -/
abbrev Sf := BitVec 48

/-- Why a step stops with a fault. No meaning of this model raises one: the spec gives every command of the table an
effect (safe). -/
inductive Fault where
  /-- Raised by no meaning; kept so that the type has a value to print. Safe. -/
  | unreached
  deriving DecidableEq, Repr

/-- Why a step is refused. -/
inductive Refusal where
  /-- Raised only by an arm of the dispatch whose command has no meaning yet. Safe. -/
  | notModelled (mnemonic : String)
  deriving DecidableEq, Repr

/-- The link states of Table 10.1. -/
inductive LinkState where
  | off | search | exchange | assemble | train1 | train2 | train3 | train4 | train5
  | data | quiet | sleep | hold | fast | quarantine
  deriving DecidableEq, Repr

/-- The kinds of dormant state (R271). -/
inductive DormantKind where
  | retain
  | deep
  deriving DecidableEq, Repr

/-- Where the device stands between reset and the running schedule (Tables 5.1, 5.7, 4.4). -/
inductive Stage where
  /-- reset state of Table 2.5 -/
  | reset
  /-- the line stability count of a cold start -/
  | stability
  /-- the strap and resistor step -/
  | strapStep
  /-- reading the image copy of a flash device -/
  | imageLoad (dev : FlashDev)
  /-- the copy is read, its checks are running -/
  | imageCheck (dev : FlashDev)
  /-- reading the coefficient sets -/
  | coefficients
  /-- the coefficient sets are loaded; the first slot tick is next -/
  | ready
  /-- the schedule runs -/
  | running
  /-- R38 -/
  | strapRefusal
  /-- R100 -/
  | imageRefusal
  /-- line domain stopped by a source switch (Table 4.4) -/
  | switching
  /-- line domain stopped in a dormant state (Table 12.5 step 6) -/
  | dormant (k : DormantKind)
  /-- the warm-start stability count (Table 5.7 step 1) -/
  | warm (k : DormantKind)
  deriving DecidableEq, Repr

/-- The pins, as levels (Table 2.5): true is the high level for inputs and for pushed outputs; the four open-drain
outputs are true when driven low. A flash device's SCK and IO pins follow its chip select (`State.ball`). -/
structure Pins where
  resetN : Bool
  pwrok : Bool
  tsel : Bool
  calN : Bool
  errLow : Bool
  intALow : Bool
  intBLow : Bool
  wakeLow : Bool
  flWp : Bool
  /-- FL_A_CS_N and FL_B_CS_N driven low -/
  flSelA : Bool
  flSelB : Bool
  /-- the test access port's inputs -/
  tck : Bool
  tms : Bool
  tdi : Bool
  trstN : Bool
  /-- TDO while shifting; none: high-impedance -/
  tdo : Option Bool
  deriving DecidableEq, Repr

/-- What a start leaves behind for the start record (Tables 5.4 to 5.6). -/
structure Start where
  stage : Stage
  /-- the stage to which a TSEL change during start-up returns (Table 4.5); none when no such count runs -/
  recount : Option Stage
  /-- 0 cold, 1 dormant-retain, 2 dormant-deep -/
  kind : Nat
  /-- true from the strap sample to the next reset (R36, R494) -/
  sampled : Bool
  straps : BitVec 8
  calHeld : Bool
  tselAtRelease : Bool
  codes : List Nat
  outOfBand : List Bool
  primary : Byte
  mirror : Byte
  /-- bytes of the copy being checked -/
  copy : Bytes
  sets : BitVec 5
  setsMirror : BitVec 5
  switches : Nat
  duration : BitVec 32
  /-- Table 5.5 code of each channel at the last warm start -/
  left : List Nat
  /-- the most recent start record, as the last-start area keeps it (R155) -/
  record : Bytes
  deriving DecidableEq, Repr

/-- One slot descriptor of the schedule tables (Table 7.4). -/
structure SlotDesc where
  clearing : Bool
  cls : Nat
  count : Nat
  first : Nat
  deriving DecidableEq, Repr

/-- One wake table entry (R141). -/
structure WakeEntry where
  ident : BitVec 16
  mask : BitVec 16
  enabled : Bool
  data : Bytes
  dataMask : Bytes
  deriving DecidableEq, Repr

/-- The content of the accepted image (R147), kept on die. -/
structure Image where
  loaded : Bool
  digest : Bytes
  length : Nat
  ident : Bytes
  fromMirror : Bool
  verified : Bool
  /-- vmin at the five temperatures, in 0.1 mV (R117) -/
  envelope : List Nat
  slots : List SlotDesc
  /-- step words: code, channel, repeat (Table 7.5) -/
  pool : List (Nat × Nat × Nat)
  /-- parameter values by parameter ID (R138): the value's elements -/
  params : Tab (List Nat)
  wake : List WakeEntry
  deriving DecidableEq, Repr

/-- The line domain's time base and clocks (R17, R80, R82, R90). -/
structure Clock where
  sf : Sf
  slot : BitVec 8
  /-- line-domain symbols run since reset: what the timers that begin inside a superframe count (R80) -/
  symbols : Nat
  /-- the selected source: true is HCK_B -/
  source : Bool
  /-- Table 4.6: edges of the selected clock have ceased -/
  interrupted : Bool
  /-- a TSEL change recognised while interrupted waits for edges (corner after R94) -/
  pendingTsel : Bool
  /-- source switches completed since reset (R83) -/
  switches : Nat
  dormantEntries : Nat
  deriving DecidableEq, Repr

/-- A link frame the device sends (R287): its kind, sequence number and body. -/
structure Frame where
  kind : Nat
  seq : BitVec 12
  body : Bytes
  deriving DecidableEq, Repr

/-- What a host read was issued for (R300): its completion goes there. -/
inductive Purpose where
  | anchor (addr : BitVec 64)
  | fetch (q : Fin 512) (first : BitVec 32) (count : Nat)
  | intFence
  /-- the descriptor read of a window open item -/
  | openDesc (q : Fin 512) (item : BitVec 32) (window : Nat)
  /-- the descriptor read of a revoke item -/
  | revokeDesc (q : Fin 512) (item : BitVec 32) (window gen : Nat)
  | revokeFence (q : Fin 512) (item : BitVec 32)
  | readyDesc (q : Fin 512) (item : BitVec 32) (window gen : Nat) (offset : Nat) (code : Nat)
  | readyFence (q : Fin 512) (item : BitVec 32)
  /-- target side: descriptor and page entry of a walk, data, atomic operand, fences -/
  | walkDesc (req : Nat)
  | walkEntry (req : Nat) (page : Nat)
  | targetData (req : Nat) (part : Nat)
  | atomicPrior (req : Nat)
  | atomicFence (req : Nat)
  | flushFence (req : Nat)
  | receiveFence (q : Fin 512) (item : BitVec 32)
  | firebreakFence (q : Fin 512) (item : BitVec 32) (slot : Nat)
  /-- initiator side: source bytes of a chunk, and the fixity array entries of an operation -/
  | sourceData (txn : BitVec 32) (chunk : Nat) (part : Nat)
  | fixityEntry (txn : BitVec 32) (chunk : Nat)
  deriving DecidableEq, Repr

/-- A host read in flight (R300). -/
structure HostRead where
  tag : BitVec 16
  length : Nat
  /-- the symbol count at issue -/
  issued : Nat
  purpose : Purpose
  deriving DecidableEq, Repr

/-- A frame or read waiting for credits or for a tag. -/
inductive Wait where
  | write (addr : BitVec 64) (data : Bytes)
  | read (addr : BitVec 64) (length : Nat) (purpose : Purpose)
  | event (body : Bytes)
  | reply (body : Bytes)
  deriving DecidableEq, Repr

/-- A frame accepted by the link layer that needs the Merun core (R80). -/
inductive Held where
  | completion (tag : BitVec 16) (status : Byte) (data : Bytes)
  | workDoorbell (target : BitVec 16) (index : BitVec 32)
  | consumedDoorbell (target : BitVec 16) (index : BitVec 32)
  | anchor (body : Bytes)
  /-- a frame that is not acted on (R290): its kind -/
  | ignored (kind : Nat)
  deriving DecidableEq, Repr

/-- Where a port's link stands (Table 13.6). -/
inductive LinkPhase where
  | down | t1 | t2 | t3 | t4 | up | idle
  deriving DecidableEq, Repr

/-- One host port's link layer (R276 to R309). -/
structure HostLink where
  counted : Bool
  clockStopped : Bool
  phase : LinkPhase
  /-- a training since the last reset or dormant exit has brought the link up: the next one is a resume (R298) -/
  trained : Bool
  /-- consecutive TRAIN blocks on lane 0 carrying the three far flags (R296) -/
  farLocked : Nat
  farEqual : Nat
  farDeskew : Nat
  /-- logical number arriving on each physical lane (R284) -/
  laneMap : List (Nat × Nat)
  /-- physical lanes whose pair arrives inverted (R284) -/
  inverted : List Nat
  aligned : Bool
  /-- transmit equaliser of each lane: pre-cursor and post-cursor magnitudes in steps of 0.025, preset in use -/
  txEq : List (Nat × Nat × Nat)
  /-- equaliser responses of each lane: pre-cursor and post-cursor (Table 13.7) -/
  responses : List (Nat × Nat)
  paramsSent : Bool
  paramsSeen : Bool
  farPeerSeen : Bool
  farNext : BitVec 12
  nextSeq : BitVec 12
  expected : BitVec 12
  nakSent : Bool
  replay : List Frame
  resends : Nat
  /-- host grants of classes 1, 2, 3 and what the device consumed of them (R294) -/
  granted : List (BitVec 16)
  consumed : List (BitVec 16)
  /-- doorbell credits granted by the device, cumulative -/
  doorbells : BitVec 16
  /-- doorbell credits taken from the receive buffer while the port's clock stood, not yet granted (R308) -/
  owed : Nat
  /-- frames accepted while the line domain is stopped, acted on when it resumes (R80, corner after R295) -/
  held : List Held
  reads : List HostRead
  heldTags : List (BitVec 16 × Nat)
  waiting : List Wait
  /-- blocks of the stream still to be laid in rows; each lane's latest 58 payload bits sent; rows since the last ALIGN row (R281
  to R283) -/
  stream : List (BitVec 66)
  scramblers : List (BitVec 58)
  rows : Nat
  /-- the rows sent, oldest first, as the lanes carry them: the model's own log -/
  wire : List (List (BitVec 66))
  deriving DecidableEq, Repr

/-- An accepted anchor's content (Table 14.1). -/
structure Anchor where
  addr : BitVec 64
  indexBlock : BitVec 64
  windowBase : BitVec 64
  windowSlots : Nat
  queueBase : BitVec 64
  recordRings : Nat
  completionRings : Nat
  routing : List Nat
  /-- base, size code, event flag -/
  records : List (BitVec 64 × Nat × Bool)
  completions : List (BitVec 64 × Nat × Bool)
  /-- queue descriptors -/
  queues : List (BitVec 32)
  deriving DecidableEq, Repr

/-- A ring's indices (R316) and whether an event frame is due (R301). -/
structure Ring where
  producer : BitVec 32
  consumed : BitVec 32
  reserved : Nat
  eventDue : Bool
  deriving DecidableEq, Repr

/-- A record produced and not yet in its ring: kind, ring and bytes. -/
structure Rec where
  kind : Nat
  ring : Nat
  bytes : Bytes
  deriving DecidableEq, Repr

/-- One port's rings, records and anchor (R310 to R337). -/
structure PortRings where
  anchor : Option Anchor
  /-- an anchor message between steps 2 and 4 of Table 13.18 -/
  anchorReading : Bool
  record : Tab Ring
  completion : Tab Ring
  buffer : List Rec
  /-- start and discard records that wait outside the full buffer (R333) -/
  outside : List Rec
  lost : BitVec 32
  telemetrySeq : BitVec 32
  startPending : Bool
  deriving DecidableEq, Repr

/-- How far a fetched item has come. -/
inductive ItemPhase where
  | fetched
  | started
  | done (code : Byte) (detail : BitVec 32)
  deriving DecidableEq, Repr

/-- A fetched item held on die (R319). -/
structure Item where
  index : BitVec 32
  raw : Bytes
  phase : ItemPhase
  deriving DecidableEq, Repr

/-- A stream queue's run (R400 to R414). -/
structure Stream where
  running : Bool
  start : Sf
  lead : Nat
  /-- slot number of the next buffer item fetched after the start -/
  nextSlot : Nat
  /-- slot number that falls due next -/
  dueSlot : Nat
  episode : Nat
  /-- item index of each feed slot -/
  slots : List (Nat × BitVec 32)
  withdrawn : Bool
  reserveAddr : BitVec 64
  reservePos : Nat
  episodeOpen : Bool
  frames : Nat
  /-- channel of the stream's latest frame -/
  chan : Option ChanId
  deriving DecidableEq, Repr

/-- One work queue (R312, R316 to R324, R433). -/
structure Queue where
  producer : BitVec 32
  consumed : BitVec 32
  reading : Bool
  items : List Item
  lastDone : Option (BitVec 32)
  halted : Bool
  claims : List (BitVec 32 × BitVec 32)
  stream : Stream
  deriving DecidableEq, Repr

/-- Which packet of an operation: a request for a chunk, the packet with a chunk's data, or the flush (or atomic). -/
inductive Leg where
  | request (chunk : Nat)
  | data (chunk : Nat)
  | single
  deriving DecidableEq, Repr

/-- A packet of an operation, by the operation's transaction. -/
structure OpRef where
  txn : BitVec 32
  leg : Leg
  deriving DecidableEq, Repr

/-- A sequenced codeword in the retain area (R383), with the moments of its first and latest sendings' ends on the
channel's own count of symbols in DATA and QUIET (R386). -/
structure Codeword where
  seq : BitVec 12
  kind : Nat
  start : Nat
  payload : Bytes
  first : Option Nat
  latest : Option Nat
  /-- operations with bytes in it -/
  ops : List OpRef
  deriving DecidableEq, Repr

/-- A packet waiting in a channel's transmit byte stream, with the operation it belongs to. -/
structure TxPacket where
  bytes : Bytes
  op : Option OpRef
  /-- some of its bytes are in a codeword already -/
  begun : Bool
  deriving DecidableEq, Repr

/-- The settings kept for fast retrain (R181). -/
structure Stored where
  gain : Nat
  narrow : Bool
  preEq : List Int
  echo : List Int
  next : List Int
  matrix : List Int
  txTable : Table
  rxTable : Table
  partner : BitVec 16
  deriving DecidableEq, Repr

/-- The receive path's settings (R180 to R193, R199). -/
structure Rx where
  gain : Nat
  frozen : Bool
  narrow : Bool
  preEq : List Int
  echo : List Int
  next : List Int
  matrix : List Int
  /-- samples by which the transform window has moved since it was set (R189) -/
  window : Int
  /-- marked symbols still to come (R205, R206) -/
  marked : Nat
  /-- echo retrain: its symbols still to come and the one before them, then the symbol count at which its holdoff began -/
  retraining : Option Nat
  holdoff : Option Nat
  gainDue : Option Bool
  snr : List Int
  snrValid : Bool
  deriving DecidableEq, Repr

/-- Both directions' loading and the bit-swap exchange (R199 to R204). -/
structure Load where
  rxTable : Table
  armed : Option Table
  armedSince : Nat
  ident : Byte
  attempts : Nat
  replied : Bool
  /-- a table that waits for the wide corner (R186) -/
  waiting : Option Table
  txTable : Table
  /-- a table accepted from the partner and the superframe whose symbol 0 is −S -/
  toApply : Option (Table × Sf)
  applied : Option Byte
  override : Option Nat
  lastMargin : Nat
  /-- the margin field of the request in force: a resend repeats it (R204) -/
  sentMargin : Nat
  deriving DecidableEq, Repr

/-- A search, exchange or assembly in progress (R213 to R220). -/
structure Bringup where
  /-- a transition to SEARCH waits for the next epoch boundary, with its reason -/
  toSearch : Option Byte
  caller : Bool
  prbs : BitVec 11
  rounds : Nat
  roundStart : Sf
  calling : Bool
  capSeen : Bool
  roleSeen : Bool
  lastProgress : Sf
  assembledFar : Bool
  lastHold : Bool
  /-- a countdown in progress: forming or not, frames left, and the superframe in which its last frame ends -/
  countdown : Option (Bool × Sf)
  /-- a down or sleep notice being sent: the state it leads to, the reason, and notices left (R230, R261) -/
  leaving : Option (LinkState × Nat × Nat)
  deriving DecidableEq, Repr

/-- What the partner said of itself, and the group's status (Tables 10.4, 10.5, 10.9). -/
structure Partner where
  node : BitVec 16
  highB : Nat
  size : Nat
  offset : Nat
  bonded : Bool
  minB : Nat
  role : Byte
  chan : Nat
  port : Nat
  image : BitVec 32
  /-- 0 single, 1 formed, 2 not formed -/
  group : Nat
  fext : Bool
  bondedLink : Bool
  deriving DecidableEq, Repr

/-- The steps of fast retrain (R232). -/
inductive FastStep where
  | f1 | f2 | f3
  deriving DecidableEq, Repr

/-- Training in progress (R222 to R233). -/
structure Train where
  secondHalf : Bool
  phaseStart : Sf
  began : Sf
  fast : FastStep
  /-- first missed sync symbol of a stay in FAST (R229) -/
  silentSince : Option Sf
  /-- end of the last wake frame sent (R263) -/
  answer : Option Sf
  /-- the partner's training stream has begun: its first −S has been received (R223) -/
  rxBegun : Bool
  accepted : Bool
  invalid : Bool
  acceptedB : Nat
  acceptedCheck : BitVec 32
  sentCheck : BitVec 32
  txMinus : Bool
  rxMinus : Bool
  confirmed : Bool
  /-- a member that rejoins its formed group: it keeps its rows of NEXT taps and of W(k) (R225) -/
  rejoining : Bool
  lastTable : Sf
  lastState : Sf
  deriving DecidableEq, Repr

/-- Quiet mode and the Quiet exchange (R253 to R260). -/
structure QuietSt where
  mode : Bool
  /-- symbol counts: of the last traffic, and of the quiet request sent -/
  idleSince : Nat
  requested : Option Nat
  txEnded : Bool
  rxEnded : Bool
  /-- our stream ends at the end of the next codeword sent -/
  ending : Bool
  phase : Nat
  /-- a refresh is being sent (R256) -/
  refreshing : Bool
  /-- symbols of an alert and of the wait after it -/
  alert : Option Nat
  /-- symbols of the partner's alert that have been received -/
  heard : Option Nat
  /-- the symbol count at which the received stream was seen to end: its last codewords are still being decoded -/
  seenEnd : Option Nat
  deriving DecidableEq, Repr

/-- A wake match held in the wake domain until its record is written (R264). -/
structure WakeMatch where
  ident : BitVec 16
  data : Bytes
  device : Nat
  deriving DecidableEq, Repr

/-- A channel's wake side (R261 to R270). -/
structure Wake where
  armed : Bool
  failed : Nat
  notMatching : Nat
  held : Option WakeMatch
  /-- the held match waits for the schedule to resume (R264) -/
  due : Bool
  /-- a wake request being sent: identifier, data, queue and item -/
  sending : Option (BitVec 16 × Bytes × Port × Fin 512 × BitVec 32)
  fromSleep : Bool
  /-- the symbol count at which the false-wake timer started (R265) -/
  falseSince : Option Nat
  restoring : Bool
  /-- sleep item held or its notice being sent: queue and item -/
  sleepItem : Option (Port × Fin 512 × BitVec 32)
  upItem : Option (Port × Fin 512 × BitVec 32)
  downItem : Option (Port × Fin 512 × BitVec 32)
  deriving DecidableEq, Repr

/-- The counters of a quality record (Table 11.1). -/
structure Quality where
  counted : Nat
  clean : Nat
  corrected : Nat
  uncorrectable : Nat
  retransmitted : Nat
  delivered : Nat
  unsettled : Nat
  syncS : Nat
  syncMinus : Nat
  missed : Nat
  unarmed : Nat
  /-- the sum of |y − ĉ|² in 2^-24 over unmarked data symbols' loaded carriers, and how many values it has (EVM) -/
  evmSum : Nat
  evmCount : Nat
  /-- the measured fields last delivered to the block -/
  last : QualityMeasured
  deriving DecidableEq, Repr

/-- What runs at an end after a re-entry to data mode (R391). -/
inductive Resumption where
  /-- no exchange is owed -/
  | complete
  /-- our resume message is sent or owed; partner's delivered; ours acknowledged -/
  | running (got acked : Bool)
  deriving DecidableEq, Repr

/-- A codeword position of a bonded group at the receiver (R392): its start instant (superframe, symbol, fraction), the
member's offset, its sequence, and its packet start and payload once delivered as a transport codeword. -/
structure Merged where
  frame : Nat
  symbol : Nat
  num : Nat
  den : Nat
  offset : Nat
  seq : BitVec 12
  content : Option (Nat × Bytes)
  deriving DecidableEq, Repr

/-- One channel's link-level retry and byte streams (R167 to R174, R382 to R392). -/
structure Retry where
  next : BitVec 12
  expect : BitVec 12
  retain : List Codeword
  /-- codewords of the retain area that are to be sent (again) before every new one -/
  resend : List Codeword
  /-- codewords kept across a stay in FAST, until the partner's resume message (R391) -/
  kept : List Codeword
  oldNext : BitVec 12
  oldExpect : BitVec 12
  /-- the last exit from data mode happened with the resume exchange complete -/
  valid : Bool
  resumption : Resumption
  /-- the latest sequence discarded as too late, until it is delivered (R384) -/
  late : Option (BitVec 12)
  lm : List Bytes
  packets : List TxPacket
  /-- the codeword in course of sending, its coded bits still to send, and whether the stream ends with it (R254) -/
  current : Option (Codeword × List Bool × Bool)
  /-- symbols spent in DATA and QUIET -/
  clock : Nat
  /-- operations in the last 4,096 sequenced codewords (R389) -/
  history : List (BitVec 12 × List OpRef)
  txScr : BitVec 23
  rxScr : BitVec 23
  /-- the acknowledge value of the last codeword sent with acknowledgements not withheld (R392) -/
  ackOut : BitVec 12
  /-- bytes of the packet in course of receiving, and the codeword (pair offset, sequence) of its first byte -/
  partial' : Bytes
  origin : Nat × BitVec 12
  /-- first and last codeword of the bytes being discarded, while hunting for a packet start (R344, R389) -/
  hunting : Option ((Nat × BitVec 12) × (Nat × BitVec 12))
  /-- failed headers not yet counted -/
  bad : List Bytes
  /-- sequence of the next position of a bonded member (R392) -/
  posSeq : BitVec 12
  /-- start instant of the next codeword of a stream whose symbols do not come one by one: received superframe, bit position, and
  the B it is counted with (R197) -/
  rxFrame : Nat
  rxPos : Nat
  rxB : Nat
  /-- bonded groups: the merge buffer, in order of start instants (R392) -/
  merge : List Merged
  /-- the received superframe of the first bit of the codeword that brought the latest message (R256) -/
  msgFrame : Nat
  /-- delivered link-management messages and packets not yet acted on -/
  inbox : List Bytes
  arrived : List Packet
  deriving DecidableEq, Repr

/-- A received data symbol: the slot in which it arrived, its received superframe and index, and its soft values. -/
structure SoftSymbol where
  slot : Nat
  frame : Nat
  symbol : Nat
  /-- the bits of a data symbol when it arrived -/
  width : Nat
  lam : List Int
  deriving DecidableEq, Repr

/-- Errors of a measurement on each data carrier (R199): the sum of |y − ĉ|² in 2^-24, and the symbols. -/
structure SnrSum where
  errors : List Nat
  symbols : List Nat
  deriving DecidableEq, Repr

/-- A noise-floor measurement (R241): power sums of the data carriers in squared converter steps times 2^60, and symbols, of the
quiet periods (or superframes) averaged; the same of the period in progress; and whether that period is left out. -/
structure NoiseSum where
  power : List Nat
  symbols : Nat
  periods : Nat
  nowPower : List Nat
  nowSymbols : Nat
  skip : Bool
  /-- quiet periods begun since the entry to QUIET -/
  begun : Nat
  /-- symbols since a symbol in which either end transmitted -/
  calm : Nat
  deriving DecidableEq, Repr

/-- What a channel sends and receives, symbol by symbol (R157 to R163, R180 to R191). -/
structure Air where
  /-- samples sent in the latest slots that have ended, oldest first, in nV: what the cancellers work on -/
  line : List Int
  /-- the stream bits of the present data symbol -/
  bits : List Bool
  /-- symbol 0 of the present superframe has form −S -/
  minus : Bool
  /-- the present symbol is sent as zeros (R123) -/
  late : Bool
  /-- the points of the call frame in course, true for negative, and the point that the next one is relative to (R209) -/
  call : Option (List Bool)
  callRef : Bool
  /-- line samples sent of the wake frames in course (R262) -/
  waked : Nat
  /-- cancelled samples that the pre-equaliser still needs, and its output not yet in a window -/
  residual : List Int
  samples : List Int
  /-- timing recovery (R188): accumulated interpolator delay in 1/64 sample, and frequency offset in 0.01 ppm -/
  delay : Int
  offset : Int
  /-- the received superframe is found; its number, and the index of the next symbol in it -/
  aligned : Bool
  frame : Nat
  symbol : Nat
  /-- soft values for the decoder, and how many of the front symbol's are used -/
  soft : List SoftSymbol
  used : Nat
  /-- the SNR measurement in progress, and received superframes since the last recomputation (R199, R201) -/
  snr : SnrSum
  frames : Nat
  /-- received superframes since the pre-equaliser's taps were recomputed (R187) -/
  preEqFrames : Nat
  /-- samples that the next symbol begins later, after a move of the window -/
  slip : Int
  /-- consecutive expected sync symbols that did not reach the level of detection (R225, R228, R257) -/
  misses : Nat
  /-- a gain step has been made in this received superframe -/
  stepped : Bool
  /-- the latest received symbol's transform on carriers 4 to 63, and whether it is still to be equalised -/
  spectrum : List (Int × Int)
  ready : Bool
  noise : NoiseSum
  deriving DecidableEq, Repr

/-- One line channel (Table 10.1 and the chapters that own its states). -/
structure Chan where
  link : LinkState
  previous : LinkState
  quarantined : Bool
  stored : Option Stored
  rx : Rx
  load : Load
  bring : Bringup
  partner : Partner
  train : Train
  quiet : QuietSt
  wake : Wake
  quality : Quality
  retry : Retry
  air : Air
  deriving DecidableEq, Repr

/-- The kinds of transport operation (Table 16.1). -/
inductive OpKind where
  | write | read | send | atomic | flush | relay
  deriving DecidableEq, Repr

/-- A chunk being read from local host memory. -/
structure Prep where
  chunk : Nat
  left : Nat
  parts : List (Nat × Bytes)
  entry : Option (BitVec 64)
  deriving DecidableEq, Repr

/-- An operation of an initiating queue (R366 to R396). -/
structure Op where
  txn : BitVec 32
  port : Port
  queue : Fin 512
  item : BitVec 32
  kind : OpKind
  chan : ChanId
  /-- the target channel of a relay -/
  chan2 : ChanId
  key : BitVec 32
  key2 : BitVec 32
  offset : BitVec 64
  /-- local address; the target offset of a relay -/
  addr : BitVec 64
  length : Nat
  array : BitVec 64
  fixity : Bool
  target : BitVec 16
  operands : BitVec 64 × BitVec 64 × BitVec 64
  swap : Bool
  /-- chunks put on their way so far -/
  next : Nat
  /-- the chunk whose source bytes and array entry are being read: reads left, parts, entry -/
  prep : Option Prep
  /-- requests and data packets out and not answered or acknowledged: chunk, and the symbol count at which a request's was acknowledged -/
  out : List (Nat × Option Nat)
  /-- chunks placed (read), or written and acknowledged (write, send, relay) -/
  done : Nat
  /-- relay: chunks staged and verified, with bytes and trailer -/
  staged : List (Nat × Bytes × BitVec 64)
  nextWrite : Nat
  /-- expected trailers of chunks from the array (R368) -/
  expected : List (Nat × BitVec 64)
  failed : Option (Byte × Nat)
  /-- resends of a chunk: count so far and the symbol count at which the next falls due -/
  resends : List (Nat × Nat × Option Nat)
  /-- relay: its own flush is out; stream send: its last codeword is acknowledged; flush and atomic: sent -/
  flushing : Bool
  acked : Option Nat
  deriving DecidableEq, Repr

/-- How far an arriving request has come at the target. -/
inductive ReqStage where
  /-- a walk is being read -/
  | walking
  /-- held for paging since a symbol count -/
  | held (page : Nat) (since : Nat)
  /-- host reads or writes in flight -/
  | moving (left : Nat)
  /-- an atomic waits for another on the same 8 bytes -/
  | waiting
  /-- an atomic duplicate waits for the original -/
  | duplicate
  /-- a flush request waits for earlier operations -/
  | flushing
  deriving DecidableEq, Repr

/-- A window descriptor's content (Table 15.5). -/
structure Win where
  valid : Bool
  readable : Bool
  writable : Bool
  atomics : Bool
  resend : Bool
  code : Nat
  domain : Nat
  partition : Nat
  gen : BitVec 16
  length : Nat
  map : BitVec 64
  opened : Bool
  /-- no reserved field or encoding is set -/
  clean : Bool
  deriving DecidableEq, Repr

/-- A request being carried out at the target (R349). -/
structure Req where
  ident : Nat
  chan : ChanId
  port : Port
  pkt : Packet
  stage : ReqStage
  /-- pages translated so far: page number and host address -/
  pages : List (Nat × BitVec 64)
  /-- its window's descriptor, once read or found in the cache and checked -/
  win : Option Win
  /-- a revoke or page ready has been accepted since its read was issued: what it brings is discarded (R360, R365) -/
  stale : Bool
  /-- the page it was held on last and the symbol count at which it was first held (R363, R365) -/
  heldSince : Option (Nat × Nat)
  parts : List (Nat × Bytes)
  prior : BitVec 64
  deriving DecidableEq, Repr

/-- An entry of the translation cache (R358). -/
structure CacheEntry where
  port : Port
  window : Nat
  gen : BitVec 16
  page : Nat
  addr : BitVec 64
  win : Win
  /-- 0 to 3; 4: a sweep has found it at age 3 -/
  age : Nat
  deriving DecidableEq, Repr

/-- An entry of a deduplication table (R380). -/
structure Dedup where
  source : BitVec 16
  nonce : BitVec 64
  key : BitVec 32
  offset : BitVec 64
  prior : Option (BitVec 64)
  /-- the symbol count of its last hit -/
  since : Nat
  deriving DecidableEq, Repr

/-- A reported absent page (R361). -/
structure PageReport where
  port : Port
  window : Nat
  gen : BitVec 16
  page : Nat
  resend : Bool
  /-- the symbol count of the report -/
  since : Nat
  deriving DecidableEq, Repr

/-- A message in reception (R377). -/
structure Message where
  port : Port
  chan : ChanId
  txn : BitVec 32
  source : BitVec 16
  queue : Fin 512
  /-- the claimed item; of a drain frame, the item in use -/
  item : Option (BitVec 32)
  addr : BitVec 64
  total : Nat
  placed : Nat
  /-- the last chunk is placed and its fence is out -/
  fencing : Bool
  /-- feed: the slot claimed -/
  slot : Option Nat
  /-- drain: bytes placed in the item in use, whether the frame began in it, its fill offset -/
  inItem : Nat
  beganHere : Bool
  /-- drain: bytes in the reserve and the position they begin at -/
  reserve : Nat
  reserveAt : Nat
  /-- drain: the frame's number since the stream start -/
  frame : Nat
  /-- overtaken, truncated or failed: later packets are dropped -/
  dropped : Bool
  deriving DecidableEq, Repr

/-- A window or page item that waits for in-flight uses to end (R356, R365). -/
structure Drain where
  port : Port
  queue : Fin 512
  item : BitVec 32
  window : Nat
  gen : BitVec 16
  /-- none for a revoke, the page for a page ready -/
  page : Option Nat
  /-- requests in flight when it was accepted -/
  uses : List Nat
  /-- its fence read: 0 to be issued, 1 out, 2 done -/
  fence : Nat
  deriving DecidableEq, Repr

/-- The transport engine's shared structures (R358 to R396). -/
structure Transport where
  ops : List Op
  nextOp : Nat
  reqs : List Req
  nextReq : Nat
  cache : Tab CacheEntry
  sweep : Nat
  dedup : Tab (List Dedup)
  reports : List PageReport
  messages : List Message
  drains : List Drain
  /-- first failure recorded for a queue and channel since its last flush (R372) -/
  failures : List (Port × Fin 512 × ChanId × BitVec 32)
  /-- last frame sent to a stream queue on a channel: channel, target queue, initiating queue, item (R414) -/
  lastFrames : List (ChanId × BitVec 16 × Port × Fin 512 × BitVec 32)
  deriving DecidableEq, Repr

/-- What a fault source keeps (R420). -/
structure Source where
  start : Sf
  count : Nat
  severe : Bool
  sticky : Bool
  total : Nat
  suppressed : Nat
  /-- instance word of the occurrence that made it severe (Table 18.4) -/
  inst : BitVec 16
  /-- superframe of the last message written (R424) -/
  messaged : Option Sf
  /-- a severe occurrence deferred to the next superframe: its instance word, merged flag and address -/
  deferred : Option (BitVec 16 × Bool × Bytes)
  deriving DecidableEq, Repr

/-- The reaction state of a scope instance (Table 18.7). -/
structure Reaction where
  scope : Scope
  /-- superframe-independent: line-domain symbol at which the grace timer expires; none when escalated -/
  expires : Option Nat
  lead : Nat
  merged : List Nat
  deriving DecidableEq, Repr

/-- The fault side (R417 to R440). -/
structure Faults where
  sources : Tab Source
  reactions : List Reaction
  /-- sources acknowledged in the last episode of an instance that is idle (R428) -/
  acknowledged : List (Scope × List Nat)
  quiesced : Bool
  /-- armed inversions: checker, port or channel field, queue, item, and the superframe of arming -/
  armed : List (Nat × Nat × Port × Fin 512 × BitVec 32 × Sf)
  deriving DecidableEq, Repr

/-- What ordered a background task: an item, or CAL_N. -/
structure Origin where
  item : Option (Port × Fin 512 × BitVec 32 × BitVec 32)
  port : Port
  deriving DecidableEq, Repr

/-- A background task (R130): calibration, sounding, or noise-floor measurement (mode 3 of Table 11.3). -/
inductive TaskKind where
  | calibration (point : Nat) (store : Bool) (channels : BitVec 64) (ports : BitVec 2)
  | sounding (c : ChanId) (mode : Nat)
  deriving DecidableEq, Repr

structure Task where
  kind : TaskKind
  origin : Origin
  accepted : Sf
  /-- start superframe of a running task -/
  started : Option Sf
  /-- the channel state in which a sounding started -/
  state : LinkState
  /-- t at the start of a calibration, in 0.1 °C (Table 19.6) -/
  heat : Int
  /-- the calibration wait limit has passed (R454) -/
  waited : Bool
  /-- the result of Table 11.4 that ends a sounding early (R251); 0: none -/
  broken : Nat
  /-- a sounding that has ended, and whose record is not yet in its ring (R252) -/
  ended : Bool
  deriving DecidableEq, Repr

/-- Where a coefficient store stands on one flash device (R153, R155). -/
inductive StoreStep where
  /-- erasing sector k of the target copy -/
  | erase (k : Nat)
  /-- programming page k; page 0 comes last -/
  | program (k : Nat)
  | readback
  /-- last-start entry: reading the area, erasing its sector k, programming -/
  | lastRead
  | lastErase (k : Nat) (all : Bool)
  | lastProgram
  deriving DecidableEq, Repr

/-- A coefficient store in progress. -/
structure Store where
  dev : FlashDev
  point : Nat
  copyA : Nat
  copyB : Nat
  seq : Nat
  bytes : Bytes
  step : StoreStep
  okA : Bool
  okB : Bool
  /-- last-start entry: sequence and position -/
  entry : Nat
  position : Nat
  deriving DecidableEq, Repr

/-- A calibration that has adopted its set, in its store or post phase (R455 to R459). -/
structure Adopted where
  task : Task
  /-- t at the end of the measure phase -/
  heat : Int
  payload : Bytes
  unmeasured : BitVec 64
  duration : Nat
  /-- the sequence stored, and the store byte of Table 19.6 -/
  seq : Nat
  stored : Nat
  /-- the summary record is written, and so many parts have been produced -/
  posted : Option Nat
  deriving DecidableEq, Repr

/-- The trims and selections in use on a channel (Tables 19.1, 19.2): 253 numeric trims, the DAC cells and
sub-converters in service, and the comparator stem of each sub-converter. -/
structure ChanUse where
  trims : List Int
  dac : BitVec 288
  adc : BitVec 18
  comparators : List Nat
  deriving DecidableEq, Repr

/-- The trims and selections in use on a host lane: eight stem offsets and the termination; the stems that serve as
data, edge, error high and error low. -/
structure LaneUse where
  trims : List Int
  stems : List Nat
  deriving DecidableEq, Repr

/-- The calibration side (R441 to R463). -/
structure Calib where
  /-- the payload of the in-use set of each temperature point that has one -/
  sets : Tab Bytes
  /-- points whose in-use set was loaded from the mirror (Table 5.4) -/
  mirrored : BitVec 5
  /-- highest valid sequence and its copy, keyed 5 × flash device + point -/
  seqs : Tab (Nat × Nat)
  /-- discovery at this start found no usable flash: primary, mirror -/
  absent : Bool × Bool
  t : Int
  stemPoint : Option Nat
  channels : Tab ChanUse
  lanes : Tab LaneUse
  /-- timing capacitor and reference trim -/
  common : List Int
  /-- CAL_N: armed, and the symbol count since which it has been high -/
  armed : Bool
  highSince : Option Nat
  /-- channels that have been, in this measure phase, in a state that allows every no-spare measurement, or that of the corners and the
  receive gain (R454) -/
  spareSeen : BitVec 64
  cornerSeen : BitVec 64
  store : Option Store
  adopted : Option Adopted
  deriving DecidableEq, Repr

/-- Telemetry accumulated since the last record (R337). -/
structure Telemetry where
  vcore : Option Nat
  vmin : Nat
  margin : Option Int
  temps : List Int
  overruns : Nat
  violations : Nat
  corrections : Nat
  uncorrectable : Nat
  slack : Tab Int
  since : Sf
  deriving DecidableEq, Repr

/-- Dormant entry in progress (Table 12.5). -/
structure Entry where
  kind : DormantKind
  queue : Port × Fin 512
  item : BitVec 32
  /-- steps 2 to 5 are done; the completion awaits its acknowledgement -/
  written : Bool
  /-- the symbol count at which the completion was seen to be acknowledged (step 6) -/
  acked : Option Nat
  deriving DecidableEq, Repr

/-- What the clearings of a slot do (R129). -/
inductive Role where
  | background
  | overflow
  | idle
  deriving DecidableEq, Repr

/-- The unit instances against their lists (R121 to R130). -/
structure Sched where
  /-- by instance: the slots whose lists have not ended though their slot has, oldest (begun) first -/
  behind : Tab (List Nat)
  /-- slots of this cycle whose overrun has been counted -/
  counted : List Nat
  /-- by instance: the decision of the clearing in progress -/
  roles : Tab Role
  /-- the slot in progress spans a stop of the line domain and is not measured (R126) -/
  unmeasured : Bool
  /-- a scrub pass in progress: blocks of 64 words of 64 bits of the 24 MiB of SRAM done (step SC1) -/
  scrub : Option Nat
  deriving DecidableEq, Repr

/-- What drives the device's outputs: the device itself, the boundary register (EXTEST and its kin, CLAMP), or nothing
(HIGHZ; Table 23.3). -/
inductive PinSource where
  | device | boundary | highz
  deriving DecidableEq, Repr

/-- The test access port (R493 to R496). -/
structure Tap where
  ir : Byte
  boundary : BitVec 512
  /-- what the last selected register shifts out, bit 0 first -/
  shifted : BitVec 512
  width : Nat
  /-- an instruction that acts on pins has put the device into the reset state (R495) -/
  holding : Bool
  /-- what drives the device's outputs while such an instruction is selected -/
  drives : PinSource
  /-- the 288 one-time-programmable bits (R144) -/
  key : BitVec 288
  factory : BitVec 32
  die : BitVec 64
  deriving DecidableEq, Repr

/-- What the block has sent to the outside, in order: the model's own log of its outputs. -/
inductive Out where
  /-- a LINK control block: port, subtype, value, count -/
  | link (p : Port) (subtype : Nat) (value count : BitVec 16)
  /-- a link parameters frame body -/
  | params (p : Port) (body : Bytes)
  /-- a frame resent from the replay buffer -/
  | resent (p : Port) (f : Frame)
  /-- a call frame on a channel -/
  | call (c : ChanId) (carrier : Nat) (frame : BitVec 128)
  /-- wake frames on a channel -/
  | wakeFrames (c : ChanId) (count : Nat) (ident : BitVec 16) (data : Bytes)
  /-- a codeword of the stream, by its information word, before scrambling -/
  | codeword (c : ChanId) (header : BitVec 40) (payload : Bytes)
  /-- a flash command: device, command byte, address, data -/
  | flash (d : FlashDev) (cmd : Nat) (addr : Nat) (data : Bytes)
  /-- a sync symbol of form −S on a channel -/
  | minusS (c : ChanId)
  /-- an alert of eight sync symbols, or a refresh of sixteen symbols -/
  | alert (c : ChanId)
  | refresh (c : ChanId)
  deriving DecidableEq, Repr

/-- The state of the block. -/
structure State where
  pending : List Instr
  pins : Pins
  start : Start
  image : Image
  clock : Clock
  linkA : HostLink
  linkB : HostLink
  ringsA : PortRings
  ringsB : PortRings
  /-- queues of both ports, keyed 512 × port + queue -/
  queues : Tab Queue
  chans : Tab Chan
  transport : Transport
  faults : Faults
  tasks : List Task
  calib : Calib
  telemA : Telemetry
  telemB : Telemetry
  sched : Sched
  entry : Option Entry
  /-- an exit event held until step 6 (R272) -/
  exitHeld : Bool
  tap : Tap
  /-- the model's counter of free values used -/
  fresh : Nat
  out : List Out
  deriving DecidableEq, Repr

/-! ### The state after reset -/

/-- Pins while both reset inputs are low (Table 2.5): outputs released, flashes deselected, FL_WP_N low. The levels of
the inputs TSEL and CAL_N are the board's (DESIGN CHOICE: TSEL low, CAL_N at its pull-up); the test access port's inputs
stand at their pulls, and TDO is high-impedance. -/
def Pins.reset : Pins :=
  { resetN := false, pwrok := false, tsel := false, calN := true, errLow := false, intALow := false, intBLow := false,
    wakeLow := false, flWp := false, flSelA := false, flSelB := false, tck := false, tms := true, tdi := true,
    trstN := false, tdo := none }

def Start.reset : Start :=
  { stage := .reset, recount := none, kind := 0, sampled := false, straps := 0, calHeld := false,
    tselAtRelease := false, codes := List.replicate 7 0, outOfBand := List.replicate 7 false, primary := 0,
    mirror := 0, copy := [], sets := 0, setsMirror := 0, switches := 0, duration := 0,
    left := [], record := [] }

def Image.reset : Image :=
  { loaded := false, digest := List.replicate 32 0, length := 0, ident := List.replicate 8 0, fromMirror := false,
    verified := false, envelope := List.replicate 5 0, slots := [], pool := [], params := [], wake := [] }

def Clock.reset : Clock :=
  { sf := 0, slot := 0, symbols := 0, source := false, interrupted := false, pendingTsel := false, switches := 0,
    dormantEntries := 0 }

/-- Lanes at preset 0 of the transmit equaliser (Table 13.8), nothing sent, nothing granted. -/
def HostLink.reset : HostLink :=
  { counted := false, clockStopped := false, phase := .down, trained := false, farLocked := 0, farEqual := 0,
    farDeskew := 0, laneMap := [], inverted := [], aligned := false, txEq := List.replicate 16 (0, 0, 0),
    responses := List.replicate 16 (0, 0), paramsSent := false, paramsSeen := false, farPeerSeen := false,
    farNext := 0, nextSeq := 0, expected := 0, nakSent := false, replay := [], resends := 0,
    granted := [0, 0, 0], consumed := [0, 0, 0], doorbells := 0, owed := 0, held := [], reads := [],
    heldTags := [], waiting := [], stream := [], scramblers := List.replicate 16 0, rows := 0, wire := [] }

def Ring.reset : Ring := { producer := 0, consumed := 0, reserved := 0, eventDue := false }

def PortRings.reset : PortRings :=
  { anchor := none, anchorReading := false, record := [], completion := [], buffer := [], outside := [], lost := 0,
    telemetrySeq := 0, startPending := false }

def Stream.reset : Stream :=
  { running := false, start := 0, lead := 0, nextSlot := 0, dueSlot := 0, episode := 0, slots := [],
    withdrawn := false, reserveAddr := 0, reservePos := 0, episodeOpen := false, frames := 0, chan := none }

def Queue.reset : Queue :=
  { producer := 0, consumed := 0, reading := false, items := [], lastDone := none, halted := false, claims := [],
    stream := Stream.reset }

def Rx.reset : Rx :=
  { gain := 0, frozen := false, narrow := false, preEq := [], echo := [], next := [], matrix := [], window := 0,
    marked := 0, retraining := none, holdoff := none, gainDue := none, snr := List.replicate 59 0,
    snrValid := false }

/-- 59 carriers with no bits and the gain code of a carrier off. -/
def Table.empty : Table := List.replicate 59 (0, 0)

def Load.reset : Load :=
  { rxTable := Table.empty, armed := none, armedSince := 0, ident := 0, attempts := 0, replied := false,
    waiting := none, txTable := Table.empty, toApply := none, applied := none, override := none, lastMargin := 0, sentMargin := 0 }

def Bringup.reset : Bringup :=
  { toSearch := none, caller := false, prbs := 0, rounds := 0, roundStart := 0, calling := false, capSeen := false,
    roleSeen := false, lastProgress := 0, assembledFar := false, lastHold := false, countdown := none,
    leaving := none }

def Partner.reset : Partner :=
  { node := 0, highB := 0, size := 1, offset := 0, bonded := false, minB := 0, role := 0, chan := 0, port := 0,
    image := 0, group := 0, fext := false, bondedLink := false }

def Train.reset : Train :=
  { secondHalf := false, phaseStart := 0, began := 0, fast := .f1, silentSince := none, answer := none, rxBegun := false,
    accepted := false, invalid := false, acceptedB := 0, acceptedCheck := 0, sentCheck := 0, txMinus := false,
    rxMinus := false, confirmed := false, rejoining := false, lastTable := 0, lastState := 0 }

def QuietSt.reset : QuietSt :=
  { mode := false, idleSince := 0, requested := none, txEnded := false, rxEnded := false, ending := false, phase := 0,
    refreshing := false, alert := none, heard := none, seenEnd := none }

def Wake.reset : Wake :=
  { armed := false, failed := 0, notMatching := 0, held := none, due := false, sending := none, fromSleep := false,
    falseSince := none, restoring := false, sleepItem := none, upItem := none, downItem := none }

def Quality.reset : Quality :=
  { counted := 0, clean := 0, corrected := 0, uncorrectable := 0, retransmitted := 0, delivered := 0, unsettled := 0,
    syncS := 0, syncMinus := 0, missed := 0, unarmed := 0, evmSum := 0,
    evmCount := 0, last := ⟨-32768, 0, 0, 0, 0, List.replicate 59 0xFF⟩ }

/-- Both scrambler registers stand at the seed of R174 (all ones) at the start of a codeword stream. The exit that led
here left no resume exchange open: a later resume message carries number 0 as valid (DEDUCED). -/
def Retry.reset : Retry :=
  { next := 0, expect := 0, retain := [], resend := [], kept := [], oldNext := 0, oldExpect := 0, valid := true,
    resumption := .complete, late := none, lm := [], packets := [], current := none, clock := 0, history := [],
    txScr := 0x7FFFFF, rxScr := 0x7FFFFF, ackOut := 0, partial' := [], origin := (0, 0), hunting := none, bad := [],
    posSeq := 0, rxFrame := 0, rxPos := 0, rxB := 0, merge := [], msgFrame := 0, inbox := [], arrived := [] }

def SnrSum.reset : SnrSum :=
  { errors := List.replicate 59 0, symbols := List.replicate 59 0 }

def NoiseSum.reset : NoiseSum :=
  { power := List.replicate 59 0, symbols := 0, periods := 0, nowPower := List.replicate 59 0, nowSymbols := 0, skip := true,
    begun := 0, calm := 0 }

def Air.reset : Air :=
  { line := [], bits := [], minus := false, late := false, call := none, callRef := false, waked := 0, residual := [],
    samples := [], delay := 0, offset := 0, aligned := false, frame := 0, symbol := 0, soft := [], used := 0,
    snr := SnrSum.reset, frames := 0, preEqFrames := 0, slip := 0, misses := 0, stepped := false, spectrum := [],
    ready := false,    noise := NoiseSum.reset }

def Chan.reset : Chan :=
  { link := .off, previous := .off, quarantined := false, stored := none, rx := Rx.reset, load := Load.reset,
    bring := Bringup.reset, partner := Partner.reset, train := Train.reset, quiet := QuietSt.reset,
    wake := Wake.reset, quality := Quality.reset, retry := Retry.reset, air := Air.reset }

def Transport.reset : Transport :=
  { ops := [], nextOp := 0, reqs := [], nextReq := 0, cache := [], sweep := 0, dedup := [], reports := [],
    messages := [], drains := [], failures := [], lastFrames := [] }

def Source.reset : Source :=
  { start := 0, count := 0, severe := false, sticky := false, total := 0, suppressed := 0, inst := 0xC000, messaged := none,
    deferred := none }

def Faults.reset : Faults :=
  { sources := [], reactions := [], acknowledged := [], quiesced := false, armed := [] }

/-- Nominal: cells 0 to 255, slices 0 to 15, comparator stem 0, zero trims. -/
def ChanUse.reset : ChanUse :=
  { trims := List.replicate 253 0, dac := BitVec.ofNat 288 (2 ^ 256 - 1), adc := 0xFFFF,
    comparators := List.replicate 18 0 }

def LaneUse.reset : LaneUse :=
  { trims := List.replicate 9 0, stems := [0, 1, 2, 3] }

def Calib.reset : Calib :=
  { sets := [], mirrored := 0, seqs := [], absent := (false, false), t := 0, stemPoint := none, channels := [], lanes := [],
    common := [0, 0], armed := false, highSince := none, spareSeen := 0, cornerSeen := 0, store := none, adopted := none }

def Telemetry.reset : Telemetry :=
  { vcore := none, vmin := 0, margin := none, temps := [], overruns := 0, violations := 0, corrections := 0,
    uncorrectable := 0, slack := [], since := 0 }

def Sched.reset : Sched :=
  { behind := [], counted := [], roles := [], unmeasured := false, scrub := none }

/-- The test access port in Test-Logic-Reset with IDCODE selected (R493), the key-digest field blank (R144). The
factory reference count and the die identifier are fused at production test; the spec gives no value. -/
def Tap.reset : Tap :=
  { ir := 0x01, boundary := 0, shifted := 0, width := 0, holding := false, drives := .device, key := 0, factory := 0, die := 0 }

/-- The machine in the reset state of Table 2.5, both reset inputs low. -/
def State.reset : State :=
  { pending := [], pins := Pins.reset, start := Start.reset, image := Image.reset, clock := Clock.reset,
    linkA := HostLink.reset, linkB := HostLink.reset, ringsA := PortRings.reset, ringsB := PortRings.reset,
    queues := [], chans := [], transport := Transport.reset, faults := Faults.reset, tasks := [],
    calib := Calib.reset, telemA := Telemetry.reset, telemB := Telemetry.reset, sched := Sched.reset, entry := none, exitHeld := false, tap := Tap.reset,
    fresh := 0, out := [] }

end Sys2Proof.Machine
end

