-- ==== Sys2Proof/Machine/Bits.lean ====
section
/-! DEFINITION. Bytes, little-endian fields, structures laid out by offset, and the cyclic redundancy checks. -/

namespace Sys2Proof.Machine

/-- n bytes of a value, least significant first (R7). -/
def le : Nat → Nat → Bytes
  | 0, _ => []
  | n + 1, v => BitVec.ofNat 8 v :: le n (v / 256)

/-- The value of bytes stored least significant first (R7). -/
def unLe : Bytes → Nat
  | [] => 0
  | b :: t => b.toNat + 256 * unLe t

/-- n zero bytes. -/
def zeros (n : Nat) : Bytes :=
  List.replicate n 0

/-- n bytes of a signed value in two's complement. -/
def leInt (n : Nat) (v : Int) : Bytes :=
  le n (v % (256 ^ n : Nat)).toNat

/-- The n-byte field at an offset of a structure. -/
def field (b : Bytes) (off n : Nat) : Nat :=
  unLe ((b.drop off).take n)

/-- The byte at an offset. -/
def byteAt (b : Bytes) (off : Nat) : Byte :=
  nth 0 b off

/-- The n-byte field at an offset, read as two's complement. -/
def fieldInt (b : Bytes) (off n : Nat) : Int :=
  let v := field b off n
  if v < 256 ^ n / 2 then (v : Int) else (v : Int) - (256 ^ n : Nat)

/-- n bytes at an offset. -/
def slice (b : Bytes) (off n : Nat) : Bytes :=
  (b.drop off).take n

/-- Are n bytes from an offset zero? -/
def zeroAt (b : Bytes) (off n : Nat) : Bool :=
  (slice b off n).all (· == 0)

/-- Cut or fill with zeros to n bytes. -/
def fit (n : Nat) (b : Bytes) : Bytes :=
  b.take n ++ zeros (n - b.length)

/-- Bits [hi:lo] of a number. -/
def bits (v hi lo : Nat) : Nat :=
  (v >>> lo) % 2 ^ (hi + 1 - lo)

/-- 1 for true. -/
def bit (b : Bool) : Nat :=
  if b then 1 else 0

/-- A number from its bits, bit 0 first. -/
def ofBits : List Bool → Nat
  | [] => 0
  | b :: t => bit b + 2 * ofBits t

/-- The n low bits of a number, bit 0 first. -/
def toBits : Nat → Nat → List Bool
  | 0, _ => []
  | n + 1, v => (v % 2 == 1) :: toBits n (v / 2)

/-- Bytes as bits, bit 0 of each byte first (R8). -/
def bytesToBits (b : Bytes) : List Bool :=
  b.flatMap fun x => toBits 8 x.toNat

/-- Bits as bytes, for a whole number of bytes. -/
def bitsToBytes : Nat → List Bool → Bytes
  | 0, _ => []
  | n + 1, l => BitVec.ofNat 8 (ofBits (l.take 8)) :: bitsToBytes n (l.drop 8)

/-- Shift a bit-reflected check register by n bits. -/
def crcShift (poly : Nat) : Nat → Nat → Nat
  | 0, c => c
  | n + 1, c => crcShift poly n (if c % 2 = 1 then (c >>> 1) ^^^ poly else c >>> 1)

/-- CRC-32C (R135): polynomial 0x1EDC_6F41 bit-reflected, register and result inverted. -/
def crc32c (b : Bytes) : Nat :=
  (b.foldl (fun c x => crcShift 0x82F63B78 8 (c ^^^ x.toNat)) 0xFFFFFFFF) ^^^ 0xFFFFFFFF

/-- Shift a check register that is not reflected by n bits. -/
def crcShiftUp (poly width : Nat) : Nat → Nat → Nat
  | 0, c => c
  | n + 1, c =>
    crcShiftUp poly width n
      (if c.testBit (width - 1) then ((c <<< 1) ^^^ poly) % 2 ^ width else (c <<< 1) % 2 ^ width)

/-- Ceiling division. -/
def ceilDiv (a b : Nat) : Nat :=
  (a + b - 1) / b

/-- Round to the nearest whole, half away from zero. -/
def roundDiv (num : Int) (den : Nat) : Int :=
  if 0 ≤ num then (2 * num + den) / (2 * den) else -((-2 * num + den) / (2 * den))

end Sys2Proof.Machine
end

