-- ==== Sys2Proof/Machine/Blocks.lean ====
section
/-! DEFINITION. The blocks of the host lanes: sync headers and types (R280, R282), the lane scrambler (R281), rows and ALIGN rows
(R282a, R283), inverted pairs (R284), and frames as blocks (R286). -/

namespace Sys2Proof.Machine

/-! ### One block (R280) -/

/-- A block as read: a data block's 8 bytes, a control block's type and content, or an invalid sync header. -/
inductive Block where
  | data (b : Bytes)
  | control (type : Nat) (content : Bytes)
  | invalid
  deriving DecidableEq, Repr

/-- The 66 bits of a block, the sync header in bits 1 and 0, payload byte k from bit 8k + 2. -/
def blockWord (header : Nat) (payload : Bytes) : BitVec 66 :=
  BitVec.ofNat 66 (header + 4 * unLe (fit 8 payload))

def dataWord (b : Bytes) : BitVec 66 :=
  blockWord 1 b

def controlWord (type : Nat) (content : Bytes) : BitVec 66 :=
  blockWord 2 (le 1 type ++ fit 7 content)

/-- The types of Table 13.2. -/
def typeIdle : Nat := 0x1E
def typeTrain : Nat := 0x33
def typeAlign : Nat := 0x4B
def typeLink : Nat := 0x55
def typeStart : Nat := 0x78
def typeEnd : Nat := 0x87

def readBlock (w : BitVec 66) : Block :=
  let payload := le 8 (w.toNat / 4)
  if w.toNat % 4 = 1 then .data payload
  else if w.toNat % 4 = 2 then .control (field payload 0 1) (payload.drop 1)
  else .invalid

/-- A lane loses block lock when 16 of 64 consecutive sync headers are invalid (R282). -/
def lockLost (headers : List (BitVec 2)) : Bool :=
  decide (16 ≤ (headers.take 64).countP fun h => h == 0 || h == 3)

/-! ### The scrambler of a lane (R281) -/

/-- The bits sent 39 and 58 places before the next one: bit k - 1 of the history is the one k places before. -/
def lanePast (h : BitVec 58) : Bool :=
  h.getLsbD 38 ^^ h.getLsbD 57

def lanePush (h : BitVec 58) (b : Bool) : BitVec 58 :=
  h <<< 1 ||| BitVec.ofNat 58 (bit b)

/-- Scramble bits after a history. -/
def scrambleBits : List Bool → BitVec 58 → List Bool × BitVec 58
  | [], h => ([], h)
  | d :: t, h =>
    let b := d ^^ lanePast h
    let r := scrambleBits t (lanePush h b)
    (b :: r.1, r.2)

/-- Descramble received bits after the bits received before them. -/
def descrambleBits : List Bool → BitVec 58 → List Bool
  | [], _ => []
  | b :: t, h => (b ^^ lanePast h) :: descrambleBits t (lanePush h b)

/-- A block on a lane: its payload scrambled, its sync header not. -/
def scrambleWord (w : BitVec 66) (h : BitVec 58) : BitVec 66 × BitVec 58 :=
  let r := scrambleBits (toBits 64 (w.toNat / 4)) h
  (BitVec.ofNat 66 (w.toNat % 4 + 4 * ofBits r.1), r.2)

/-- A received block descrambled; the pair may be inverted (R284). -/
def descrambleWord (x : LaneBlock) (inverted : Bool) : BitVec 66 :=
  let w := if inverted then ~~~x.word else x.word
  let h := if inverted then ~~~x.before else x.before
  BitVec.ofNat 66 (w.toNat % 4 + 4 * ofBits (descrambleBits (toBits 64 (w.toNat / 4)) h))

/-! ### ALIGN blocks (R283, R284) -/

def alignWord (lane lanes : Nat) : BitVec 66 :=
  controlWord typeAlign (le 1 lane ++ le 1 lanes)

/-- The logical lane number of an ALIGN block on a port of n lanes. -/
def readAlign (n : Nat) (w : BitVec 66) : Option Nat :=
  match readBlock w with
  | .control t b =>
    if t == typeAlign && decide (field b 0 1 < n) && field b 1 1 == n && zeroAt b 2 5 then some (field b 0 1) else none
  | _ => none

/-- The logical lanes that a row of ALIGN blocks carries, as physical and logical numbers, read with the polarity known of each pair;
a lane without block lock reads as nothing. -/
def readRow (n : Nat) (inverted : Nat → Bool) (row : List LaneBlock) : List (Nat × Nat) :=
  (row.zip (List.range n)).filterMap fun e =>
    if 64 ≤ e.1.run then (readAlign n (descrambleWord e.1 (inverted e.2))).map fun l => (e.2, l) else none

/-- The lanes whose pair is seen to be inverted: their block reads as an ALIGN block only when it is inverted. -/
def invertedLanes (n : Nat) (row : List LaneBlock) : List Nat :=
  (row.zip (List.range n)).filterMap fun e =>
    if (readAlign n (descrambleWord e.1 false)).isNone && (readAlign n (descrambleWord e.1 true)).isSome then some e.2 else none

/-! ### Frames and link blocks (Tables 13.3, 13.5; R285, R286) -/

/-- A frame of a body with its pad bytes, as blocks. -/
def frameWords (kind : Nat) (seq : BitVec 12) (body : Bytes) : List (BitVec 66) :=
  let words := ceilDiv body.length 8
  let pad := 8 * words - body.length
  let padded := body ++ zeros pad
  let start := le 1 kind ++ le 2 seq.toNat ++ le 2 words ++ zeros 2
  [controlWord typeStart start] ++ (List.range words).map (fun i => dataWord (slice padded (8 * i) 8)) ++
  [controlWord typeEnd (le 4 (crc32c (start ++ padded)) ++ le 1 pad ++ zeros 2)]

/-- A LINK block with its check. -/
def linkWord (subtype : Nat) (value count : BitVec 16) : BitVec 66 :=
  let b := le 1 subtype ++ le 2 value.toNat ++ le 2 count.toNat
  controlWord typeLink (b ++ le 2 (crc32c b % 65536))

/-- A link frame as received (Table 13.5): the seven content bytes of START, the body bytes, the seven content bytes of
END, and whether a block error fell inside it (R282). -/
structure RawFrame where
  start : Bytes
  body : Bytes
  ending : Bytes
  blockError : Bool
  deriving DecidableEq, Repr

/-- The blocks after a START: inside a frame every block but data and END is a block error; a frame without END is not whole. -/
def readInside : List (BitVec 66) → RawFrame → RawFrame
  | [], f => { f with blockError := true }
  | w :: t, f =>
    match readBlock w with
    | .data b => readInside t { f with body := f.body ++ b }
    | .control ty b => if ty == typeEnd then { f with ending := b } else readInside t { f with blockError := true }
    | .invalid => readInside t { f with blockError := true }

/-- The frame that a stream of descrambled blocks brings; blocks that do not begin one are block errors outside a frame. -/
def readFrame : List (BitVec 66) → Option RawFrame
  | [] => none
  | w :: t =>
    match readBlock w with
    | .control ty b => if ty == typeStart then some (readInside t ⟨b, [], [], false⟩) else none
    | _ => none

/-! ### Rows (R282a, R283) -/

/-- One row on the lanes: each block through its lane's scrambler. -/
def HostLink.putRow (l : HostLink) (row : List (BitVec 66)) : HostLink :=
  let r := (row.zip (List.range row.length)).map fun e => scrambleWord e.1 (nth 0 l.scramblers e.2)
  { l with scramblers := r.map (·.2), wire := l.wire ++ [r.map (·.1)] }

/-- Rows between ALIGN rows. -/
def HostLink.alignEvery (l : HostLink) : Nat :=
  match l.phase with
  | .t1 | .t2 | .t3 => 64
  | _ => 16384

/-- A row of n blocks, after an ALIGN row when one is due. -/
def HostLink.sendRow (n : Nat) (l : HostLink) (row : List (BitVec 66)) : HostLink :=
  let l1 := if l.alignEvery ≤ l.rows then
      { l.putRow ((List.range n).map fun i => alignWord i n) with rows := 0 }
    else l
  { l1.putRow row with rows := l1.rows + 1 }

/-- Send the blocks of the stream in rows of n, the last one filled with IDLE; k bounds the rows. -/
def HostLink.sendRows (n : Nat) : Nat → HostLink → HostLink
  | 0, l => l
  | k + 1, l =>
    if l.stream.isEmpty then l
    else
      let row := l.stream.take n
      let full := row ++ List.replicate (n - row.length) (controlWord typeIdle [])
      HostLink.sendRows n k ({ l with stream := l.stream.drop n }.sendRow n full)

/-- The stream goes out on the lanes. -/
def HostLink.lay (n : Nat) (l : HostLink) : HostLink :=
  HostLink.sendRows n l.stream.length l

/-- Put blocks on the stream. -/
def HostLink.putBlocks (l : HostLink) (b : List (BitVec 66)) : HostLink :=
  { l with stream := l.stream ++ b }

end Sys2Proof.Machine
end

