-- ==== Sys2Proof/Machine/Ops.lean ====
section
/-! DEFINITION. Named operations over the state: ports, queues, channels, image parameters, the time base, and the host
link's sending side. -/

namespace Sys2Proof.Machine

/-! ### Parts of the state -/

def State.link (s : State) : Port → HostLink
  | .a => s.linkA
  | .b => s.linkB

def State.setLink (s : State) (p : Port) (l : HostLink) : State :=
  match p with
  | .a => { s with linkA := l }
  | .b => { s with linkB := l }

def State.modLink (s : State) (p : Port) (f : HostLink → HostLink) : State :=
  s.setLink p (f (s.link p))

def State.rings (s : State) : Port → PortRings
  | .a => s.ringsA
  | .b => s.ringsB

def State.setRings (s : State) (p : Port) (r : PortRings) : State :=
  match p with
  | .a => { s with ringsA := r }
  | .b => { s with ringsB := r }

def State.modRings (s : State) (p : Port) (f : PortRings → PortRings) : State :=
  s.setRings p (f (s.rings p))

/-- The order of queues in per-queue values (R474): 512 × port + queue. -/
def queueKey (p : Port) (q : Fin 512) : Nat :=
  512 * p.num + q.val

def State.queue (s : State) (p : Port) (q : Fin 512) : Queue :=
  Tab.get Queue.reset s.queues (queueKey p q)

def State.setQueue (s : State) (p : Port) (q : Fin 512) (x : Queue) : State :=
  { s with queues := Tab.set s.queues (queueKey p q) x }

def State.modQueue (s : State) (p : Port) (q : Fin 512) (f : Queue → Queue) : State :=
  s.setQueue p q (f (s.queue p q))

def State.chan (s : State) (c : ChanId) : Chan :=
  Tab.get Chan.reset s.chans c.val

def State.setChan (s : State) (c : ChanId) (x : Chan) : State :=
  { s with chans := Tab.set s.chans c.val x }

def State.modChan (s : State) (c : ChanId) (f : Chan → Chan) : State :=
  s.setChan c (f (s.chan c))

/-- Every channel in order, for whole-device sweeps. -/
def allChans : List ChanId :=
  List.finRange 64

def bothPorts : List Port :=
  [.a, .b]

/-- The queue of a queue key. -/
def keyQueue (k : Nat) : Port × Fin 512 :=
  (if k < 512 then .a else .b, Fin.ofNat 512 (k % 512))

def State.say (s : State) (o : Out) : State :=
  { s with out := s.out ++ [o] }

/-! ### Parameters of the image -/

/-- Element i of the parameter with an ID (R138, R464, R474). -/
def State.elem (s : State) (id i : Nat) : Nat :=
  nth 0 (Tab.get [] s.image.params id) i

def State.par (s : State) (id : Nat) : Nat :=
  s.elem id 0

/-- A channel's assigned port, CH.001 (R21). -/
def State.portOf (s : State) (c : ChanId) : Port :=
  if s.elem 0x0301 c = 1 then .b else .a

/-- One use of the free counter. -/
def State.useFresh (s : State) : State :=
  { s with fresh := s.fresh + 1 }

/-! ### Straps and identity -/

def State.strap (s : State) (i : Nat) : Bool :=
  s.start.straps.getLsbD i

/-- PORTEN of a port (Table 2.6, Table 5.4). -/
def State.enabled (s : State) : Port → Bool
  | .a => s.strap 5
  | .b => s.strap 6

/-- Lanes in use (R276, Table 13.1). -/
def State.lanes (s : State) (p : Port) : Nat :=
  if s.strap (match p with | .a => 2 | .b => 3) then 8 else 16

/-- The node identity from IDSEL3..0 (R42); the codes are held in the order IDSEL0..3, PTSEL0..2. -/
def State.node (s : State) : Nat :=
  nth 0 s.start.codes 0 + 16 * nth 0 s.start.codes 1 + 256 * nth 0 s.start.codes 2 + 4096 * nth 0 s.start.codes 3

/-- The default partition from PTSEL2..0 (R42). -/
def State.partition (s : State) : Nat :=
  nth 0 s.start.codes 4 + 16 * nth 0 s.start.codes 5 + 256 * nth 0 s.start.codes 6

/-- A queue's partition: TP.000, or the default where it is 0xFFFF (R477). -/
def State.queuePartition (s : State) (p : Port) (q : Fin 512) : Nat :=
  let v := s.elem 0x0700 (queueKey p q)
  if v = 0xFFFF then s.partition else v

/-! ### The time base -/

/-- The schedule runs and ticks arrive (R80, R90). -/
def State.runs (s : State) : Bool :=
  s.start.stage == .running && !s.clock.interrupted

/-- Superframes from an earlier count, modulo 2^48 (R18). -/
def State.since (s : State) (t : Sf) : Nat :=
  (s.clock.sf - t).toNat

/-- n superframes of symbols have run since the symbol count t (R80): the timers that begin inside a superframe. -/
def State.passedFrom (s : State) (t n : Nat) : Bool :=
  decide (t + 256 * n ≤ s.clock.symbols)

/-- The eight bytes of a stamp-carrying record header (Table 14.11), stamped now (R111). -/
def State.header (s : State) (kind units : Nat) : Bytes :=
  le 1 (kind + 32 * (units - 1)) ++ le 1 s.clock.slot.toNat ++ le 6 s.clock.sf.toNat

/-! ### The compiled lists (R136, R137) -/

/-- The descriptor of an instance in a slot. -/
def State.slotDesc (s : State) (inst slot : Nat) : Option SlotDesc :=
  s.image.slots[256 * inst + slot]?

/-- The step words of a descriptor: code, channel, repeat. -/
def State.stepWords (s : State) (d : SlotDesc) : List (Nat × Nat × Nat) :=
  (s.image.pool.drop d.first).take d.count

/-- May an instance run background work of a class now (R127, R128)? Only in a clearing of that class. -/
def State.mayRun (s : State) (inst cls : Nat) : Bool :=
  match s.slotDesc inst s.clock.slot.toNat with
  | some d => d.clearing && d.cls == cls
  | none => true

/-! ### Sending on a host link (R287 to R294) -/

/-- Credits of class 1, 2 or 3 (list position class − 1) not yet consumed (R294). -/
def HostLink.credit (l : HostLink) (i : Nat) : Nat :=
  (nth 0 l.granted i - nth 0 l.consumed i).toNat

/-- Cost in posted-header, posted-data and non-posted credits (Table 13.9) of a frame kind and its data length. -/
def frameCost (kind data : Nat) : Nat × Nat × Nat :=
  if kind = 1 then (0, 0, 1)
  else if kind = 3 then (1, ceilDiv data 64, 0)
  else (1, 0, 0)

/-- Bytes a frame takes in the replay buffer: START, END and its body in words of 8 bytes (R286, R288). -/
def frameSize (body : Bytes) : Nat :=
  16 + 8 * ceilDiv body.length 8

def HostLink.used (l : HostLink) : Nat :=
  (l.replay.map fun f => frameSize f.body).sum

/-- May a sequenced frame be sent now: link up, window of 2,048 frames, 64 KiB of replay buffer, credits. -/
def HostLink.maySend (l : HostLink) (kind : Nat) (body : Bytes) (data : Nat) : Bool :=
  let c := frameCost kind data
  l.phase == .up && !l.clockStopped && l.replay.length < 2048 && l.used + frameSize body ≤ 65536 &&
  c.1 ≤ l.credit 0 && c.2.1 ≤ l.credit 1 && c.2.2 ≤ l.credit 2

/-- Send a sequenced frame: it takes the next number, consumes credits and stays in the replay buffer (R287, R294). -/
def HostLink.sendFrame (l : HostLink) (kind : Nat) (body : Bytes) (data : Nat) : HostLink :=
  let c := frameCost kind data
  { l with
    nextSeq := l.nextSeq + 1
    stream := l.stream ++ frameWords kind l.nextSeq body
    replay := l.replay ++ [⟨kind, l.nextSeq, body⟩]
    consumed := [nth 0 l.consumed 0 + BitVec.ofNat 16 c.1, nth 0 l.consumed 1 + BitVec.ofNat 16 c.2.1,
      nth 0 l.consumed 2 + BitVec.ofNat 16 c.2.2] }

def HostLink.tagBusy (l : HostLink) (t : Nat) : Bool :=
  l.reads.any (fun r => r.tag.toNat == t) || l.heldTags.any (fun h => h.1.toNat == t)

/-- The lowest free tag among t, t + 1, …: n tags looked at. -/
def HostLink.freeTag (l : HostLink) : Nat → Nat → Option Nat
  | 0, _ => none
  | n + 1, t => if l.tagBusy t then l.freeTag n (t + 1) else some t

def readBody (tag len : Nat) (addr : BitVec 64) : Bytes :=
  le 2 tag ++ le 2 len ++ zeros 4 ++ le 8 addr.toNat

def writeBody (addr : BitVec 64) (data : Bytes) : Bytes :=
  le 2 data.length ++ zeros 6 ++ le 8 addr.toNat ++ data

/-- Send what waits, if credits, buffer and (for a read) a tag allow; a read is issued at symbol count t. -/
def HostLink.trySend (t : Nat) (l : HostLink) : Wait → Option HostLink
  | .write addr data =>
    let body := writeBody addr data
    if l.maySend 3 body data.length then some (l.sendFrame 3 body data.length) else none
  | .read addr len why =>
    match l.freeTag 1024 0 with
    | none => none
    | some tag =>
      let body := readBody tag len addr
      if l.maySend 1 body 0 then
        some { l.sendFrame 1 body 0 with
          reads := l.reads ++ [⟨BitVec.ofNat 16 tag, len, t, why⟩] }
      else none
  | .event body => if l.maySend 7 body 0 then some (l.sendFrame 7 body 0) else none
  | .reply body => if l.maySend 6 body 0 then some (l.sendFrame 6 body 0) else none

/-- Send waiting transactions in order until one cannot go. -/
def HostLink.pumpList (t : Nat) : List Wait → HostLink → HostLink
  | [], l => { l with waiting := [] }
  | w :: ws, l =>
    match l.trySend t w with
    | some l' => HostLink.pumpList t ws l'
    | none => { l with waiting := w :: ws }

def HostLink.pump (l : HostLink) (t : Nat) : HostLink :=
  HostLink.pumpList t l.waiting l

/-- Hand a transaction to the link: it goes behind those already waiting (R302 orders writes by sequence number). -/
def HostLink.send (l : HostLink) (t : Nat) (w : Wait) : HostLink :=
  { l with waiting := l.waiting ++ [w] }.pump t

def State.pump (s : State) (p : Port) : State :=
  s.modLink p fun l => (l.pump s.clock.symbols).lay (s.lanes p)

def State.sendHost (s : State) (p : Port) (w : Wait) : State :=
  s.modLink p fun l => (l.send s.clock.symbols w).lay (s.lanes p)

/-- Cut an access at the 4 KiB boundaries of host address (Tables 13.11, 13.13); n bounds the pieces. -/
def pieces : Nat → BitVec 64 → Nat → List (BitVec 64 × Nat)
  | 0, _, _ => []
  | n + 1, a, len =>
    if len = 0 then []
    else
      let k := min len (4096 - a.toNat % 4096)
      (a, k) :: pieces n (a + BitVec.ofNat 64 k) (len - k)

/-- Write consecutive pieces of data. -/
def writePieces (p : Port) : List (BitVec 64 × Nat) → Bytes → State → State
  | [], _, s => s
  | (a, k) :: t, data, s => writePieces p t (data.drop k) (s.sendHost p (.write a (data.take k)))

/-- A write to host memory, in frames that cross no 4 KiB boundary. -/
def State.hostWrite (s : State) (p : Port) (addr : BitVec 64) (data : Bytes) : State :=
  writePieces p (pieces (data.length / 4096 + 2) addr data.length) data s

/-- A read of host memory that crosses no 4 KiB boundary. -/
def State.hostRead (s : State) (p : Port) (addr : BitVec 64) (len : Nat) (why : Purpose) : State :=
  s.sendHost p (.read addr len why)

/-- A fence read (R305). -/
def State.fence (s : State) (p : Port) (why : Purpose) : State :=
  s.sendHost p (.read 0 0 why)

/-! ### Receiving sequenced frames (R289 to R291) -/

/-- What becomes of a good frame by its sequence number. -/
inductive Arrival where
  | accepted
  | duplicate
  | later
  deriving DecidableEq, Repr

/-- Sequence numbers compare modulo 4,096 (R287). -/
def HostLink.arrival (l : HostLink) (seq : BitVec 12) : Arrival :=
  let d := (seq - l.expected).toNat
  if d = 0 then .accepted else if d < 2048 then .later else .duplicate

/-- Send a LINK control block (Table 13.3). -/
def State.sayLink (s : State) (p : Port) (subtype : Nat) (value count : BitVec 16) : State :=
  (s.modLink p fun l => (l.putBlocks [linkWord subtype value count]).lay (s.lanes p)).say (.link p subtype value count)

/-- The ACK of the last sequence accepted (R291); before the first frame of a fresh training it is 0xFFF (R289). -/
def State.sayAck (s : State) (p : Port) : State :=
  s.sayLink p 1 (((s.link p).expected - 1).zeroExtend 16) 0

/-- One NAK until a frame is accepted (R289). -/
def State.sayNak (s : State) (p : Port) : State :=
  if (s.link p).nakSent then s
  else (s.modLink p fun l => { l with nakSent := true }).sayLink p 2 (((s.link p).expected - 1).zeroExtend 16) 0

/-- The link layer takes frames of a port: its link is up and its own clock runs. -/
def State.linkUp (s : State) (p : Port) : Bool :=
  (s.link p).phase == .up && !(s.link p).clockStopped

/-- Take a good frame at the link layer: what became of it, and the state after the ACK or NAK it causes. -/
def State.acceptFrame (s : State) (p : Port) (seq : BitVec 12) : Arrival × State :=
  match (s.link p).arrival seq with
  | .accepted =>
    (.accepted, (s.modLink p fun l => { l with expected := l.expected + 1, nakSent := false }).sayAck p)
  | .duplicate => (.duplicate, s.sayAck p)
  | .later => (.later, s.sayNak p)

/-- Grant doorbell credits of the receive buffer anew (R295): the total rises, and a CREDIT block goes out where the link is up. -/
def State.grantDoorbells (s : State) (p : Port) (k : Nat) : State :=
  let n := (s.link p).doorbells + BitVec.ofNat 16 k
  let s1 := s.modLink p fun l => { l with doorbells := n }
  if s.linkUp p then s1.sayLink p 3 0 n else s1

/-- Return the credit of a doorbell or anchor frame taken from the receive buffer (R295); while the port's clock stands its credits
hold still (R308). -/
def State.returnCredit (s : State) (p : Port) : State :=
  if (s.link p).clockStopped then s.modLink p fun l => { l with owed := l.owed + 1 } else s.grantDoorbells p 1

end Sys2Proof.Machine
end

