-- ==== Sys2Proof/Machine/Records.lean ====
section
/-! DEFINITION. Records and the fault sources: how a record enters its port's buffer, and how an occurrence counts, is
reported, and calls the reaction. The two meet: a record dropped at a full buffer is an occurrence of its own. -/

namespace Sys2Proof.Machine

/-! ### Sources, kinds, scopes (R417, R418) -/

/-- The kind of a source; none for a number that names no source (Tables 18.1, 18.2). -/
def sourceKind (src : Nat) : Option Nat :=
  if src < 0x380 then some (src / 64)
  else if src < 0x390 then some (14 + src % 8)
  else if src = 0x390 then some 22
  else if src = 0x391 then some 23
  else if src < 0x394 then some 24
  else if src < 0x396 then some 25
  else if src = 0x396 then some 26
  else if src = 0x397 then some 27
  else if src = 0x398 then some 28
  else if src < 0x39B then some 29
  else none

/-- Source of a channel kind (0 to 13) on a channel. -/
def chanSource (k : Nat) (c : ChanId) : Nat :=
  64 * k + c.val

/-- Source of a queue kind (14 to 21) on a port. -/
def queueSource (k : Nat) (p : Port) : Nat :=
  0x380 + 8 * p.num + (k - 14)

/-- The instance word of Table 18.4. -/
def instWord : Option Scope → BitVec 16
  | some (.channel c) => BitVec.ofNat 16 c.val
  | some (.queue p q) => BitVec.ofNat 16 (0x4000 + queueKey p q)
  | some .device => 0x8000
  | none => 0xC000

def State.source (s : State) (src : Nat) : Source :=
  Tab.get Source.reset s.faults.sources src

def State.setSource (s : State) (src : Nat) (x : Source) : State :=
  { s with faults := { s.faults with sources := Tab.set s.faults.sources src x } }

/-- Policy of a kind: threshold, window, action (R481), and coded-message mode (R422). -/
def State.threshold (s : State) (k : Nat) : Nat := s.par (0x0A00 + 3 * k)
def State.window (s : State) (k : Nat) : Nat := s.par (0x0A01 + 3 * k)
def State.escalates (s : State) (k : Nat) : Bool := s.par (0x0A02 + 3 * k) == 1
def State.coded (s : State) (k : Nat) : Bool := (s.par 0x0A5D).testBit k

/-- Grace time G of a scope in symbols (R482). -/
def State.grace (s : State) : Scope → Nat
  | .channel _ => s.par 0x0A5A
  | .queue _ _ => s.par 0x0A5B
  | .device => s.par 0x0A5C

/-! ### Reaction states (Table 18.7) -/

def State.reaction (s : State) (i : Scope) : Option Reaction :=
  s.faults.reactions.find? fun r => r.scope == i

/-- Replace an instance's reaction state; none is idle. -/
def State.setReaction (s : State) (i : Scope) (r : Option Reaction) : State :=
  let rest := s.faults.reactions.filter fun x => !(x.scope == i)
  { s with faults := { s.faults with reactions := (match r with | none => rest | some x => rest ++ [x]) } }

def Reaction.escalated (r : Reaction) : Bool :=
  r.expires.isNone

/-- Is a source the lead or merged? -/
def Reaction.holds (r : Reaction) (src : Nat) : Bool :=
  r.lead == src || r.merged.contains src

/-- Forget the acknowledged episode of an instance (R428): a new one has begun. -/
def State.forgetEpisode (s : State) (i : Scope) : State :=
  { s with faults := { s.faults with acknowledged := s.faults.acknowledged.filter fun a => !(a.1 == i) } }

/-- A new fault at an instance: a timer starts, or the fault merges (Table 18.7, R430). -/
def State.reactFault (s : State) (i : Scope) (src : Nat) : State :=
  match s.reaction i with
  | none => (s.forgetEpisode i).setReaction i (some ⟨i, some (s.clock.symbols + s.grace i), src, []⟩)
  | some r => s.setReaction i (some { r with merged := r.merged ++ [src] })

/-! ### Records into the port's buffer (R329 to R334) -/

/-- A record produced: its port, kind, and bytes after the common header. -/
structure NewRec where
  port : Port
  kind : Nat
  body : Bytes
  /-- ring 0 whatever the routing (R330, Table 18.3) -/
  ringZero : Bool
  deriving DecidableEq, Repr

/-- Units of a record of n bytes. -/
def unitsOf (body : Bytes) : Nat :=
  ceilDiv (body.length + 8) 32

def bufferUnits (b : List Rec) : Nat :=
  (b.map fun r => r.bytes.length / 32).sum

/-- The record ring of a kind (R330). -/
def Anchor.ringOf (a : Anchor) (n : NewRec) : Nat :=
  if n.ringZero then 0 else nth 0 a.routing n.kind

/-- A start or discard record, which is never dropped (R333). -/
def keptKind (kind : Nat) : Bool :=
  kind == 1 || kind == 0x0B

/-- Put a produced record into its port's buffer; false: it was dropped at a full buffer (R333). A record for a port
without an anchor is dropped without count (R334), which answers true. -/
def State.pushRecord (s : State) (n : NewRec) : Bool × State :=
  let r := s.rings n.port
  match r.anchor with
  | none => (true, s)
  | some a =>
    let rec' : Rec := ⟨n.kind, a.ringOf n, fit (32 * unitsOf n.body) (s.header n.kind (unitsOf n.body) ++ n.body)⟩
    if r.outside.isEmpty && bufferUnits r.buffer + unitsOf n.body ≤ 64 then
      (true, s.setRings n.port { r with buffer := r.buffer ++ [rec'] })
    else if keptKind n.kind then
      (true, s.setRings n.port { r with outside := r.outside ++ [rec'] })
    else
      (false, s.setRings n.port { r with lost := if r.lost = BitVec.allOnes 32 then r.lost else r.lost + 1 })

/-! ### Occurrences (R420 to R425) -/

/-- The ports that get a source's records (R425). -/
def State.reportPorts (s : State) (src : Nat) : List Port :=
  if src < 0x380 then [s.portOf (Fin.ofNat 64 (src % 64))]
  else if src < 0x388 then [.a]
  else if src < 0x390 then [.b]
  else bothPorts

/-- The lead source shown for an instance (Table 18.4); 0xFFFF when none. -/
def State.leadOf (s : State) (i : Option Scope) : Nat :=
  match i.bind s.reaction with
  | some r => r.lead
  | none => 0xFFFF

/-- A fault status record's bytes after its header (Table 18.4), of the state as it stands. -/
def State.statusBody (s : State) (src event : Nat) (i : Option Scope) (lead : Nat) : Bytes :=
  let x := s.source src
  let k := (sourceKind src).getD 0xFF
  let r := i.bind s.reaction
  let running := match r with | some y => !y.escalated | none => false
  let esc := match r with | some y => y.escalated | none => false
  le 2 src ++ le 1 k ++ le 1 event ++ le 2 (instWord i).toNat ++
  le 1 (bit x.sticky + 2 * bit x.severe + 4 * bit running + 8 * bit esc + 16 * bit (x.total == 2 ^ 32 - 1)) ++
  le 1 (s.threshold k) ++ le 2 x.count ++ le 2 (s.window k) ++ le 4 x.total ++ le 4 x.start.toNat ++ le 2 lead ++
  zeros 2

/-- The status records of an event, one for each port that gets them. -/
def State.statusRecs (s : State) (src event : Nat) (i : Option Scope) (lead : Nat) : List NewRec :=
  (s.reportPorts src).map fun p => ⟨p, 0x09, s.statusBody src event i lead, 1 ≤ s.par 0x0A5F⟩

/-- A fault message record's bytes after its header (Table 18.5). -/
def messageBody (src : Nat) (severe merged : Bool) (inst : BitVec 16) (suppressed : Nat) (addr : Bytes) : Bytes :=
  le 2 src ++ le 1 ((sourceKind src).getD 0xFF) ++ le 1 (bit severe + 2 * bit merged) ++ le 2 inst.toNat ++
  le 2 (min suppressed 0xFFFF) ++ fit 16 addr

def State.messageRecs (s : State) (src : Nat) (severe merged : Bool) (inst : BitVec 16) (suppressed : Nat)
    (addr : Bytes) : List NewRec :=
  (s.reportPorts src).map fun p => ⟨p, 0x0A, messageBody src severe merged inst suppressed addr, s.par 0x0A5F == 2⟩

/-- Does a new fault of this source merge (R430)? -/
def State.merges (s : State) (k : Nat) (i : Option Scope) : Bool :=
  s.escalates k && (i.bind s.reaction).isSome

/-- Count an occurrence at its source (R420): the source's values after it, and whether it made the source severe. -/
def Source.tally (x : Source) (t : Sf) (n w : Nat) (inst : BitVec 16) : Bool × Source :=
  let x := { x with total := min (x.total + 1) (2 ^ 32 - 1) }
  if x.severe then (false, x)
  else
    let x := if x.count = 0 || w ≤ (t - x.start).toNat then { x with start := t, count := 0 } else x
    let x := { x with count := x.count + 1 }
    if n ≤ x.count then (true, { x with severe := true, sticky := true, inst := inst }) else (false, x)

/-- Message bookkeeping of an occurrence in coded-message mode (R424): whether it is messaged now, with what
suppressed count, and the source after it. -/
def Source.message (x : Source) (t : Sf) (severe merged : Bool) (inst : BitVec 16) (addr : Bytes) :
    Option Nat × Source :=
  if x.messaged == some t then
    if severe then (none, { x with deferred := some (inst, merged, addr) })
    else (none, { x with suppressed := x.suppressed + 1 })
  else if x.deferred.isSome then (none, { x with suppressed := x.suppressed + 1 })
  else (some x.suppressed, { x with messaged := some t, suppressed := 0 })

/-- Count an occurrence (R420), react (R426, but for source 0x398, whose escalation is `State.tableError`'s), and say
which records it makes (R423, R424). -/
def State.countOne (s : State) (src : Nat) (i : Option Scope) (addr : Bytes) : List NewRec × State :=
  let k := (sourceKind src).getD 0
  let r := (s.source src).tally s.clock.sf (s.threshold k) (s.window k) (instWord i)
  let merged := r.1 && s.merges k i
  let s1 := s.setSource src r.2
  let s2 := if r.1 && s.escalates k && src != 0x398 then
      (match i with | some x => s1.reactFault x src | none => s1) else s1
  let s3 := if r.1 then { s2 with pins := { s2.pins with errLow := true } } else s2
  if s.coded k then
    let m := (s3.source src).message s.clock.sf r.1 merged (instWord i) addr
    let s4 := s3.setSource src m.2
    match m.1 with
    | some n => (s4.messageRecs src r.1 merged (instWord i) n addr, s4)
    | none => ([], s4)
  else if r.1 then
    (s3.statusRecs src (if merged then 2 else 1) i (s3.leadOf i), s3)
  else ([], s3)

/-- Address of class H (Table 18.6). -/
def addrHost (p : Port) (cause kind : Nat) : Bytes :=
  le 1 p.num ++ le 1 cause ++ le 1 kind

/-- Produce records in order; each one dropped counts toward record loss of its port (R333), whose own records come
next. n bounds the records handled: a drop makes at most the records of one occurrence, and a source that is severe
makes none. -/
def produceList : Nat → List NewRec → State → State
  | 0, _, s => s
  | _ + 1, [], s => s
  | n + 1, x :: t, s =>
    let r := s.pushRecord x
    if r.1 then produceList n t r.2
    else
      let o := r.2.countOne (0x394 + x.port.num) (some .device) (addrHost x.port 4 x.kind)
      produceList n (t ++ o.1) o.2

/-- Produce records. -/
def State.produce (s : State) (l : List NewRec) : State :=
  produceList (4 * l.length + 64) l s

/-- An occurrence at a source: counted, reacted to, reported (R420 to R426). -/
def State.occur (s : State) (src : Nat) (i : Option Scope) (addr : Bytes) : State :=
  let r := s.countOne src i addr
  r.2.produce r.1

/-- n occurrences of one source, one after another. -/
def State.occurN : Nat → Nat → Option Scope → Bytes → State → State
  | 0, _, _, _, s => s
  | n + 1, src, i, addr, s => State.occurN n src i addr (s.occur src i addr)

def State.occurChan (s : State) (k : Nat) (c : ChanId) (addr : Bytes) : State :=
  s.occur (chanSource k c) (some (.channel c)) addr

def State.occurQueue (s : State) (k : Nat) (p : Port) (q : Fin 512) (addr : Bytes) : State :=
  s.occur (queueSource k p) (some (.queue p q)) addr

/-- A host-link error (R289, R290, R300): cause 1 bad frame, 2 frame not acted on, 3 read failed. -/
def State.hostLinkError (s : State) (p : Port) (cause kind : Nat) : State :=
  s.occur (0x392 + p.num) (some .device) (addrHost p cause kind)

/-- The deferred messages that fall due in a new superframe (R424), in ascending source number. -/
def deferredList : List (Nat × Source) → State → State
  | [], s => s
  | (src, _) :: t, s =>
    let x := s.source src
    match x.deferred with
    | some (inst, merged, addr) =>
      if x.messaged == some s.clock.sf then deferredList t s
      else
        let s1 := s.setSource src { x with deferred := none, messaged := some s.clock.sf, suppressed := 0 }
        deferredList t (s1.produce (s1.messageRecs src true merged inst x.suppressed addr))
    | none => deferredList t s

def State.sendDeferred (s : State) : State :=
  deferredList s.faults.sources s

/-- Any sticky bit set (R437)? -/
def State.anySticky (s : State) : Bool :=
  s.faults.sources.any fun e => e.2.sticky

/-- A record of one port, by kind; the kinds of ring 0 are those of R330. -/
def State.record (s : State) (p : Port) (kind : Nat) (body : Bytes) : State :=
  s.produce [⟨p, kind, body, kind == 1 || kind == 2 || kind == 6 || kind == 0x0B⟩]

end Sys2Proof.Machine
end

