-- ==== Sys2Proof/Machine/Operands.lean ====
section
/-! DEFINITION. The operand forms of the block: the 64-byte work items and their bodies (Tables 14.6, 14.8, 16.2, 17.2),
with every reserved field and encoding checked. -/

namespace Sys2Proof.Machine

/-- The fields of a transport item (Table 16.2). -/
structure TransportBody where
  kind : OpKind
  chan : ChanId
  chan2 : ChanId
  target : BitVec 16
  key : BitVec 32
  key2 : BitVec 32
  offset : BitVec 64
  addr : BitVec 64
  length : Nat
  array : BitVec 64
  fixity : Bool
  fenced : Bool
  swap : Bool
  operands : BitVec 64 × BitVec 64 × BitVec 64
  deriving DecidableEq, Repr

/-- A decoded item. -/
inductive ItemBody where
  | faultClear (first last : Nat)
  | faultAcknowledge (src : Nat)
  | calibrate (point : Nat) (store : Bool) (channels : BitVec 64) (ports : BitVec 2)
  | sound (c : ChanId) (mode : Nat)
  | dormant (k : DormantKind)
  | inject (checker port chan : Nat)
  | up (c : ChanId) (wake : Option (BitVec 16 × Bytes))
  | down (c : ChanId)
  | quiet (c : ChanId)
  | sleep (c : ChanId)
  | margin (c : ChanId) (m : Nat)
  | windowOpen (w : Nat)
  | windowRevoke (w gen : Nat)
  | pageReady (w gen : Nat) (offset : Nat) (code : Nat)
  | transport (b : TransportBody)
  | receive (addr : BitVec 64) (length : Nat) (fenced : Bool)
  | streamStart (lead : Nat) (reserve : BitVec 64)
  | streamBuffer (addr : BitVec 64) (length : Nat)
  | streamStop
  | reserveRelease
  deriving DecidableEq, Repr

/-- Every byte outside the given (offset, size) fields, the header aside, is zero (R10, R325, R366). -/
def bodyOnly (raw : Bytes) (used : List (Nat × Nat)) : Bool :=
  (List.range 56).all fun i =>
    byteAt raw (8 + i) == 0 || used.any fun u => u.1 ≤ 8 + i && 8 + i < u.1 + u.2

/-- A channel field of an item: 0 to 63 (R325). -/
def chanField (raw : Bytes) (off : Nat) : Option ChanId :=
  let v := field raw off 1
  if h : v < 64 then some ⟨v, h⟩ else none

/-- A maintenance item is well formed only with its flags and reserved header bytes zero (Table 14.6). -/
def maintenanceHeader (raw : Bytes) : Bool :=
  zeroAt raw 1 3

/-- Give the body when the check holds. -/
def whenOk (ok : Bool) (b : ItemBody) : Option ItemBody :=
  if ok then some b else none

/-- A maintenance item with one channel field and nothing else. -/
def chanItem (raw : Bytes) (f : ChanId → ItemBody) : Option ItemBody :=
  (chanField raw 8).bind fun c => whenOk (maintenanceHeader raw && bodyOnly raw [(8, 1)]) (f c)

/-- Inject: each checker uses its own fields, the other one reserved (Table 14.10). -/
def decodeInject (raw : Bytes) : Option ItemBody :=
  let k := field raw 8 1
  let p := field raw 9 1
  let c := field raw 0x0A 1
  let ok := match k with
    | 1 => p == 0 && c == 0
    | 2 => decide (p ≤ 1) && c == 0
    | 3 => p == 0 && decide (c < 64)
    | 4 => p == 0 && decide (c < 64)
    | 5 => p == 0 && c == 0
    | 6 => p == 0 && c == 0
    | _ => false
  whenOk (ok && maintenanceHeader raw && bodyOnly raw [(8, 3)]) (.inject k p c)

/-- Channel up: identifier and data are zero without the wake flag (R325). -/
def decodeUp (raw : Bytes) : Option ItemBody :=
  (chanField raw 8).bind fun c =>
    let wake := field raw 9 1 == 1
    whenOk (decide (field raw 9 1 ≤ 1) && maintenanceHeader raw && bodyOnly raw [(8, 4), (0x10, 32)] &&
        (wake || (zeroAt raw 0x0A 2 && zeroAt raw 0x10 32)))
      (.up c (if wake then some (BitVec.ofNat 16 (field raw 0x0A 2), slice raw 0x10 32) else none))

/-- Enter dormant: kind 0x01 retain, 0x02 deep. -/
def decodeDormant (raw : Bytes) : Option ItemBody :=
  let ok := maintenanceHeader raw && bodyOnly raw [(8, 1)]
  match field raw 8 1 with
  | 1 => whenOk ok (.dormant .retain)
  | 2 => whenOk ok (.dormant .deep)
  | _ => none

/-- The maintenance items (Table 14.8). -/
def decodeMaintenance (raw : Bytes) : Option ItemBody :=
  let head := maintenanceHeader raw
  match field raw 0 1 with
  | 0x01 =>
    let a := field raw 8 2
    let b := field raw 0x0A 2
    whenOk (head && bodyOnly raw [(8, 4)] && decide (a ≤ b) && decide (b ≤ 0x3FF)) (.faultClear a b)
  | 0x02 => whenOk (head && bodyOnly raw [(8, 2)] && decide (field raw 8 2 ≤ 0x3FF)) (.faultAcknowledge (field raw 8 2))
  | 0x03 =>
    whenOk (head && bodyOnly raw [(8, 2), (0x10, 9)] && decide (field raw 8 1 ≤ 4) && decide (field raw 9 1 ≤ 1) &&
        decide (field raw 0x18 1 ≤ 3))
      (.calibrate (field raw 8 1) (field raw 9 1 == 1) (BitVec.ofNat 64 (field raw 0x10 8))
        (BitVec.ofNat 2 (field raw 0x18 1)))
  | 0x04 =>
    (chanField raw 8).bind fun c =>
      let m := field raw 9 1
      whenOk (head && bodyOnly raw [(8, 2)] && decide (1 ≤ m) && decide (m ≤ 3)) (.sound c m)
  | 0x05 => decodeDormant raw
  | 0x06 => decodeInject raw
  | 0x07 => decodeUp raw
  | 0x08 => chanItem raw .down
  | 0x09 => chanItem raw .quiet
  | 0x0A => chanItem raw .sleep
  | 0x0B =>
    (chanField raw 8).bind fun c =>
      whenOk (head && bodyOnly raw [(8, 1), (0x0A, 2)]) (.margin c (field raw 0x0A 2))
  | 0x0C => whenOk (head && bodyOnly raw [(8, 2)]) (.windowOpen (field raw 8 2))
  | 0x0D => whenOk (head && bodyOnly raw [(8, 4)]) (.windowRevoke (field raw 8 2) (field raw 0x0A 2))
  | 0x0E =>
    whenOk (head && bodyOnly raw [(8, 4), (0x10, 9)] && decide (field raw 0x18 1 ≤ 2))
      (.pageReady (field raw 8 2) (field raw 0x0A 2) (field raw 0x10 8) (field raw 0x18 1))
  | _ => none

/-- The flags a transport item may carry (R366), and its reserved header bytes zero. -/
def transportHeader (raw : Bytes) (allowed : Nat) : Bool :=
  zeroAt raw 2 2 && (field raw 1 1 &&& allowed) == field raw 1 1

/-- A transport body read from an item, with the given kind and channels; the caller checks ranges. -/
def bodyOf (raw : Bytes) (k : OpKind) (c c2 : ChanId) : TransportBody :=
  { kind := k, chan := c, chan2 := c2,
    target := BitVec.ofNat 16 (field raw 0x0A 2),
    key := BitVec.ofNat 32 (field raw 0x0C 4), key2 := BitVec.ofNat 32 (field raw 0x30 4),
    offset := BitVec.ofNat 64 (field raw 0x10 8), addr := BitVec.ofNat 64 (field raw 0x18 8),
    length := field raw 0x20 8, array := BitVec.ofNat 64 (field raw 0x28 8),
    fixity := (field raw 1 1).testBit 0, fenced := (field raw 1 1).testBit 1, swap := (field raw 1 1).testBit 2,
    operands := (BitVec.ofNat 64 (field raw 0x28 8), BitVec.ofNat 64 (field raw 0x30 8),
      BitVec.ofNat 64 (field raw 0x38 8)) }

/-- Length of a write, read, send or receive: 1 to 0xFFFF_FFFF. -/
def lengthOk (raw : Bytes) : Bool :=
  decide (1 ≤ field raw 0x20 8) && decide (field raw 0x20 8 ≤ 0xFFFFFFFF)

def arrayOk (raw : Bytes) : Bool :=
  field raw 0x28 8 % 8 == 0

/-- The transport items (Table 16.2); `origin`: the queue may compute fixity at origin (TP.003, R367, R368). -/
def decodeTransport (origin : Bool) (raw : Bytes) : Option ItemBody :=
  (chanField raw 8).bind fun c =>
    let may := origin || (field raw 1 1).testBit 0
    match field raw 0 1 with
    | 0x20 =>
      whenOk (transportHeader raw 3 && bodyOnly raw [(8, 1), (0x0C, 36)] && lengthOk raw && arrayOk raw && may)
        (.transport (bodyOf raw .write c c))
    | 0x21 =>
      whenOk (transportHeader raw 3 && bodyOnly raw [(8, 1), (0x0C, 36)] && lengthOk raw && arrayOk raw)
        (.transport (bodyOf raw .read c c))
    | 0x22 =>
      whenOk (transportHeader raw 3 && bodyOnly raw [(8, 1), (0x0A, 2), (0x18, 24)] && lengthOk raw && arrayOk raw &&
          decide (field raw 0x0A 2 < 512) && may)
        (.transport (bodyOf raw .send c c))
    | 0x24 =>
      whenOk (transportHeader raw 6 && bodyOnly raw [(8, 1), (0x0C, 20), (0x28, 24)] && field raw 0x10 8 % 8 == 0)
        (.transport (bodyOf raw .atomic c c))
    | 0x25 => whenOk (transportHeader raw 2 && bodyOnly raw [(8, 1)]) (.transport (bodyOf raw .flush c c))
    | 0x26 =>
      (chanField raw 9).bind fun c2 =>
        whenOk (transportHeader raw 3 && bodyOnly raw [(8, 2), (0x0C, 40)] && arrayOk raw && zeroAt raw 0x34 4 &&
            decide (1 ≤ field raw 0x20 8) && decide (field raw 0x20 8 ≤ 2 ^ 40))
          (.transport (bodyOf raw .relay c c2))
    | _ => none

/-- A receive item (Table 16.2). -/
def decodeReceive (raw : Bytes) : Option ItemBody :=
  whenOk (transportHeader raw 2 && bodyOnly raw [(0x18, 16)] && lengthOk raw)
    (.receive (BitVec.ofNat 64 (field raw 0x18 8)) (field raw 0x20 8) ((field raw 1 1).testBit 1))

/-- The stream items (Table 17.2), by the queue's stream kind (1 feed, 2 drain, 3 stream send) and frame length F. -/
def decodeStream (kind f : Nat) (raw : Bytes) : Option ItemBody :=
  let head := zeroAt raw 1 3
  match field raw 0 1 with
  | 0x40 =>
    let lead := field raw 8 4
    let reserve := field raw 0x18 8
    match kind with
    | 1 => whenOk (head && bodyOnly raw [(8, 4)] && decide (1 ≤ lead) && decide (lead ≤ 65535)) (.streamStart lead 0)
    | 2 => whenOk (head && bodyOnly raw [(0x18, 8)] && reserve % 4096 == 0) (.streamStart 0 (BitVec.ofNat 64 reserve))
    | 3 => whenOk (head && bodyOnly raw []) (.streamStart 0 0)
    | _ => none
  | 0x41 =>
    let addr := field raw 0x18 8
    let len := field raw 0x20 4
    let ok := head && bodyOnly raw [(0x18, 12)] && addr % 4096 == 0
    match kind with
    | 1 => whenOk (ok && len == f) (.streamBuffer (BitVec.ofNat 64 addr) len)
    | 2 => whenOk (ok && len % 4096 == 0 && decide (4096 ≤ len) && decide (len ≤ 1048576))
        (.streamBuffer (BitVec.ofNat 64 addr) len)
    | _ => none
  | 0x42 => if kind = 1 then whenOk (head && bodyOnly raw []) .streamStop else none
  | 0x43 => if kind = 2 then whenOk (head && bodyOnly raw []) .reserveRelease else none
  | _ => none

/-- The role of a queue: stream kind (STR.000), frame length (STR.001), receive queue (TP.002), origin computation
(TP.003). -/
structure QueueRole where
  stream : Nat
  frame : Nat
  receive : Bool
  origin : Bool
  deriving DecidableEq, Repr

def State.role (s : State) (p : Port) (q : Fin 512) : QueueRole :=
  let k := queueKey p q
  ⟨s.elem 0x0900 k, s.elem 0x0901 k, s.elem 0x0702 k == 1, s.elem 0x0703 k == 1⟩

/-- Is an opcode that of a maintenance item (Table 14.6)? -/
def isMaintenance (op : Nat) : Bool :=
  decide (1 ≤ op) && decide (op ≤ 0x0E)

/-- Decode an item for a queue of a role; none is malformed (R11, R321, R367, R399). -/
def decodeItem (r : QueueRole) (raw : Bytes) : Option ItemBody :=
  let op := field raw 0 1
  match r.stream with
  | 1 => decodeStream 1 r.frame raw
  | 2 => decodeStream 2 r.frame raw
  | 3 => if op = 0x22 || op = 0x25 then decodeTransport r.origin raw
         else if op = 0x40 then decodeStream 3 r.frame raw else none
  | _ =>
    if isMaintenance op then decodeMaintenance raw
    else if op = 0x23 then (if r.receive then decodeReceive raw else none)
    else if 0x20 ≤ op && op ≤ 0x26 then (if r.receive then none else decodeTransport r.origin raw)
    else none

end Sys2Proof.Machine
end

