-- ==== Sys2Proof/Machine/Items.lean ====
section
/-! DEFINITION. Fetched items: which one starts next, and how an item completes: its entry in the completion ring, in
item order, and the fault kinds its code counts toward. -/

namespace Sys2Proof.Machine

/-! ### Rings in host memory (R312, R316) -/

/-- A queue descriptor's fields (Table 14.3). -/
def descBase (a : Anchor) (d : BitVec 32) : BitVec 64 :=
  a.queueBase + BitVec.ofNat 64 (4096 * bits d.toNat 19 0)
def descItems (d : BitVec 32) : Nat := 2 ^ (bits d.toNat 23 20 + 4)
def descRing (d : BitVec 32) : Nat := bits d.toNat 29 24
def descEnabled (d : BitVec 32) : Bool := d.getLsbD 30

def Anchor.desc (a : Anchor) (q : Fin 512) : BitVec 32 :=
  nth 0 a.queues q.val

/-- Entries held by a ring (R316). -/
def Ring.held (r : Ring) : Nat :=
  (r.producer - r.consumed).toNat

def PortRings.completionRing (r : PortRings) (i : Nat) : Ring :=
  Tab.get Ring.reset r.completion i
def PortRings.recordRing (r : PortRings) (i : Nat) : Ring :=
  Tab.get Ring.reset r.record i

def PortRings.setCompletion (r : PortRings) (i : Nat) (x : Ring) : PortRings :=
  { r with completion := Tab.set r.completion i x }
def PortRings.setRecord (r : PortRings) (i : Nat) (x : Ring) : PortRings :=
  { r with record := Tab.set r.record i x }

/-- Entries of a completion ring, units of a record ring (Table 14.2). -/
def Anchor.completionSize (a : Anchor) (i : Nat) : Nat :=
  2 ^ ((nth (0, 0, false) a.completions i).2.1 + 8)
def Anchor.recordSize (a : Anchor) (i : Nat) : Nat :=
  2 ^ ((nth (0, 0, false) a.records i).2.1 + 7)

/-! ### The next item to start -/

/-- Is an item of this queue started and not done? -/
def Queue.busy (x : Queue) : Bool :=
  x.items.any fun i => i.phase == .started

/-- The first item not yet started. -/
def Queue.next (x : Queue) : Option Item :=
  x.items.find? fun i => i.phase == .fetched

/-- Does a body carry the fenced flag (R366)? -/
def ItemBody.fenced : ItemBody → Bool
  | .transport b => b.fenced
  | .receive _ _ f => f
  | _ => false

/-- A queue is held from transport and stream work by its own halt or by quiesce (R433). -/
def State.queueHalted (s : State) (p : Port) (q : Fin 512) : Bool :=
  (s.queue p q).halted || s.faults.quiesced

/-- The next item of a queue with its body, when the schedule runs and nothing holds the item: a fenced item waits for
every earlier one (R369), a send of a stream send queue for the previous disposition (R414), and a halted queue takes
maintenance items only (R433). The body is none for a malformed item. -/
def State.nextItem (s : State) (p : Port) (q : Fin 512) : Option (Item × Option ItemBody) :=
  let x := s.queue p q
  match x.next with
  | none => none
  | some i =>
    let r := s.role p q
    let body := decodeItem r i.raw
    let fenced := match body with | some b => b.fenced | none => false
    if !s.runs then none
    else if (fenced || r.stream == 3) && x.busy then none
    else if s.queueHalted p q && !isMaintenance (field i.raw 0 1) then none
    else some (i, body)

/-- Set the phase of an item of a queue. -/
def State.setPhase (s : State) (p : Port) (q : Fin 512) (index : BitVec 32) (ph : ItemPhase) : State :=
  s.modQueue p q fun x => { x with items := updateIf (fun i => i.index == index) (fun i => { i with phase := ph }) x.items }

/-- An item starts. -/
def State.startItem (s : State) (p : Port) (q : Fin 512) (index : BitVec 32) : State :=
  s.setPhase p q index .started

/-! ### Completion (R322 to R324) -/

/-- A completion entry (Table 14.7). -/
def entryBytes (tag q code : Nat) (index detail : Nat) : Bytes :=
  le 4 tag ++ le 2 q ++ le 1 code ++ le 1 0 ++ le 4 index ++ le 4 detail

/-- Write one completion entry and the ring's producer index (R315, R320). -/
def State.writeEntry (s : State) (p : Port) (q : Fin 512) (i : Item) (code : Byte) (detail : BitVec 32) : State :=
  match (s.rings p).anchor with
  | none => s
  | some a =>
    let n := descRing (a.desc q)
    let d := nth (0, 0, false) a.completions n
    let r := (s.rings p).completionRing n
    let slot := r.producer.toNat % a.completionSize n
    let s1 := s.hostWrite p (d.1 + BitVec.ofNat 64 (16 * slot))
      (entryBytes (field i.raw 4 4) q.val code.toNat i.index.toNat detail.toNat)
    let r' := { r with producer := r.producer + 1, reserved := r.reserved - 1, eventDue := r.eventDue || d.2.2 }
    let s2 := s1.modRings p fun x => x.setCompletion n r'
    let s3 := s2.hostWrite p (a.indexBlock + BitVec.ofNat 64 (0x800 + 4 * n)) (le 4 r'.producer.toNat)
    s3.modQueue p q fun x => { x with lastDone := some i.index }

/-- Write the entries of the done items at the head of a queue, in item order (R324). -/
def flushItems (p : Port) (q : Fin 512) : List Item → State → State
  | [], s => s
  | i :: t, s =>
    match i.phase with
    | .done code detail =>
      flushItems p q t ((s.modQueue p q fun x => { x with items := x.items.drop 1 }).writeEntry p q i code detail)
    | _ => s

def State.flushQueue (s : State) (p : Port) (q : Fin 512) : State :=
  flushItems p q (s.queue p q).items s

/-- The fault kind an item's completion code counts toward (Table 18.1, kinds 15 to 18). -/
def codeKind (code : Byte) : Option Nat :=
  if code = 0x01 then some 15
  else if code = 0x04 || code = 0x05 || code = 0x06 || code = 0x07 || code = 0x0C || code = 0x0D then some 16
  else if code = 0x0F then some 17
  else if code = 0x11 then some 18
  else none

/-- Address of class I (Table 18.6). -/
def addrItem (index tag code : Nat) (c : Option ChanId) : Bytes :=
  le 4 index ++ le 4 tag ++ le 1 code ++ le 1 (match c with | some x => x.val | none => 0xFF)

def State.findItem (s : State) (p : Port) (q : Fin 512) (index : BitVec 32) : Option Item :=
  (s.queue p q).items.find? fun i => i.index == index

/-- An item completes once with a code and detail: held until the earlier items of its queue are written. An item no
longer held (discarded by an escalation) completes no more (R323, R433). -/
def State.complete (s : State) (p : Port) (q : Fin 512) (index : BitVec 32) (code : Byte) (detail : BitVec 32)
    (c : Option ChanId) : State :=
  match s.findItem p q index with
  | none => s
  | some i =>
    match i.phase with
    | .done _ _ => s
    | _ =>
      let s1 := (s.setPhase p q index (.done code detail)).flushQueue p q
      match codeKind code with
      | some k => s1.occurQueue k p q (addrItem index.toNat (field i.raw 4 4) code.toNat c)
      | none => s1

/-- A maintenance item completes with a result of Table 14.9 (R327), a status and further detail bits. -/
def State.result (s : State) (p : Port) (q : Fin 512) (index : BitVec 32) (result status extra : Nat) : State :=
  s.complete p q index (if result = 0 || result = 7 then 0x00 else 0x02)
    (BitVec.ofNat 32 (result + 256 * status + extra)) none

/-! ### Injection (R328, R439) -/

/-- An armed inversion of a checker, for a port or channel field. -/
def State.armedFor (s : State) (checker sel : Nat) : Option (Nat × Nat × Port × Fin 512 × BitVec 32 × Sf) :=
  s.faults.armed.find? fun a => a.1 == checker && a.2.1 == sel

/-- The inverted check has been made: the injection is used up, and its item completes with the source the check raised
in bits [25:16] (R328). -/
def State.injected (s : State) (checker sel src : Nat) : State :=
  match s.armedFor checker sel with
  | none => s
  | some a =>
    let s1 := { s with faults := { s.faults with armed := s.faults.armed.filter fun b => !(b.1 == checker) } }
    s1.result a.2.2.1 a.2.2.2.1 a.2.2.2.2.1 0 0 (65536 * src)

/-- The channel belongs to the port on which its item was posted (R326). -/
def State.ownChannel (s : State) (p : Port) (c : ChanId) : Bool :=
  s.portOf c == p

end Sys2Proof.Machine
end

