-- ==== Sys2Proof/Machine/Rings.lean ====
section
/-! DEFINITION. Doorbells, item fetch, event frames, records into their rings, and the anchor block. -/

namespace Sys2Proof.Machine

/-! ### Doorbells (R98, R317, R318) -/

/-- Address of class D (Table 18.6). -/
def addrDoorbell (kind target index last : Nat) : Bytes :=
  le 1 kind ++ le 1 0 ++ le 2 target ++ le 4 index ++ le 4 last

/-- The test of a work-queue doorbell's index N (R318): held items C to N at most E, and not before P. -/
def workIndexOk (n c p : BitVec 32) (e : Nat) : Bool :=
  decide ((n - c).toNat ≤ e) && decide ((n - p).toNat ≤ (n - c).toNat)

/-- The test of a consumed doorbell's index N (R318): from the last accepted P to the producer Q. -/
def consumedIndexOk (n q p : BitVec 32) : Bool :=
  decide ((q - n).toNat ≤ (q - p).toNat)

/-- Act on a work-queue doorbell taken from the receive buffer. -/
def State.actWorkDoorbell (s : State) (p : Port) (target : BitVec 16) (index : BitVec 32) : State :=
  if h : target.toNat < 512 then
    let q : Fin 512 := ⟨target.toNat, h⟩
    match (s.rings p).anchor with
    | none => s
    | some a =>
      if s.entry.isSome then s
      else
        let x := s.queue p q
        if descEnabled (a.desc q) && workIndexOk index x.consumed x.producer (descItems (a.desc q)) then
          s.setQueue p q { x with producer := index }
        else s.occurQueue 14 p q (addrDoorbell 1 target.toNat index.toNat x.producer.toNat)
  else s.hostLinkError p 2 4

/-- Release the port's INT pin (R336). -/
def State.setInt (s : State) (p : Port) (low : Bool) : State :=
  match p with
  | .a => { s with pins := { s.pins with intALow := low } }
  | .b => { s with pins := { s.pins with intBLow := low } }

/-- A consumed doorbell that names no ring of the anchor, or fails its test: counted, with no instance (R418). -/
def State.badConsumed (s : State) (p : Port) (target : BitVec 16) (index : BitVec 32) (last : Nat) : State :=
  s.occur (queueSource 14 p) none (addrDoorbell 2 target.toNat index.toNat last)

/-- Act on a consumed doorbell (R317, R318, R336). -/
def State.actConsumedDoorbell (s : State) (p : Port) (target : BitVec 16) (index : BitVec 32) : State :=
  let t := target.toNat
  match (s.rings p).anchor with
  | none => if t < 64 || (0x100 ≤ t && t < 0x108) then s else s.hostLinkError p 2 4
  | some a =>
    if s.entry.isSome then s
    else if t < 64 then
      let r := (s.rings p).completionRing t
      if t < a.completionRings && consumedIndexOk index r.producer r.consumed then
        s.modRings p fun x => x.setCompletion t { r with consumed := index }
      else s.badConsumed p target index r.consumed.toNat
    else if 0x100 ≤ t && t < 0x108 then
      let r := (s.rings p).recordRing (t - 0x100)
      if t - 0x100 < a.recordRings && consumedIndexOk index r.producer r.consumed then
        let s1 := s.modRings p fun x => x.setRecord (t - 0x100) { r with consumed := index }
        if t == 0x100 && index == r.producer then s1.setInt p false else s1
      else s.badConsumed p target index r.consumed.toNat
    else s.hostLinkError p 2 4

/-- A doorbell frame that has been accepted is taken from the receive buffer and acted on, and its credit returned
(R295); while the line domain is stopped it is held (corner after R295), and so is a frame behind one that is held (R303). In a
dormant entry it is discarded with its
credit (corner after R309). -/
def State.takeFrame (s : State) (p : Port) (h : Held) (act : State → State) : State :=
  if s.runs && (s.link p).held.isEmpty then (act s).returnCredit p
  else s.modLink p fun l => { l with held := l.held ++ [h] }

/-- A bad frame is discarded, NAKed and counted (R289). -/
def State.badFrame (s : State) (p : Port) (kind : Nat) : State :=
  (s.sayNak p).hostLinkError p 1 kind

/-- Accept a sequenced frame of a kind on a port whose link is up, then act on it when it is the expected one. An armed
host-link inversion makes the frame bad (R439). -/
def State.onFrame (s : State) (p : Port) (kind : Nat) (seq : BitVec 12) (act : State → State) : State :=
  if s.linkUp p then
    if (s.armedFor 2 p.num).isSome then (s.badFrame p kind).injected 2 p.num (0x392 + p.num)
    else
    let r := s.acceptFrame p seq
    match r.1 with
    | .accepted => act r.2
    | _ => r.2
  else s

/-- WORK_QUEUE_DOORBELL. -/
def execWorkQueueDoorbell (p : Port) (seq : BitVec 12) (target : BitVec 16) (index : BitVec 32) (s : State) :
    Host.Outcome State Fault Refusal :=
  .next (s.onFrame p 4 seq fun t =>
    t.takeFrame p (.workDoorbell target index) fun u => u.actWorkDoorbell p target index)

/-- CONSUMED_DOORBELL. -/
def execConsumedDoorbell (p : Port) (seq : BitVec 12) (target : BitVec 16) (index : BitVec 32) (s : State) :
    Host.Outcome State Fault Refusal :=
  .next (s.onFrame p 4 seq fun t =>
    t.takeFrame p (.consumedDoorbell target index) fun u => u.actConsumedDoorbell p target index)

/-! ### Item fetch (R319, R320) -/

/-- Free entries of a queue's completion ring (R320). -/
def State.freeEntries (s : State) (p : Port) (a : Anchor) (q : Fin 512) : Nat :=
  let n := descRing (a.desc q)
  let r := (s.rings p).completionRing n
  a.completionSize n - r.held - r.reserved

/-- How many items the next read fetches: at most 64, what the host has posted, the completion entries that are free,
none across a 4 KiB boundary; a halted queue looks at one (R433). -/
def State.fetchCount (s : State) (p : Port) (a : Anchor) (q : Fin 512) : Nat :=
  let x := s.queue p q
  let slot := x.consumed.toNat % descItems (a.desc q)
  let n := min (min 64 (x.producer - x.consumed).toNat)
    (min (s.freeEntries p a q) (min (64 - slot % 64) (descItems (a.desc q) - slot)))
  if s.queueHalted p q then min 1 n else n

/-- ITEM_FETCH: issue the read of a queue's next items, their completion entries reserved first. -/
def State.fetchItems (s : State) (p : Port) (q : Fin 512) : State :=
  match (s.rings p).anchor with
  | none => s
  | some a =>
    let x := s.queue p q
    let n := s.fetchCount p a q
    if s.runs && descEnabled (a.desc q) && !x.reading && s.entry.isNone && 0 < n then
      let slot := x.consumed.toNat % descItems (a.desc q)
      let k := descRing (a.desc q)
      let s1 := s.modRings p fun r => r.setCompletion k
        { r.completionRing k with reserved := (r.completionRing k).reserved + n }
      let s2 := s1.setQueue p q { x with reading := true }
      s2.hostRead p (descBase a (a.desc q) + BitVec.ofNat 64 (64 * slot)) (64 * n) (.fetch q x.consumed n)
    else s

def execItemFetch (p : Port) (q : Fin 512) (s : State) : Host.Outcome State Fault Refusal :=
  .next (s.fetchItems p q)

/-- Cut fetched bytes into items. -/
def cutItems : Nat → BitVec 32 → Bytes → ItemPhase → List Item
  | 0, _, _, _ => []
  | n + 1, i, b, ph => ⟨i, fit 64 (b.take 64), ph⟩ :: cutItems n (i + 1) (b.drop 64) ph

/-- The consumed index written to the consumed-index block (R315). -/
def State.writeConsumed (s : State) (p : Port) (q : Fin 512) : State :=
  match (s.rings p).anchor with
  | none => s
  | some a => s.hostWrite p (a.indexBlock + BitVec.ofNat 64 (4 * q.val)) (le 4 (s.queue p q).consumed.toNat)

/-- Give back completion entries that were reserved for items not taken. -/
def State.unreserve (s : State) (p : Port) (q : Fin 512) (n : Nat) : State :=
  match (s.rings p).anchor with
  | none => s
  | some a =>
    let k := descRing (a.desc q)
    s.modRings p fun r => r.setCompletion k { r.completionRing k with reserved := (r.completionRing k).reserved - n }

/-- A fetch whose queue a dormant-deep entry has discarded already (R323): nothing is taken, and the slots stay the host's. -/
def State.fetchDropped (s : State) : Bool :=
  match s.entry with
  | some e => e.written && e.kind == .deep
  | none => false

/-- The read of a fetch has completed: the items are held on die and the consumed index advances (R319); a halted queue
does not take an item that is not a maintenance item (R433). -/
def State.fetchDone (s : State) (p : Port) (q : Fin 512) (first : BitVec 32) (n : Nat) (data : Bytes) : State :=
  let x := s.queue p q
  if s.fetchDropped || s.queueHalted p q && !isMaintenance (field data 0 1) then
    (s.setQueue p q { x with reading := false }).unreserve p q n
  else
    let m := if s.queueHalted p q then min 1 n else n
    let s1 := s.setQueue p q { x with
      reading := false, consumed := first + BitVec.ofNat 32 m, items := x.items ++ cutItems m first data .fetched }
    (s1.unreserve p q (n - m)).writeConsumed p q

/-- The read of a fetch has failed: each of its items still completes once, with code 0x03 and host tag 0 (R323). -/
def State.fetchFailed (s : State) (p : Port) (q : Fin 512) (first : BitVec 32) (n : Nat) : State :=
  let x := s.queue p q
  if s.fetchDropped then (s.setQueue p q { x with reading := false }).unreserve p q n
  else
    let s1 := s.setQueue p q { x with
      reading := false, consumed := first + BitVec.ofNat 32 n,
      items := x.items ++ cutItems n first [] (.done 0x03 0) }
    (s1.writeConsumed p q).flushQueue p q

/-! ### Event frames and records (R301, R331 to R335) -/

def eventBody (kind ring index : Nat) : Bytes :=
  le 1 kind ++ le 1 0 ++ le 2 ring ++ le 4 index

/-- An event frame of a port can go out now: the schedule runs, nothing waits before it, and window, buffer and credits allow. A frame
that cannot stays due, so that the one sent carries the latest index (R301). -/
def State.eventReady (s : State) (p : Port) : Bool :=
  s.runs && (s.link p).waiting.isEmpty && (s.link p).maySend 7 (eventBody 0 0 0) 0

/-- EVENT_FRAME: the event frame a ring owes (Table 13.15). -/
def State.sendEvent (s : State) (p : Port) (kind : Byte) (ring : Nat) : State :=
  let r := s.rings p
  if !s.eventReady p then s
  else if kind = 1 then
    let x := r.completionRing ring
    if x.eventDue then
      (s.setRings p (r.setCompletion ring { x with eventDue := false })).sendHost p
        (.event (eventBody 1 ring x.producer.toNat))
    else s
  else if (kind = 2 && ring != 0) || (kind = 3 && ring == 0) then
    let x := r.recordRing ring
    if x.eventDue then
      (s.setRings p (r.setRecord ring { x with eventDue := false })).sendHost p
        (.event (eventBody kind.toNat ring x.producer.toNat))
    else s
  else s

def execEventFrame (p : Port) (ringKind : Byte) (ring : Fin 64) (s : State) : Host.Outcome State Fault Refusal :=
  .next (s.sendEvent p ringKind ring.val)

/-- A pad record that fills n units (R331), stamped as the record that follows it. -/
def padBytes (n : Nat) (follow : Bytes) : Bytes :=
  le 1 (0x1F + 32 * (n - 1)) ++ slice follow 1 7 ++ zeros (32 * n - 8)

/-- Move records that waited outside into the buffer as room appears (R333). -/
def admitOutside : List Rec → List Rec → List Rec × List Rec
  | buf, [] => (buf, [])
  | buf, r :: t => if bufferUnits buf + r.bytes.length / 32 ≤ 64 then admitOutside (buf ++ [r]) t else (buf, r :: t)

/-- The pad, record and producer index of a record in its ring: the writes and the ring after them. -/
def State.writeRecord (s : State) (p : Port) (a : Anchor) (r : Rec) (pad : Nat) : State :=
  let x := (s.rings p).recordRing r.ring
  let d := nth (0, 0, false) a.records r.ring
  let size := a.recordSize r.ring
  let units := r.bytes.length / 32
  let slot := x.producer.toNat % size
  let s1 := if pad = 0 then s
    else s.hostWrite p (d.1 + BitVec.ofNat 64 (32 * slot)) (padBytes pad r.bytes)
  let s2 := s1.hostWrite p (d.1 + BitVec.ofNat 64 (32 * ((slot + pad) % size))) r.bytes
  let n := x.producer + BitVec.ofNat 32 (pad + units)
  let s3 := s2.modRings p fun y => y.setRecord r.ring
    { x with producer := n, eventDue := x.eventDue || r.ring == 0 || d.2.2 }
  s3.hostWrite p (a.indexBlock + BitVec.ofNat 64 (0x900 + 4 * r.ring)) (le 4 n.toNat)

/-- A wake record of a match waits in a port's buffer. -/
def PortRings.keepsWake (r : PortRings) : Bool :=
  (r.buffer ++ r.outside).any fun x => x.kind == 6

/-- WAKE_N is released when the record of every match has been written (R270). -/
def State.releaseWake (s : State) : State :=
  if (allChans.any fun c => (s.chan c).wake.held.isSome) || s.ringsA.keepsWake || s.ringsB.keepsWake then s
  else { s with pins := { s.pins with wakeLow := false } }

/-- RECORD_WRITE: the first record of the buffer goes into its ring when the ring has space for it and its pad; ring 0
then gets the fence read that asserts INT (R335). -/
def State.recordWrite (s : State) (p : Port) : State :=
  let r := s.rings p
  match r.anchor, r.buffer with
  | some a, x :: t =>
    let ring := r.recordRing x.ring
    let size := a.recordSize x.ring
    let units := x.bytes.length / 32
    let slot := ring.producer.toNat % size
    let pad := if slot + units > size then size - slot else 0
    if s.linkUp p && s.runs && ring.held + pad + units ≤ size then
      let b := admitOutside t r.outside
      let s1 := (s.setRings p { r with buffer := b.1, outside := b.2 }).writeRecord p a x pad
      let s2 := if x.kind = 6 then s1.releaseWake else s1
      if x.ring = 0 then s2.fence p .intFence else s2
    else s
  | _, _ => s

def writeEach (p : Port) : List Rec → State → State
  | [], s => s
  | _ :: t, s => writeEach p t (s.recordWrite p)

/-- Write what the buffer holds and its ring has space for, ahead of something that the records must precede. -/
def State.writeBuffered (s : State) (p : Port) : State :=
  writeEach p (s.rings p).buffer s

def execRecordWrite (p : Port) (s : State) : Host.Outcome State Fault Refusal :=
  .next (s.recordWrite p)

/-- The fence behind a ring 0 index has completed or failed: the pin is asserted while ring 0 holds records the host has
not reported consumed (R335). -/
def State.assertInt (s : State) (p : Port) : State :=
  let x := (s.rings p).recordRing 0
  if x.producer == x.consumed then s else s.setInt p true

/-! ### The anchor (R306, R312 to R315) -/

def ringDesc (b : Bytes) (off : Nat) : BitVec 64 × Nat × Bool :=
  (BitVec.ofNat 64 (field b off 8), field b (off + 8) 1, (field b (off + 9) 1).testBit 0)

/-- The content of an anchor block (Table 14.1). -/
def readAnchor (addr : BitVec 64) (b : Bytes) : Anchor :=
  { addr := addr
    indexBlock := BitVec.ofNat 64 (field b 8 8)
    windowBase := BitVec.ofNat 64 (field b 0x10 8)
    windowSlots := field b 0x18 4
    queueBase := BitVec.ofNat 64 (field b 0x20 8)
    recordRings := field b 0x28 1
    completionRings := field b 0x29 1
    routing := (slice b 0x30 16).map (·.toNat)
    records := (List.range 8).map fun i => ringDesc b (0x40 + 16 * i)
    completions := (List.range 64).map fun i => ringDesc b (0xC0 + 16 * i)
    queues := (List.range 512).map fun i => BitVec.ofNat 32 (field b (0x4C0 + 4 * i) 4) }

/-- A ring descriptor's reserved fields, below the count; at or above it all of it is reserved (R313). -/
def ringReserved (b : Bytes) (off : Nat) (used : Bool) : Bool :=
  if used then decide (field b (off + 9) 1 ≤ 1) && zeroAt b (off + 0xA) 6 else zeroAt b off 16

/-- Check 0x03 of Table 14.4. -/
def anchorReservedOk (b : Bytes) (a : Anchor) : Bool :=
  zeroAt b 6 2 && zeroAt b 0x1C 4 && zeroAt b 0x2A 6 && zeroAt b 0xCC0 828 &&
  ((List.range 8).all fun i => ringReserved b (0x40 + 16 * i) (decide (i < a.recordRings))) &&
  ((List.range 64).all fun i => ringReserved b (0xC0 + 16 * i) (decide (i < a.completionRings))) &&
  (a.queues.all fun d => if descEnabled d then !d.getLsbD 31 else d == 0)

/-- Check 0x04: every address a multiple of 4,096. -/
def anchorAlignedOk (a : Anchor) : Bool :=
  a.indexBlock.toNat % 4096 == 0 && a.windowBase.toNat % 4096 == 0 && a.queueBase.toNat % 4096 == 0 &&
  ((a.records.take a.recordRings).all fun d => d.1.toNat % 4096 == 0) &&
  ((a.completions.take a.completionRings).all fun d => d.1.toNat % 4096 == 0)

/-- Check 0x05: counts and slots in range. -/
def anchorCountsOk (a : Anchor) : Bool :=
  decide (a.windowSlots ≤ 65536) && a.windowSlots % 256 == 0 && decide (1 ≤ a.recordRings) &&
  decide (a.recordRings ≤ 8) && decide (1 ≤ a.completionRings) && decide (a.completionRings ≤ 64)

/-- Check 0x06: no reserved size code. -/
def anchorSizesOk (a : Anchor) : Bool :=
  ((a.records.take a.recordRings).all fun d => decide (d.2.1 ≤ 9)) &&
  ((a.completions.take a.completionRings).all fun d => decide (d.2.1 ≤ 8)) &&
  (a.queues.all fun d => !descEnabled d || decide (bits d.toNat 23 20 ≤ 12))

/-- Check 0x07: the routing bytes (R330). -/
def anchorRoutingOk (a : Anchor) : Bool :=
  (List.range 16).all fun k =>
    if (3 ≤ k && k ≤ 5) || (7 ≤ k && k ≤ 0xA) || k == 0xC then decide (nth 0 a.routing k < a.recordRings)
    else nth 0 a.routing k == 0

/-- Check 0x08: enabled queues complete into rings below the count. -/
def anchorQueuesOk (a : Anchor) : Bool :=
  a.queues.all fun d => !descEnabled d || decide (descRing d < a.completionRings)

/-- The first check of Table 14.4 that fails, 0 when none does. -/
def anchorCode (p : Port) (b : Bytes) : Nat :=
  let a := readAnchor 0 b
  if !(slice b 0 4 == [0x41, 0x51, 0x41, 0x4E] && field b 4 1 == 1 && field b 5 1 == p.num) then 1
  else if !(crc32c (slice b 0 0xFFC) == field b 0xFFC 4) then 2
  else if !anchorReservedOk b a then 3
  else if !anchorAlignedOk a then 4
  else if !anchorCountsOk a then 5
  else if !anchorSizesOk a then 6
  else if !anchorRoutingOk a then 7
  else if !anchorQueuesOk a then 8
  else 0

/-- An anchor reply's body (Table 13.17). -/
def State.replyBody (s : State) (status detail : Nat) (addr : BitVec 64) : Bytes :=
  le 1 status ++ le 1 detail ++ le 2 s.node ++ le 2 Config.stepping ++ zeros 2 ++ le 8 addr.toNat

def State.sendReply (s : State) (p : Port) (status detail : Nat) (addr : BitVec 64) : State :=
  s.sendHost p (.reply (s.replyBody status detail addr))

/-- Steps 1 and 2 of Table 13.18. DEDUCED: a reserved field that is not zero counts toward host-link error (R290) and is answered with
status 0x01; see assumption 93. -/
def State.actAnchor (s : State) (p : Port) (body : Bytes) : State :=
  let addr := BitVec.ofNat 64 (field body 8 8)
  if !zeroAt body 1 7 then (s.hostLinkError p 2 5).sendReply p 1 0 addr
  else if !(field body 0 1 == 1 && addr.toNat % 4096 == 0) then s.sendReply p 1 0 addr
  else if (s.rings p).anchor.isSome then s.sendReply p 4 0 addr
  else if (s.rings p).anchorReading then s.sendReply p 5 0 addr
  else (s.modRings p fun r => { r with anchorReading := true }).hostRead p addr 4096 (.anchor addr)

/-- ANCHOR_MESSAGE. -/
def execAnchorMessage (p : Port) (seq : BitVec 12) (body : Bytes) (s : State) : Host.Outcome State Fault Refusal :=
  .next (s.onFrame p 5 seq fun t => t.takeFrame p (.anchor body) fun u => u.actAnchor p body)

end Sys2Proof.Machine
end

