-- ==== Sys2Proof/Machine/Line.lean ====
section
/-! DEFINITION. The line signal as bits and points (chapter "The line signal"): generators, pilot, sync and training
sequences, constellations, the codeword's information word, the scrambler, call frames and wake frames. -/

namespace Sys2Proof.Machine

/-- One step of PRBS(L, t, state): the bit and the next state (R160). -/
def prbsStep (len t st : Nat) : Bool × Nat :=
  let b := st.testBit (len - 1) ^^ st.testBit (t - 1)
  (b, (2 * st + bit b) % 2 ^ len)

/-- n bits of a generator, and its state after them. -/
def prbsBits (len t : Nat) : Nat → Nat → List Bool × Nat
  | 0, st => ([], st)
  | n + 1, st =>
    let r := prbsStep len t st
    let q := prbsBits len t n r.2
    (r.1 :: q.1, q.2)

/-- The data carriers in ascending order: 4 to 15 and 17 to 63 (Table 8.1). -/
def dataCarriers : List Nat :=
  (List.range 12).map (· + 4) ++ (List.range 47).map (· + 17)

/-- Gray decoding (R165 step 3); n bounds the shifts. -/
def grayFrom (g : Nat) : Nat → Nat → Nat
  | 0, _ => 0
  | n + 1, shift => (g >>> shift) ^^^ grayFrom g n (shift + 1)

def grayDecode (g : Nat) : Nat :=
  grayFrom g 12 0

/-- The unscaled levels (I, Q) of the point that b bits map to (R165 steps 1 to 4). -/
def pointLevels (b : Nat) (u : List Bool) : Int × Int :=
  let bi := (b + 1) / 2
  let bq := b / 2
  let ni := grayDecode (ofBits (u.take bi))
  let nq := grayDecode (ofBits ((u.drop bi).take bq))
  (2 * (ni : Int) - ((2 ^ bi : Nat) - 1 : Int), 2 * (nq : Int) - ((2 ^ bq : Nat) - 1 : Int))

/-- E_b, the average energy of the unscaled levels (Table 8.3). -/
def pointEnergy (b : Nat) : Nat :=
  ((2 ^ ((b + 1) / 2)) ^ 2 - 1) / 3 + ((2 ^ (b / 2)) ^ 2 - 1) / 3

/-- Pairs of bits as 4-QAM points. -/
def pairPoints : Nat → List Bool → List (Int × Int)
  | 0, _ => []
  | n + 1, l => pointLevels 2 (l.take 2) :: pairPoints n (l.drop 2)

/-- The pilot's points of symbols 0 to n − 1 of a superframe (R161). -/
def pilotPoints (n : Nat) : List (Int × Int) :=
  pairPoints n (prbsBits 9 5 (2 * n) 0x1FF).1

/-- The sync sequence on the 59 data carriers (R162); form −S negates every point (R163). -/
def syncPoints (minus : Bool) : List (Int × Int) :=
  (pairPoints 59 (prbsBits 11 9 118 0x7FF).1).map fun c => if minus then (-c.1, -c.2) else c

/-- The Walsh chip of TRAIN3 for pair offset o, group size n, symbol s (R222): true negates. -/
def walshMinus (o n s : Nat) : Bool :=
  ((toBits 3 (o &&& (s % n))).filter id).length % 2 == 1

/-- The training points of symbol s, 1 to 255, on the 59 data carriers (R222). -/
def trainingPoints (s : Nat) (walsh : Option (Nat × Nat)) : List (Int × Int) :=
  let st := (prbsBits 11 9 (118 * (s - 1)) 0x7FF).2
  let neg := match walsh with | some (o, n) => walshMinus o n s | none => false
  (pairPoints 59 (prbsBits 11 9 118 st).1).map fun c => if neg then (-c.1, -c.2) else c

/-- The sounding burst's points, symbol by symbol on carriers 4 to 63 (R246). -/
def soundingPoints : List (Int × Int) :=
  pairPoints 1920 (prbsBits 11 9 3840 0x7FF).1

/-! ### Loading tables (R164, Table 9.3) -/

/-- Bits per data symbol. -/
def tableB (t : Table) : Nat :=
  (t.map (·.1)).sum

/-- A table within R164: 59 carriers, b at most 12, gain code at most 14, code 12 where b is 0. -/
def tableOk (t : Table) : Bool :=
  t.length == 59 && t.all fun e => decide (e.1 ≤ 12) && decide (e.2 ≤ 14) && (e.1 != 0 || e.2 == 12)

/-- The carrier bytes of a table. -/
def tableBytes (t : Table) : Bytes :=
  t.map fun e => BitVec.ofNat 8 (e.1 + 16 * e.2)

/-- The table of carrier bytes. -/
def bytesTable (b : Bytes) : Table :=
  b.map fun x => (x.toNat % 16, x.toNat / 16)

/-- The fixed table of the training stream: 2 bits at 0 dB everywhere (R223). -/
def trainingTable : Table :=
  List.replicate 59 (2, 12)

/-- Is any carrier above 32 loaded (R186)? Carrier 32 is the 28th data carrier. -/
def tableWide (t : Table) : Bool :=
  (t.drop 28).any fun e => e.1 != 0

/-! ### Codewords (R167 to R170) -/

/-- The header of Table 8.4. -/
def headerWord (seq ack kind start : Nat) : BitVec 40 :=
  BitVec.ofNat 40 (seq % 4096 + 4096 * (ack % 4096) + 2 ^ 24 * (kind % 16) + 2 ^ 28 * (start % 256))

/-- A header's fields. -/
structure Header where
  seq : BitVec 12
  ack : BitVec 12
  kind : Nat
  start : Nat
  deriving DecidableEq, Repr

/-- The header of an information word; none where R168 makes the codeword uncorrectable: a reserved kind, a reserved
packet start, or reserved bits set. -/
def readHeader (bits40 : List Bool) : Option Header :=
  let v := ofBits bits40
  let h : Header := ⟨BitVec.ofNat 12 (bits v 11 0), BitVec.ofNat 12 (bits v 23 12), bits v 27 24, bits v 35 28⟩
  if h.kind ≤ 2 && (decide (h.start ≤ 250) || h.start == 255) && bits v 39 36 == 0 then some h else none

/-- The 2,048 information bits of a codeword (R167). -/
def infoBits (h : BitVec 40) (payload : Bytes) : List Bool :=
  toBits 40 h.toNat ++ bytesToBits (fit 251 payload)

/-- Scramble or descramble bits, and the generator's state after them (R170). -/
def scramble : List Bool → Nat → List Bool × Nat
  | [], st => ([], st)
  | d :: t, st =>
    let r := prbsStep 23 18 st
    let q := scramble t r.2
    ((d ^^ r.1) :: q.1, q.2)

/-- The scrambler's seed for a pair offset (R170). -/
def scramblerSeed (offset : Nat) : BitVec 23 :=
  0x7FFFFF ^^^ BitVec.ofNat 23 (offset <<< 8)

/-! ### Call frames (R210, R211) -/

def callPreamble : Nat := 0xB47A13

/-- A call frame of a type and payload. -/
def callFrame (kind : Nat) (payload : Nat) : BitVec 128 :=
  BitVec.ofNat 128 (callPreamble + 2 ^ 24 * kind + 2 ^ 32 * payload +
    2 ^ 96 * crc32c (le 1 kind ++ le 8 payload))

/-- The 64 payload bits. -/
def callPayload (f : BitVec 128) : Nat :=
  bits f.toNat 95 32

/-- Payload bits a type reserves. -/
def callReserved (kind payload : Nat) : Nat :=
  match kind with
  | 1 => payload >>> 45
  | 2 => bits payload 31 23
  | 3 => payload >>> 2
  | 4 => payload >>> 1
  | _ => payload

/-- A frame of the given type is accepted (R211). -/
def callAccepted (kind : Nat) (f : BitVec 128) : Bool :=
  let v := f.toNat
  let p := callPayload f
  bits v 23 0 == callPreamble && bits v 31 24 == kind && bits v 127 96 == crc32c (le 1 kind ++ le 8 p) &&
  callReserved kind p == 0

/-! ### Wake frames (R266, Table 12.4) -/

/-- A wake frame's chips: true is on. -/
def manchester (l : List Bool) : List Bool :=
  l.flatMap fun b => [!b, b]

/-- The check of a wake frame. -/
def wakeCheck (ident : BitVec 16) (data : Bytes) : BitVec 32 :=
  BitVec.ofNat 32 (crc32c (le 2 ident.toNat ++ fit 32 data))

/-- Runs of an on-off signal, on first, as chips of a mean length m: every run lies within ±20 % of one or two chips, or (the
delimiter's) three (R267 step 2). -/
def runChips (m : Nat) : Bool → List Nat → Option (List Bool)
  | _, [] => some []
  | on, r :: t =>
    let near := fun (k : Nat) => decide (8 * k * m ≤ 10 * r) && decide (10 * r ≤ 12 * k * m)
    let n := if near 1 then 1 else if near 2 then 2 else if near 3 then 3 else 0
    if n = 0 then none
    else match runChips m (!on) t with
      | some l => some (List.replicate n on ++ l)
      | none => none

/-- Manchester pairs as bits. -/
def unManchester : List Bool → Option (List Bool)
  | [] => some []
  | a :: b :: t => if a == b then none else
    match unManchester t with
    | some l => some (b :: l)
    | none => none
  | _ => none

/-- The decoder of R267: the mean chip from the 32 runs of the preamble, 300 to 700 ns; runs (in ps, on first, the last off run left
out) as chips; preamble, delimiter, and 304 bits: identifier, data and check. DEDUCED: the delimiter's run of three passes the run
test, which names one and two; see assumption 92. -/
def wakeDecode (runs : List Nat) : Option (BitVec 16 × Bytes × BitVec 32) :=
  let sum := (runs.take 31).sum
  let m := sum / 31
  if m < 300000 || decide (700000 < m) then none
  else
    match runChips m true runs with
    | none => none
    | some l =>
      let chips := l ++ List.replicate (644 - l.length) false
      if chips.length != 644 || chips.take 32 != manchester (List.replicate 16 false) ||
          (chips.drop 32).take 4 != [true, true, true, false] then none
      else
        match unManchester (chips.drop 36) with
        | none => none
        | some b =>
          some (BitVec.ofNat 16 (ofBits (b.take 16)), bitsToBytes 32 ((b.drop 16).take 256), BitVec.ofNat 32 (ofBits (b.drop 272)))

/-- The 644 chips of a wake frame. -/
def wakeChips (ident : BitVec 16) (data : Bytes) : List Bool :=
  manchester (List.replicate 16 false) ++ [true, true, true, false] ++
  manchester (toBits 16 ident.toNat ++ bytesToBits (fit 32 data) ++ toBits 32 (wakeCheck ident data).toNat)

end Sys2Proof.Machine
end

