-- ==== Sys2Proof/Machine/Loader.lean ====
section
/-! DEFINITION. Bit loading (R200, R201, Table 9.1) in exact integers: SNR in 0.01 dB, margins in 0.1 dB. -/

namespace Sys2Proof.Machine

/-- The smallest whole number of 0.01 dB that is at least 10 log10(2^b − 1): the least t with 10^t ≥ (2^b − 1)^1000. -/
def needStep : Nat → Int
  | 1 => 0
  | 2 => 478
  | 3 => 846
  | 4 => 1177
  | 5 => 1492
  | 6 => 1800
  | 7 => 2104
  | 8 => 2407
  | 9 => 2709
  | 10 => 3010
  | 11 => 3312
  | _ => 3613

/-- The gap G in 0.01 dB. -/
def gap : Int := 480

/-- Does a value of x (0.01 dB) reach 10 log10(2^b − 1)? -/
def reaches (b : Nat) (x : Int) : Bool :=
  decide (needStep b ≤ x)

/-- The lowest gain code from c whose gain g has S + g at least need(b) (R200); codes 0 to 14 are −6.0 to +1.0 dB. -/
def gainCode (b : Nat) (s m : Int) : Nat → Nat → Nat
  | 0, c => c
  | n + 1, c => if reaches b (s + 50 * c - 600 - gap - 10 * m) then c else gainCode b s m n (c + 1)

/-- The largest b from n down that S + 1.0 dB carries (R200). -/
def loadBits (s m : Int) : Nat → Nat
  | 0 => 0
  | n + 1 => if reaches (n + 1) (s + 100 - gap - 10 * m) then n + 1 else loadBits s m n

/-- One carrier's entry, its loading capped at the partner's highest b (R212). -/
def loadCarrier (highest : Nat) (m : Int) (excluded : Bool) (s : Int) : Nat × Nat :=
  let b := if excluded then 0 else loadBits s m (min 12 highest)
  if b = 0 then (0, 12) else (b, gainCode b s m 14 0)

/-- The table of R200 for 59 SNR values; exclusions are bits by carrier number (R471). -/
def loadTable (snr : List Int) (m : Nat) (exclusions highest : Nat) : Table :=
  List.zipWith (fun k s => loadCarrier highest m (exclusions.testBit k) s) dataCarriers (fit59 snr)
where
  /-- 59 values, short lists filled with 0 dB. -/
  fit59 (l : List Int) : List Int := l.take 59 ++ List.replicate (59 - l.length) 0

/-- Is a loaded carrier's margin below M − 3.0 dB (R201)? -/
def marginLow (m : Nat) (e : Nat × Nat) (s : Int) : Bool :=
  e.1 != 0 && !reaches e.1 (s + 50 * (e.2 : Int) - 600 - gap + 300 - 10 * m)

/-- How many loaded carriers have a margin below M − 3.0 dB. -/
def lowMargins (m : Nat) (t : Table) (snr : List Int) : Nat :=
  ((List.zipWith (marginLow m) t snr).filter id).length

/-- Does a new table call for a bit-swap request (R201)? -/
def wantsSwap (m : Nat) (override : Bool) (old new : Table) (snr : List Int) : Bool :=
  new != old && (decide (0 < lowMargins m old snr) || decide (tableB old + 8 ≤ tableB new) || override)

end Sys2Proof.Machine
end

