-- ==== Sys2Proof/Machine/Signal.lean ====
section
/-! DEFINITION. Symbols as samples (R157 to R166, R209, R222, R246, R266): tones and their levels, the 144 samples of a symbol, and
the symbols of each kind. A sample is a voltage at the balls in nV, in whole nV (DESIGN CHOICE: within the tolerance of R166; see
assumption 83). -/

namespace Sys2Proof.Machine

/-! ### Arithmetic -/

/-- The square root of x, rounded down: n result bits below the root r found so far. -/
def rootFrom : Nat → Nat → Nat → Nat
  | 0, _, r => r
  | n + 1, x, r => rootFrom n x (if (r + 2 ^ n) * (r + 2 ^ n) ≤ x then r + 2 ^ n else r)

def isqrt (x : Nat) : Nat :=
  rootFrom (Nat.log2 x / 2 + 1) x 0

/-- 2^30 cos(2πj/128) for j from 0 to 32. -/
def cosQuarter : List Int :=
  [1073741824, 1072448455, 1068571464, 1062120190, 1053110176, 1041563127, 1027506862, 1010975242, 992008094, 970651112, 946955747,
    920979082, 892783698, 862437520, 830013654, 795590213, 759250125, 721080937, 681174602, 639627258, 596538995, 552013618,
    506158392, 459083786, 410903207, 361732726, 311690799, 260897982, 209476638, 157550647, 105245103, 52686014, 0]

/-- 2^30 cos(2πj/128). -/
def cosAt (j : Nat) : Int :=
  let m := j % 128
  if m ≤ 32 then nth 0 cosQuarter m
  else if m ≤ 64 then -nth 0 cosQuarter (64 - m)
  else if m ≤ 96 then -nth 0 cosQuarter (m - 64)
  else nth 0 cosQuarter (128 - m)

/-- 2^30 sin(2πj/128). -/
def sinAt (j : Nat) : Int :=
  cosAt (j + 96)

/-! ### Tones (R158, R166) -/

/-- √2 · A · 10^(g/20) in nV for the gain codes 0 to 14 (Table 9.3), A being 56.23 mV. -/
def levelOf (code : Nat) : Nat :=
  nth 0 [39855025, 42216583, 44718073, 47367785, 50174503, 53147529, 56296719, 59632509, 63165957, 66908775, 70873370, 75072881,
    79521229, 84233158, 89224286] code

/-- A carrier of a symbol: its gain code (12 is 0 dB), the unscaled levels of its point, and the point's energy E_b. -/
structure Tone where
  carrier : Nat
  gain : Nat
  re : Int
  im : Int
  energy : Nat
  deriving DecidableEq, Repr

/-- A tone's amplitude for a unit of its levels: the level divided by √E_b (R165 step 5). -/
def Tone.amp (t : Tone) : Nat :=
  isqrt (levelOf t.gain ^ 2 / t.energy)

/-- A tone's contribution to sample n of the transform period, in 2^-30 nV. -/
def Tone.at (t : Tone) (n : Nat) : Int :=
  (t.amp : Int) * (t.re * cosAt (t.carrier * n) - t.im * sinAt (t.carrier * n))

/-- The clip of the transmitter: ±1.8 V (R61, R158). -/
def clip (v : Int) : Int :=
  max (-1800000000) (min 1800000000 v)

/-- x[n] of R158. -/
def transformSample (l : List Tone) (n : Nat) : Int :=
  clip (roundDiv ((l.map fun t => t.at n).sum) (2 ^ 30))

/-- A symbol of 144 zero samples (R159). -/
def silence : List Int :=
  List.replicate 144 0

/-- The 144 samples of a symbol: sample m is x[(m − 16) mod 128], so the first 16 repeat the last 16 (R158). -/
def symbolSamples (l : List Tone) : List Int :=
  if l.isEmpty then silence else (List.range 144).map fun m => transformSample l ((m + 112) % 128)

/-! ### The symbols of each kind -/

/-- The pilot of symbol s of a superframe, always at 0 dB (R161). -/
def pilotTone (s : Nat) : Tone :=
  let p := (pilotPoints (s + 1)).getLastD (0, 0)
  ⟨16, 12, p.1, p.2, 2⟩

/-- 4-QAM points on carriers, with each carrier's gain code. -/
def pointTones (carriers : List Nat) (gains : List Nat) (points : List (Int × Int)) : List Tone :=
  List.zipWith (fun k (e : Nat × Int × Int) => ⟨k, e.1, e.2.1, e.2.2, 2⟩) carriers (gains.zip points)

/-- The gain codes that a table's sync symbol uses: 0 dB on a carrier without bits (R162). -/
def syncGains (t : Table) : List Nat :=
  t.map fun e => if e.1 = 0 then 12 else e.2

/-- A sync symbol with the pilot of a symbol index: 0 but in an alert (R162, R163, "Leaving Quiet"). The fine gains apply in form S;
DEDUCED: form −S is at 0 dB; see assumption 102. -/
def syncTones (t : Table) (minus : Bool) (s : Nat) : List Tone :=
  pilotTone s :: pointTones dataCarriers (if minus then List.replicate 59 12 else syncGains t) (syncPoints minus)

/-- A training symbol of index s (R222). -/
def trainingTones (s : Nat) (walsh : Option (Nat × Nat)) : List Tone :=
  pilotTone s :: pointTones dataCarriers (List.replicate 59 12) (trainingPoints s walsh)

/-- The carriers of a data symbol: bits dealt in ascending carrier order (R165, R173). -/
def dealTones : List Nat → Table → List Bool → List Tone
  | k :: ks, e :: t, u =>
    if e.1 = 0 then dealTones ks t u
    else
      let p := pointLevels e.1 (u.take e.1)
      ⟨k, e.2, p.1, p.2, pointEnergy e.1⟩ :: dealTones ks t (u.drop e.1)
  | _, _, _ => []

/-- A data symbol of index s with its bits. -/
def dataTones (t : Table) (u : List Bool) (s : Nat) : List Tone :=
  pilotTone s :: dealTones dataCarriers t u

/-- Symbol i of a sounding burst: carriers 4 to 63, carrier 16 among them, at 0 dB (R246). -/
def burstTones (i : Nat) : List Tone :=
  pointTones ((List.range 60).map (· + 4)) (List.replicate 60 12) ((soundingPoints.drop (60 * i)).take 60)

/-- A call tone: the reference point (1 + j)/√2 on its carrier at 0 dB, or its negative (R209). -/
def callTone (carrier : Nat) (negative : Bool) : Tone :=
  let v : Int := if negative then -1 else 1
  ⟨carrier, 12, v, v, 2⟩

/-- The points of a call frame's bits, relative to the point before it: true is negative (R209). -/
def callPoints : Bool → List Bool → List Bool
  | _, [] => []
  | p, u :: t => (p ^^ u) :: callPoints (p ^^ u) t

/-! ### Wake frames as samples (R266) -/

/-- Line samples of a chip. -/
def chipLength : Nat := 1500

/-- Sample n of an on chip: carriers 1 to 3 at 0 dB; their phases, in 1/128 turn, are unspecified. -/
def chipSample (phase : Nat → Fin 128) (n : Nat) : Int :=
  clip (roundDiv ((([1, 2, 3].map fun k => (levelOf 12 : Int) * cosAt (k * n + (phase k).val))).sum) (2 ^ 30))

/-- Sample n of a wake frame, and of the silence after it. -/
def wakeSample (phase : Nat → Fin 128) (chips : List Bool) (n : Nat) : Int :=
  if nth false chips (n / chipLength) then chipSample phase n else 0

/-- Samples of one wake frame with the 20 µs of silence after it (R262). -/
def wakeFrameLength : Nat := 644 * chipLength + 60000

/-- Sample n of a transmission of some equal wake frames. -/
def wakeAt (phase : Nat → Fin 128) (chips : List Bool) (count n : Nat) : Int :=
  if n < count * wakeFrameLength then wakeSample phase chips (n % wakeFrameLength) else 0

end Sys2Proof.Machine
end

