-- ==== Sys2Proof/Machine/Soft.lean ====
section
/-! DEFINITION. Soft values (R191), decisions and the error measures of R199, in exact arithmetic on equalised values given in units
of 2^-12, and levels in dB. -/

namespace Sys2Proof.Machine

/-! ### Numbers p + q√e -/

/-- Is p + q√e negative? -/
def surdNeg (p q : Int) (e : Nat) : Bool :=
  if p < 0 && q ≤ 0 then true
  else if 0 ≤ p && 0 ≤ q then false
  else if p < 0 then decide (q * q * e < p * p)
  else decide (p * p < q * q * e)

/-- ⌊(p + q√e) / r⌋: the root's part is rounded down first, which leaves the result exact. -/
def surdFloor (p q : Int) (e r : Nat) : Int :=
  let n := (q * q * e).toNat
  let t : Int := isqrt n
  (p + (if 0 ≤ q then t else if t * t = n then -t else -t - 1)) / r

/-- The nearest whole number to (p + q√e) / r, half away from zero. -/
def surdRound (p q : Int) (e r : Nat) : Int :=
  if surdNeg p q e then -surdFloor (-2 * p + r) (-2 * q) e (2 * r) else surdFloor (2 * p + r) (2 * q) e (2 * r)

/-! ### Decibels -/

/-- The largest k, from r up with n more bits, with k^1000 at most x. -/
def root1000From : Nat → Nat → Nat → Nat
  | 0, _, r => r
  | n + 1, x, r => root1000From n x (if (r + 2 ^ n) ^ 1000 ≤ x then r + 2 ^ n else r)

/-- ⌊2^30 · 10^(s/1000)⌋ for s from 0 to 999. -/
def tenth (s : Nat) : Nat :=
  root1000From 34 (2 ^ 30000 * 10 ^ s) 0

/-- N = 10^(−s/1000) for s in 0.01 dB, as a fraction (to 30 bits: DESIGN CHOICE; see assumption 84). -/
def noiseOf (s : Int) : Nat × Nat :=
  let q := s.fdiv 1000
  let d := tenth (s.fmod 1000).toNat
  if 0 ≤ q then (2 ^ 30, d * 10 ^ q.toNat) else (2 ^ 30 * 10 ^ (-q).toNat, d)

/-- The largest s below 2^n + lo with 10^s · d^1000 at most x^1000: bits n below the value found so far. -/
def logFrom : Nat → Nat → Nat → Nat → Nat
  | 0, _, _, r => r
  | n + 1, x, d, r => logFrom n x d (if 10 ^ (r + 2 ^ n) * d ^ 1000 ≤ x ^ 1000 then r + 2 ^ n else r)

/-- 10 log10(x/d) in 0.01 dB, rounded down; 0 where x or d is 0. -/
def centiBel (x d : Nat) : Int :=
  if x = 0 || d = 0 then 0
  else if d ≤ x then logFrom 15 x d 0
  else -(logFrom 15 d x 0 : Int)

/-! ### Constellation axes (R165) -/

/-- The levels of an axis of m bits with their Gray words. -/
def axisLevels (m : Nat) : List (Int × Nat) :=
  (List.range (2 ^ m)).map fun (n : Nat) => (2 * (n : Int) - ((2 ^ m : Nat) - 1 : Int), n ^^^ (n / 2))

/-- 4096 · E · |a/4096 − L/√E|², without the part that every level shares, as p + q√E. -/
def axisCost (a level : Int) : Int × Int :=
  (4096 * level * level, -2 * a * level)

/-- The least cost over some levels. -/
def leastCost (a : Int) (e : Nat) : List (Int × Nat) → Option (Int × Int)
  | [] => none
  | l :: t =>
    let c := axisCost a l.1
    match leastCost a e t with
    | none => some c
    | some d => if surdNeg (d.1 - c.1) (d.2 - c.2) e then some d else some c

/-- λ of bit i of an axis with m bits (R191): sat(rnd(2 (D1 − D0)/N), 31). -/
def axisSoft (a : Int) (e m : Nat) (noise : Nat × Nat) (i : Nat) : Int :=
  let l := axisLevels m
  match leastCost a e (l.filter fun x => !x.2.testBit i), leastCost a e (l.filter fun x => x.2.testBit i) with
  | some d0, some d1 =>
    let v := surdRound (2 * noise.2 * (d1.1 - d0.1)) (2 * noise.2 * (d1.2 - d0.2)) e (4096 * e * noise.1)
    max (-31) (min 31 v)
  | _, _ => 0

/-- The soft values of a carrier with b bits, u0 first, for an equalised value and the carrier's SNR, its fine gain included. -/
def carrierSoft (b : Nat) (y : Int × Int) (snr : Int) : List Int :=
  let e := pointEnergy b
  let n := noiseOf snr
  let bi := (b + 1) / 2
  ((List.range bi).map (axisSoft y.1 e bi n)) ++ ((List.range (b / 2)).map (axisSoft y.2 e (b / 2) n))

/-- A carrier's SNR with its fine gain: S_k of R199 is referred to 0 dB. -/
def gainedSnr (snr : Int) (code : Nat) : Int :=
  snr + 50 * (code : Int) - 600

/-- The soft values of a data symbol in stream order (R173, R191). -/
def symbolSoft (t : Table) (y : List (Int × Int)) (snr : List Int) : List Int :=
  (List.zipWith (fun (e : Nat × Nat) (v : (Int × Int) × Int) =>
    if e.1 = 0 then [] else carrierSoft e.1 v.1 (gainedSnr v.2 e.2)) t (y.zip snr)).flatten

/-! ### Decisions and errors (R199) -/

/-- A level in units of 2^-12: L/√E to the nearest. -/
def unitLevel (l : Int) (e : Nat) : Int :=
  surdRound 0 (4096 * l) e e

/-- The nearest point of an axis, in units of 2^-12; an axis without bits has the one level 0. -/
def nearestLevel (a : Int) (e m : Nat) : Int :=
  let better := fun (l : Int × Nat) (best : Int) =>
    let c := axisCost a l.1
    let d := axisCost a best
    if surdNeg (c.1 - d.1) (c.2 - d.2) e then l.1 else best
  unitLevel ((axisLevels m).foldr better (1 - (2 ^ m : Nat))) e

/-- The decided point of a carrier with b bits. -/
def decided (b : Nat) (y : Int × Int) : Int × Int :=
  (nearestLevel y.1 (pointEnergy b) ((b + 1) / 2), if b ≤ 1 then 0 else nearestLevel y.2 (pointEnergy b) (b / 2))

/-- |y − c|² in units of 2^-24. -/
def errorSq (y c : Int × Int) : Nat :=
  ((y.1 - c.1) * (y.1 - c.1) + (y.2 - c.2) * (y.2 - c.2)).toNat

/-- A 4-QAM point in units of 2^-12. -/
def unitPoint (p : Int × Int) : Int × Int :=
  (unitLevel p.1 2, unitLevel p.2 2)

/-- The errors of a symbol of known points. -/
def knownErrors (points : List (Int × Int)) (y : List (Int × Int)) : List Nat :=
  List.zipWith (fun p v => errorSq v (unitPoint p)) points y

/-- The errors of a data symbol's loaded carriers; 0 on the others. -/
def dataErrors (t : Table) (y : List (Int × Int)) : List Nat :=
  List.zipWith (fun (e : Nat × Nat) v => if e.1 = 0 then 0 else errorSq v (decided e.1 v)) t y

/-- S in 0.01 dB from a sum of squared errors in 2^-24 over some symbols, referred to 0 dB (R199). -/
def snrOf (errors symbols code : Nat) : Int :=
  centiBel (2 ^ 24 * symbols) errors - 50 * (code : Int) + 600

end Sys2Proof.Machine
end

