-- ==== Sys2Proof/Machine/Quality.lean ====
section
/-! DEFINITION. The quality, noise-floor and sounding records, and the link-state and wake records (Tables 10.9,
11.1, 11.2, 11.5, 12.6), and QUALITY_PERIOD_BOUNDARY. -/

namespace Sys2Proof.Machine

/-- The state codes of Table 10.1. -/
def LinkState.code : LinkState → Nat
  | .off => 0
  | .search => 1
  | .exchange => 2
  | .assemble => 3
  | .train1 => 4
  | .train2 => 5
  | .train3 => 6
  | .train4 => 7
  | .train5 => 8
  | .data => 9
  | .quiet => 0xA
  | .sleep => 0xB
  | .hold => 0xC
  | .fast => 0xD
  | .quarantine => 0xE

/-- DATA or QUIET: the states that count in a quality record (R236). -/
def LinkState.counts : LinkState → Bool
  | .data | .quiet => true
  | _ => false

/-- The channel stands in a state, and is not on its way to SEARCH: between the event and the epoch boundary it keeps
its old code and is silent (R213, see assumption 20). -/
def Chan.stands (x : Chan) (l : LinkState) : Bool :=
  x.link == l && x.bring.toSearch.isNone

/-! ### Groups (R15, R197, R218) -/

/-- Group size 2^LG.000, pair offset, and members in order of offset. -/
def State.groupSize (s : State) (c : ChanId) : Nat :=
  2 ^ s.elem 0x0400 c

def State.pairOffset (s : State) (c : ChanId) : Nat :=
  c.val % s.groupSize c

def State.members (s : State) (c : ChanId) : List ChanId :=
  allChans.filter fun d => d.val / s.groupSize c == c.val / s.groupSize c

/-- A channel in data mode, or on its way back to it with its place kept (R392). -/
def Chan.alive (x : Chan) : Bool :=
  x.stands .data || x.stands .quiet || x.stands .fast || x.stands .hold

/-- The channels of a channel's logical link: itself, and the other live members of its bonded group (R221). -/
def State.bond (s : State) (c : ChanId) : List ChanId :=
  if (s.chan c).partner.bondedLink then
    (s.members c).filter fun d => d == c || ((s.chan d).partner.bondedLink && (s.chan d).alive)
  else [c]

/-- The channel that holds a logical link's byte streams: its first live member. -/
def State.owner (s : State) (c : ChanId) : ChanId :=
  (((s.bond c).filter fun d => (s.chan d).alive).head?).getD c

/-- Margin M in 0.1 dB: the override, or CH.007 (R470). -/
def State.marginM (s : State) (c : ChanId) : Nat :=
  ((s.chan c).load.override).getD (s.elem 0x0307 c)

/-! ### Margins and bytes -/

/-- A carrier's margin S + g − (need(b) − M) in 0.1 dB, rounded down. -/
def carrierMargin (e : Nat × Nat) (snr : Int) : Int :=
  (snr + 50 * (e.2 : Int) - 600 - gap - needStep e.1).fdiv 10

def minOf : List Int → Option Int
  | [] => none
  | x :: t => match minOf t with | some y => some (min x y) | none => some x

/-- The smallest margin over the loaded carriers; 0 where none is loaded. -/
def minMargin (t : Table) (snr : List Int) : Int :=
  (minOf (((t.zip snr).filter fun e => e.1.1 != 0).map fun e => carrierMargin e.1 e.2)).getD 0

/-- The SNR bytes: 0.25 dB steps, 0xFF before the first computation. -/
def snrBytes (rx : Rx) : Bytes :=
  if rx.snrValid then fit 59 (rx.snr.map fun v => BitVec.ofNat 8 (min 254 (v.fdiv 25).toNat))
  else List.replicate 59 0xFF

/-- B of a direction: the table's while in data mode, else 0. -/
def bInUse (l : LinkState) (t : Table) : Nat :=
  if l.counts then tableB t else 0

/-- A counter that has reached the largest value of its field (R238). -/
def Quality.saturated (q : Quality) : Bool :=
  (([q.clean, q.corrected, q.uncorrectable, q.retransmitted, q.delivered, q.unsettled].any
    fun n => decide (2 ^ 32 - 1 ≤ n)) ||
   [q.counted, q.syncS, q.syncMinus, q.missed, q.unarmed].any fun n => decide (65535 ≤ n))

def sat32 (n : Nat) : Bytes := le 4 (min n (2 ^ 32 - 1))
def sat16 (n : Nat) : Bytes := le 2 (min n 65535)

/-- The EVM in 0.1 dB: of the symbols that came one by one, else as measured (R239). -/
def Quality.evm (q : Quality) : Int :=
  if q.evmCount = 0 then q.last.evm else (centiBel q.evmSum (2 ^ 24 * q.evmCount)).fdiv 10

/-! ### The noise floor (R241) -/

/-- The power in 0.01 dBm at the balls of a sum of |X_k|² over n symbols, the gain (0.5 dB steps) removed: a carrier of transform value X
has the mean square 2 |X|²/128², one converter step is the full scale over 2^15, and the load is 100 Ω. -/
def powerAt (sum n gain : Nat) : Int :=
  centiBel (2 * sum * Config.fullScale ^ 2) (n * 2 ^ 104 * 10 ^ 17) - 50 * (gain : Int)

/-- A noise-floor byte (Table 11.2): −180 dBm/Hz in steps of 0.5, over 23.4375 MHz (73.70 dB above 1 Hz). -/
def noiseByte (sum n gain : Nat) : Byte :=
  if n = 0 then 0xFF else BitVec.ofNat 8 (min 254 ((powerAt sum n gain - 7370 + 18000).fdiv 50).toNat)

/-- The bytes of a measurement. -/
def NoiseSum.bytes (m : NoiseSum) (gain : Nat) : Bytes :=
  m.power.map fun p => noiseByte p m.symbols gain

/-- What was averaged has been reported. -/
def NoiseSum.restart (m : NoiseSum) : NoiseSum :=
  { m with power := List.replicate 59 0, symbols := 0, periods := 0 }

/-- The measured fields of a record: what came symbol by symbol in place of what came with a command. -/
def Chan.measured (x : Chan) (m : QualityMeasured) : QualityMeasured :=
  let m1 := if x.air.aligned then { m with freqOffset := x.air.offset } else m
  if x.air.noise.periods = 0 then m1
  else { m1 with noisePeriods := x.air.noise.periods, noiseSymbols := x.air.noise.symbols, noise := x.air.noise.bytes x.rx.gain }

/-- The measured fields of a closing record: no command brings them, so what did not come symbol by symbol is free. -/
def State.closing (s : State) : QualityMeasured :=
  let n := s.fresh
  ⟨(Config.evm n).toInt, (Config.echo n).toInt, (Config.ppm n).toInt, (Config.quietPeriods n).toNat, (Config.quietSymbols n).toNat,
    (List.range 59).map (Config.quietNoise n)⟩

/-- Put the measured fields in place. -/
def State.measure (s : State) (c : ChanId) (m : QualityMeasured) : State :=
  s.modChan c fun x => { x with quality := { x.quality with last := x.measured m } }

/-- A quality record's bytes after its header (Table 11.1). -/
def State.qualityBody (s : State) (c : ChanId) (shortened : Bool) : Bytes :=
  let x := s.chan c
  let q := x.quality
  le 1 c.val ++ le 1 x.link.code ++ sat16 q.counted ++ leInt 2 q.evm ++ le 2 (bInUse x.link x.load.rxTable) ++
  sat32 q.clean ++ sat32 q.corrected ++ sat32 q.uncorrectable ++ sat32 q.retransmitted ++ sat32 q.delivered ++
  sat32 q.unsettled ++ sat16 q.syncS ++ sat16 q.syncMinus ++ sat16 q.missed ++ sat16 q.unarmed ++
  le 2 (bInUse x.link x.load.txTable) ++ le 2 (s.marginM c) ++ leInt 2 (minMargin x.load.rxTable x.rx.snr) ++
  le 1 x.rx.gain ++
  le 1 (bit x.rx.narrow + 2 * bit x.load.armed.isSome + 4 * bit shortened + 8 * bit q.saturated +
    16 * bit x.partner.fext) ++
  leInt 2 q.last.residualEcho ++ leInt 2 q.last.freqOffset ++ le 4 s.clock.sf.toNat ++
  snrBytes x.rx ++ fit 59 (tableBytes x.load.rxTable) ++ zeros 10

/-- A noise-floor record's bytes after its header (Table 11.2). -/
def noiseBody (c : ChanId) (source result periods symbols : Nat) (noise : Bytes) : Bytes :=
  le 1 c.val ++ le 1 source ++ le 1 result ++ le 1 0 ++ le 2 periods ++ zeros 2 ++ le 4 symbols ++ fit 59 noise ++
  zeros 17

/-- Write a channel's quality record and reset its counters; with it the noise-floor record of a channel in QUIET of
which at least one quiet period was averaged (R236 to R238, R243). -/
def State.writeQuality (s : State) (c : ChanId) (shortened : Bool) : State :=
  let x := s.chan c
  let p := s.portOf c
  let m := x.quality.last
  let s1 := s.record p 3 (s.qualityBody c shortened)
  let s2 := if x.link = .quiet && 0 < m.noisePeriods then
      s1.record p 4 (noiseBody c 1 0 m.noisePeriods m.noiseSymbols m.noise) else s1
  s2.modChan c fun y => { y with
    quality := { Quality.reset with last := { m with noisePeriods := 0, noiseSymbols := 0 } }
    air := { y.air with noise := y.air.noise.restart } }

/-- The reporting period P (LQ.000). -/
def State.period (s : State) (c : ChanId) : Nat :=
  s.elem 0x0500 c

/-- The closing record of a channel that leaves DATA, QUIET or FAST for good (R237), but for the superframe that ends at
a period boundary, whose boundary record covers it (corner after R239). -/
def State.closeQuality (s : State) (c : ChanId) : State :=
  let p := s.period c
  if (s.chan c).quality.counted = 0 then s
  else if p != 0 && (s.clock.sf.toNat + 1) % 2 ^ 48 % p == 0 then s
  else (s.measure c s.closing).useFresh.writeQuality c true

/-- QUALITY_PERIOD_BOUNDARY: the telemetry writer assembles the record in its clearings. -/
def execQualityPeriodBoundary (c : ChanId) (m : QualityMeasured) (s : State) : Host.Outcome State Fault Refusal :=
  let p := s.period c
  if s.runs && s.mayRun 87 4 && p != 0 && s.clock.sf.toNat % p == 0 && decide (0 < (s.chan c).quality.counted) then
    .next ((s.measure c m).writeQuality c false)
  else .next s

/-! ### The link-state record (Table 10.9) -/

/-- Group status byte. -/
def State.groupStatus (s : State) (c : ChanId) : Nat :=
  let r := (s.chan c).partner
  r.group + 4 * bit r.fext + 8 * bit r.bondedLink + 16 * s.pairOffset c

/-- A link-state record of a channel that has entered its state from `old`. DESIGN CHOICE: on a later entry to SEARCH the partner fields
keep what the former exchange gave; see assumption 95. -/
def State.linkRecord (s : State) (c : ChanId) (old : LinkState) (reason : Nat) : State :=
  let x := s.chan c
  let r := x.partner
  s.record (s.portOf c) 2
    (le 1 c.val ++ le 1 (x.link.code + 16 * old.code) ++ le 1 reason ++ le 1 (s.groupStatus c) ++ le 2 r.node.toNat ++
     le 1 r.role.toNat ++ le 1 r.chan ++ le 2 (bInUse x.link x.load.txTable) ++ le 2 (bInUse x.link x.load.rxTable) ++
     le 2 (if x.link = .data && (old == .train5 || old == .fast) then s.since x.train.began else 0) ++
     le 2 (min x.bring.rounds 65535) ++ le 4 r.image.toNat ++ zeros 4)

/-- Address of class L (Table 18.6). -/
def State.addrLink (s : State) (c : ChanId) (reason : Nat) : Bytes :=
  le 1 (s.chan c).link.code ++ le 1 reason ++ le 2 (s.chan c).partner.node.toNat

/-! ### The wake record (Table 12.6) -/

/-- A wake record's bytes after its header. -/
def State.wakeBody (s : State) (c : Option ChanId) (event device : Nat) (ident : BitVec 16) (data : Bytes)
    (elapsed : Nat) : Bytes :=
  let w := match c with | some x => (s.chan x).wake | none => Wake.reset
  le 1 (match c with | some x => x.val | none => 0xFF) ++ le 1 event ++ le 1 device ++
  le 1 (bit (w.failed == 255 || w.notMatching == 255)) ++ le 2 ident.toNat ++ le 1 w.failed ++ le 1 w.notMatching ++
  fit 32 data ++ le 4 elapsed ++ zeros 12

/-- Write a channel's wake record and clear its counters (R268). -/
def State.writeWake (s : State) (c : ChanId) (event device : Nat) (ident : BitVec 16) (data : Bytes) (elapsed : Nat) :
    State :=
  (s.record (s.portOf c) 6 (s.wakeBody (some c) event device ident data elapsed)).modChan c fun x =>
    { x with wake := { x.wake with failed := 0, notMatching := 0 } }

end Sys2Proof.Machine
end

