-- ==== Sys2Proof/Machine/Operations.lean ====
section
/-! DEFINITION. Outstanding transport operations: how each one ends, what becomes of lost packets, and the first failure
kept for a flush (R370 to R374, R388, R396). -/

namespace Sys2Proof.Machine

def State.op (s : State) (txn : BitVec 32) : Option Op :=
  s.transport.ops.find? fun o => o.txn == txn

def State.modTransport (s : State) (f : Transport → Transport) : State :=
  { s with transport := f s.transport }

def State.modOp (s : State) (txn : BitVec 32) (f : Op → Op) : State :=
  s.modTransport fun t => { t with ops := updateIf (fun o => o.txn == txn) f t.ops }

def State.modRetry (s : State) (c : ChanId) (f : Retry → Retry) : State :=
  s.modChan c fun x => { x with retry := f x.retry }

/-- The transaction of an item (Table 15.1): its queue, and the low 22 bits of its index as operation number (DESIGN
CHOICE, assumption 30). -/
def txnOf (p : Port) (q : Fin 512) (index : BitVec 32) : BitVec 32 :=
  BitVec.ofNat 32 (queueKey p q + 1024 * (index.toNat % 2 ^ 22))

/-- The queue of a transaction of this device. -/
def txnQueue (txn : BitVec 32) : Port × Fin 512 :=
  keyQueue (txn.toNat % 1024)

/-- The item index a transaction of this device stands for: the latest one fetched with that operation number. -/
def State.txnItem (s : State) (txn : BitVec 32) : BitVec 32 :=
  let k := txnQueue txn
  let last := (s.queue k.1 k.2).consumed
  last - BitVec.ofNat 32 ((last.toNat + 2 ^ 32 - txn.toNat / 1024) % 2 ^ 22)

/-- Chunks of an operation (R341, R367). -/
def Op.chunks (o : Op) : Nat :=
  ceilDiv o.length 4096

/-- Bytes of chunk i. -/
def Op.chunkLen (o : Op) (i : Nat) : Nat :=
  min 4096 (o.length - 4096 * i)

/-- Take the packets of an operation that are not begun out of a channel's stream. -/
def Retry.dropPackets (txn : BitVec 32) (r : Retry) : Retry :=
  { r with packets := r.packets.filter fun p => p.begun || !(p.op.any fun o => o.txn == txn) }

/-- Take an operation out of the engine with its packets. -/
def State.removeOp (s : State) (o : Op) : State :=
  ((s.modTransport fun t => { t with ops := t.ops.filter fun x => !(x.txn == o.txn) }).modRetry (s.owner o.chan)
    (Retry.dropPackets o.txn)).modRetry (s.owner o.chan2) (Retry.dropPackets o.txn)

/-- An operation ends and its item completes. -/
def State.endOp (s : State) (o : Op) (code : Byte) (detail : Nat) : State :=
  (s.removeOp o).complete o.port o.queue o.item code (BitVec.ofNat 32 detail) (some o.chan)

/-- A relay chunk fails: no further read or write above the first failed chunk (R396). -/
def Op.failRelay (o : Op) (code : Byte) (chunk : Nat) : Op :=
  match o.failed with
  | some f => if f.2 ≤ chunk then o else { o with failed := some (code, chunk) }
  | none => { o with failed := some (code, chunk) }

/-- A chunk of an operation fails with a code: the item completes with the chunk's index (R371); a relay first writes
what lies below and flushes. -/
def State.failChunk (s : State) (o : Op) (code : Byte) (chunk : Nat) : State :=
  if o.kind = .relay then s.modOp o.txn fun x => x.failRelay code chunk
  else s.endOp o code (if o.kind = .atomic || o.kind = .flush then 0 else chunk)

/-- Record a failure against the pair of queue and channel, the first since its last flush (R372). -/
def State.recordFailure (s : State) (p : Port) (q : Fin 512) (c : ChanId) (index : BitVec 32) : State :=
  let d := s.owner c
  if s.transport.failures.any fun f => f.1 == p && f.2.1 == q && f.2.2.1 == d then s
  else s.modTransport fun t => { t with failures := t.failures ++ [(p, q, d, index)] }

def Leg.chunk : Leg → Nat
  | .request i => i
  | .data i => i
  | .single => 0

/-- A write or send that had completed is lost: recorded for the next flush (R372, R388 step 4). -/
def State.loseCompleted (s : State) (c : ChanId) (txn : BitVec 32) : State :=
  let k := txnQueue txn
  let index := s.txnItem txn
  (s.recordFailure k.1 k.2 c index).occurQueue 18 k.1 k.2 (addrItem index.toNat 0 0x11 (some c))

/-- An operation in progress had a byte in a codeword that is lost: it fails with code 0x11. -/
def State.loseRunning (s : State) (r : OpRef) : State :=
  match s.op r.txn with
  | some o => s.failChunk o 0x11 r.leg.chunk
  | none => s

def loseRunningList : List OpRef → State → State
  | [], s => s
  | r :: t, s => loseRunningList t (s.loseRunning r)

def loseCompletedList (c : ChanId) : List (BitVec 32) → State → State
  | [], s => s
  | x :: t, s => loseCompletedList c t (s.loseCompleted c x)

def OpRef.isData (r : OpRef) : Bool :=
  match r.leg with | .data _ => true | _ => false

/-- The operations with bytes in lost codewords (R388 step 4, R389): those in progress fail; those that had completed
before are recorded, each once. -/
def State.loseRefs (c : ChanId) (refs : List OpRef) (s : State) : State :=
  let old := ((refs.filter fun r => r.isData && (s.op r.txn).isNone).map (·.txn)).eraseDups
  loseCompletedList c old (loseRunningList refs s)

/-- The first chunk of an operation that is not done: the detail of an operation that its link ends (R370, R371). A relay gives its
chunks placed (R396), an item without chunks 0. DEDUCED: a write, send or read gives the first chunk that is not on its way, or is out
or to be sent again; one whose chunks are all done gives 0; see assumption 109. -/
def Op.firstOpen (o : Op) : Nat :=
  match o.kind with
  | .relay => o.nextWrite
  | .atomic | .flush => 0
  | _ =>
    let again := (o.resends.filter fun r => r.2.2.isSome).map (·.1)
    let n := (o.out.map (·.1) ++ again ++ o.prep.toList.map (·.chunk)).foldl min o.next
    if n < o.chunks then n else 0

/-- End every operation that needs a channel, with code 0x0E (R370). -/
def endOps : List Op → State → State
  | [], s => s
  | o :: t, s => endOps t (s.endOp o 0x0E o.firstOpen)

def State.endChanOps (s : State) (c : ChanId) : State :=
  endOps (s.transport.ops.filter fun o => o.chan == c || (o.kind == .relay && o.chan2 == c)) s

/-- A message in reception is abandoned: its receive item completes with code 0x11 (R378); a feed frame's item stays
claimed for its due time (corner after R408); a drain frame's item in progress completes with the bytes placed
(R412). -/
def State.abandonMessage (s : State) (m : Message) : State :=
  let s1 := s.modTransport fun t => { t with messages := t.messages.filter fun x => !(x == m) }
  if m.dropped then s1
  else
    match (s.role m.port m.queue).stream, m.item with
    | 0, some i => s1.complete m.port m.queue i 0x11 0 (some m.chan)
    | 1, some i =>
      if (s.queue m.port m.queue).stream.running then s1 else s1.complete m.port m.queue i 0x11 0 (some m.chan)
    | 2, some i =>
      if 0 < m.inItem then s1.complete m.port m.queue i 0x11 (BitVec.ofNat 32 m.inItem) (some m.chan) else s1
    | _, _ => s1

def abandonAll : List Message → State → State
  | [], s => s
  | m :: t, s => abandonAll t (s.abandonMessage m)

/-- Abandon every message in reception on a channel (R388, R391). -/
def State.abandonChan (s : State) (c : ChanId) : State :=
  abandonAll (s.transport.messages.filter fun m => m.chan == c) s

end Sys2Proof.Machine
end

