-- ==== Sys2Proof/Machine/LinkStates.lean ====
section
/-! DEFINITION. Moving a channel between link states: what each entry records, counts, ends and completes (R208, R230 to
R237, R370, R391, Table 10.8). -/

namespace Sys2Proof.Machine

/-! ### Leaving data mode -/

/-- Operations in codewords, those in no codeword left out. -/
def refsIn (l : List Codeword) : List OpRef :=
  l.flatMap (·.ops)

/-- The unacknowledged codewords of a channel. -/
def Retry.unacked (r : Retry) : List Codeword :=
  r.kept ++ r.retain

/-- A message that outlives a stay in FAST: restarts, discard notices and stream signals, not the messages of training,
loading, notices, Quiet, nor resume and pad. -/
def lasting (m : Bytes) : Bool :=
  decide (0x40 ≤ field m 0 1) && field m 0 1 != 0x41 && field m 0 1 != 0x43

/-- The exit from data mode to FAST or HOLD keeps what the resume exchange needs (R391). -/
def Retry.suspend (r : Retry) : Retry :=
  { r with
    kept := r.kept ++ r.retain, retain := [], resend := [], oldNext := r.next, oldExpect := r.expect,
    valid := r.resumption == .complete, current := none, lm := r.lm.filter lasting }

/-- The restart message. -/
def restartMessage : Bytes := le 1 0x40

/-- Put a link-management message in front of those that wait. -/
def Retry.sayFirst (m : Bytes) (r : Retry) : Retry :=
  { r with lm := m :: r.lm }

/-- Send a link-management message. -/
def State.sendLm (s : State) (c : ChanId) (m : Bytes) : State :=
  s.modRetry c fun r => { r with lm := r.lm ++ [m] }

/-- Take packets whose begun part is lost out of the stream; their operations. -/
def begunRefs (r : Retry) : List OpRef :=
  (r.packets.filter (·.begun)).filterMap (·.op)

def Retry.dropBegun (r : Retry) : Retry :=
  { r with packets := r.packets.filter fun p => !p.begun }

/-- A restart on every member in data mode, and what was unacknowledged on the logical link is lost (R388, R392). -/
def restartAll : List ChanId → State → State
  | [], s => s
  | d :: t, s => restartAll t (if (s.chan d).link.counts then s.modRetry d (Retry.sayFirst restartMessage) else s)

def State.restartBond (s : State) (c : ChanId) (members : List ChanId) : State :=
  let owner := s.owner c
  let refs := (members.flatMap fun d => refsIn (s.chan d).retry.unacked) ++ begunRefs (s.chan owner).retry
  State.loseRefs c refs (restartAll members (s.modRetry owner Retry.dropBegun))

/-- A logical link's byte streams move to another member. -/
def State.moveStream (s : State) (src dst : ChanId) : State :=
  let r := (s.chan src).retry
  (s.modRetry dst fun x => { x with
    packets := x.packets ++ r.packets, partial' := r.partial', origin := r.origin, hunting := r.hunting, bad := r.bad,
    merge := r.merge, arrived := r.arrived }).modRetry src fun x => { x with
    packets := [], partial' := [], hunting := none, bad := [], merge := [], arrived := [] }

/-- A channel's exit from data mode for good: its retain area, partial packet, and messages in reception are discarded
and its operations end (R370, R391); a member of a bonded link that goes on leaves the link to the others (R392). -/
def State.dropLink (s : State) (c : ChanId) : State :=
  let bond := s.bond c
  let owner := s.owner c
  let s1 := match bond.filter fun d => d != c with
    | [] => (s.endChanOps c).abandonChan c
    | d :: _ =>
      let s2 := if (s.chan c).retry.unacked.any (fun w => w.kind == 1) then s.restartBond c bond else s
      if owner = c then s2.moveStream c d else s2
  s1.modChan c fun x => { x with retry := { Retry.reset with clock := x.retry.clock } }

/-! ### Entering a state -/

/-- States whose entry ends data mode for good. -/
def LinkState.ends : LinkState → Bool
  | .search | .off | .sleep | .quarantine => true
  | _ => false

/-- Entries that write a link-state record (R234, Table 12.6). -/
def LinkState.recorded : LinkState → Bool
  | .search | .off | .quarantine | .hold | .fast | .data | .quiet | .sleep => true
  | _ => false

/-- The channel fault kind that a transition counts toward (Table 18.1, kinds 6 and 8 to 10). -/
def moveKind (old new : LinkState) (reason : Nat) : Option Nat :=
  if new = .fast && old.counts && (reason == 3 || reason == 0xE || reason == 0xF || reason == 0x25) then some 8
  else if new = .search && (reason == 4 || reason == 0xC || reason == 0x27) then some 9
  else if new = .search && reason == 0xD then some 10
  else if new = .search && (reason == 6 || reason == 7) then some 6
  else none

/-- Complete an item that waits for a channel with a result. -/
def State.settleItem (s : State) (i : Option (Port × Fin 512 × BitVec 32)) (result : Nat) : State :=
  match i with
  | some x => s.result x.1 x.2.1 x.2.2 result 0 0
  | none => s

/-- Items that wait for a channel's state complete as it is reached (Table 14.8); a down or sleep item that waits for
another state, which this one rules out, is refused. FAST completes a channel-up item only. -/
def State.settle (s : State) (c : ChanId) (new : LinkState) : State :=
  let w := (s.chan c).wake
  let s1 := (s.settleItem w.upItem 0).modChan c fun x => { x with wake := { x.wake with upItem := none } }
  if new = LinkState.fast then s1
  else
    ((s1.settleItem w.downItem (if new = LinkState.off then 0 else 2)).settleItem w.sleepItem
      (if new = LinkState.sleep then 0 else 2)).modChan c fun x =>
        { x with wake := { x.wake with downItem := none, sleepItem := none } }

/-- The settings of R181, as they stand. -/
def Chan.store (x : Chan) : Stored :=
  { gain := x.rx.gain, narrow := x.rx.narrow, preEq := x.rx.preEq, echo := x.rx.echo, next := x.rx.next,
    matrix := x.rx.matrix, txTable := x.load.txTable, rxTable := x.load.rxTable, partner := x.partner.node }

/-- The channel's own fields on entering a state; one that leaves DATA or QUIET stores its settings (R181). -/
def Chan.enter (x : Chan) (new : LinkState) : Chan :=
  { x with
    link := new
    previous := x.link
    stored := if x.link.counts then some x.store else x.stored
    bring := { x.bring with toSearch := none, leaving := if new = .data then x.bring.leaving else none }
    wake := { x.wake with
      restoring := false
      armed := new == .sleep
      falseSince := if new = .off || new = .sleep || new = .quarantine then none else x.wake.falseSince
      sending := none }
    quiet := { x.quiet with
      mode := if new = .sleep then false else x.quiet.mode
      requested := none, txEnded := new == .quiet, rxEnded := new == .quiet, ending := false, refreshing := false
      alert := none, heard := none, seenEnd := none }
    air := if new = .data || new = .quiet || new = .exchange || new = .assemble then x.air
      else { x.air with call := none, callRef := false, misses := 0 } }

/-- A sounding that runs on the channel in another state than the new one is abandoned (R251). -/
def State.breakSounding (s : State) (c : ChanId) (new : LinkState) : State :=
  { s with tasks := s.tasks.map fun t =>
      match t.kind with
      | .sounding d _ =>
        if d = c && t.started.isSome && t.broken == 0 && t.state != new then { t with broken := 3 } else t
      | _ => t }

/-- Does an entry settle waiting items? -/
def LinkState.settles : LinkState → Bool
  | .search | .off | .sleep | .quarantine | .fast => true
  | _ => false

/-- A channel-up item whose wake frames are cut short completes as done (R262). -/
def State.stopSending (s : State) (c : ChanId) : State :=
  match (s.chan c).wake.sending with
  | some (_, _, p, q, item) =>
    (s.modChan c fun x => { x with wake := { x.wake with sending := none } }).result p q item 0 0 0
  | none => s

/-- Enter a state with a reason: the closing quality record, the end of data mode, the entry, its record, its fault
kind, the wake record of a false wake (R265), and the items it completes. -/
def State.move (s : State) (c : ChanId) (new : LinkState) (reason : Nat) : State :=
  let old := (s.chan c).link
  let s1 := if new.ends && (old.counts || old == .fast) then s.closeQuality c else s
  let s2 := if new.ends then s1.dropLink c
    else if old.counts && (new == .fast || new == .hold) then s1.modRetry c Retry.suspend else s1
  let s3 := ((s2.stopSending c).modChan c fun x => x.enter new).breakSounding c new
  let s4 := if new.recorded then s3.linkRecord c old reason else s3
  let s5 := match moveKind old new reason with
    | some k => s4.occurChan k c (s4.addrLink c reason)
    | none => s4
  let s6 := if new = .sleep && reason == 0x26 then
      (s5.occurChan 7 c (s5.addrLink c reason)).writeWake c 2 0 0 [] (s.elem 0x0603 c)
    else s5
  if new.settles then s6.settle c new else s6

/-! ### Notices (R230, R261) -/

def downNotice (reason : Nat) : Bytes := le 1 0x21 ++ le 1 reason

def sleepNotice : Bytes := le 1 0x32

/-- Is a codeword stream running that can carry a notice (R230)? -/
def Chan.carries (x : Chan) : Bool :=
  x.stands .data || x.stands .quiet || (x.stands .fast && x.train.fast == .f3)

/-- A channel that enters QUARANTINE when its quarantine has been released meanwhile goes on to SEARCH at the next epoch boundary
(R434). -/
def State.onRelease (s : State) (c : ChanId) : State :=
  if (s.chan c).link = .quarantine && !(s.chan c).quarantined then
    s.modChan c fun x => { x with bring := { x.bring with toSearch := some 1 } }
  else s

/-- The transition itself: SEARCH waits for the epoch boundary (R213), but a held sleep item then sends the channel to
SLEEP at once (R261). -/
def State.arrive (s : State) (c : ChanId) (target : LinkState) (reason : Nat) : State :=
  if target = .search then
    if (s.chan c).wake.sleepItem.isSome then s.move c .sleep 0x20
    else s.modChan c fun x => { x with bring := { x.bring with toSearch := some (BitVec.ofNat 8 reason), leaving := none } }
  else (s.move c target reason).onRelease c

/-- Send four notices and then leave (R230, R261). DESIGN CHOICE: a departure that meets one whose notices are already being sent
replaces its target and reason, and the notices queued stay as they are; see assumption 87. -/
def State.leaveNoticed (s : State) (c : ChanId) (notice : Bytes) (target : LinkState) (reason : Nat) : State :=
  let x := s.chan c
  match x.bring.leaving with
  | some l =>
    if target = LinkState.search then s
    else s.modChan c fun y => { y with bring := { y.bring with leaving := some (target, reason, l.2.2) } }
  | none =>
    (s.modRetry c fun r => { r with lm := [notice, notice, notice, notice] ++ r.lm }).modChan c fun y =>
      { y with bring := { y.bring with leaving := some (target, reason, 4) } }

/-- Leave a state for OFF, QUARANTINE or SEARCH: after a down notice where one can be sent (R230). -/
def State.leave (s : State) (c : ChanId) (target : LinkState) (reason : Nat) : State :=
  if (s.chan c).carries then s.leaveNoticed c (downNotice reason) target reason else s.arrive c target reason

/-- One of the four notices has been sent. -/
def State.noticeSent (s : State) (c : ChanId) : State :=
  match (s.chan c).bring.leaving with
  | some l =>
    if l.2.2 ≤ 1 then s.arrive c l.1 l.2.1
    else s.modChan c fun x => { x with bring := { x.bring with leaving := some (l.1, l.2.1, l.2.2 - 1) } }
  | none => s

/-! ### Entering DATA, FAST and HOLD -/

def resumeMessage (valid : Bool) (expected : BitVec 12) : Bytes :=
  le 1 0x41 ++ le 1 (bit valid) ++ le 2 expected.toNat

/-- A codeword not yet sent, with no operations in it. -/
def freshCodeword (seq : BitVec 12) (kind : Nat) (start : Nat) (payload : Bytes) (ops : List OpRef) : Codeword :=
  ⟨seq, kind, start, fit 251 payload, none, none, ops⟩

/-- A transmit stream begins (R174): seed, sequence 0, nothing in course. After training there is no resume exchange;
after FAST the first sequenced codeword, numbered 0, is the resume message (R391). -/
def Retry.beginTx (offset : Nat) (resume : Bool) (r : Retry) : Retry :=
  let w := freshCodeword 0 2 255 (resumeMessage r.valid r.oldExpect) []
  { r with
    next := if resume then 1 else 0
    retain := if resume then [w] else []
    resend := if resume then [w] else []
    kept := if resume then r.kept else []
    resumption := if resume then .running false false else .complete
    lm := if resume then r.lm.filter lasting else []
    current := none, history := [], txScr := scramblerSeed offset, ackOut := 0 }

/-- A training stream begins (R223): initialised under R174, with nothing of data mode touched. -/
def Retry.beginTraining (offset : Nat) (r : Retry) : Retry :=
  { r with next := 0, current := none, txScr := scramblerSeed offset, ackOut := 0 }

/-- A received stream begins in a received superframe with B bits per symbol. After FAST the partial packet and the
merge buffer are kept (R391, R392). -/
def Retry.beginRx (offset : Nat) (resume : Bool) (frame b : Nat) (r : Retry) : Retry :=
  { r with
    expect := 0, late := none, rxScr := scramblerSeed offset, posSeq := 0, rxFrame := frame, rxPos := 0, rxB := b
    partial' := if resume then r.partial' else []
    hunting := if resume then r.hunting else none
    merge := if resume then r.merge else [] }

/-- Fast retrain begins from the stored settings (R181, R232), with the manual gain set in manual mode (R183); the holdoff of an echo
retrain goes on (R193). -/
def Chan.restore (x : Chan) (v : Stored) (manual : Option Nat) : Chan :=
  { x with
    rx := { x.rx with
      gain := manual.getD v.gain, narrow := v.narrow, preEq := v.preEq, echo := v.echo, next := v.next
      matrix := v.matrix, retraining := none, gainDue := none
      marked := if manual.isSome then 2 else 0 }
    load := { x.load with
      rxTable := v.rxTable, txTable := v.txTable, armed := none, toApply := none, waiting := none, applied := none }
    air := { x.air with aligned := false, soft := [], used := 0 } }

/-- CH.004 in manual mode (R469). -/
def State.manualGain (s : State) (c : ChanId) : Option Nat :=
  if s.elem 0x0303 c = 1 then some (s.elem 0x0304 c) else none

/-- F1 begins (R232); a channel without stored settings goes to SEARCH with reason 0x0C instead, or with a reason of its
own (R264). -/
def State.beginFast (s : State) (c : ChanId) (reason without : Nat) (silent answer : Option Sf) : State :=
  match (s.chan c).stored with
  | none => s.arrive c .search without
  | some v =>
    (s.move c .fast reason).modChan c fun x => { x.restore ((x.stored).getD v) (s.manualGain c) with train :=
      { Train.reset with
        fast := .f1, phaseStart := s.clock.sf, began := s.clock.sf, silentSince := silent, answer := answer } }

/-- Enter FAST from DATA, QUIET or HOLD, with the superframe of the first missed sync symbol (R229). A channel that was
sending notices ahead of another state goes there at once, since F1 carries none (R230); a sleep item is held (R261). -/
def State.enterFast (s : State) (c : ChanId) (reason : Nat) (silent : Sf) : State :=
  match (s.chan c).bring.leaving with
  | some (target, why, _) =>
    if target = .sleep && (s.chan c).wake.sleepItem.isSome then s.beginFast c reason 0xC (some silent) none
    else s.arrive c target why
  | none => s.beginFast c reason 0xC (some silent) none

/-- The offset whose scrambler seed a channel uses (R170). -/
def State.seedOffset (s : State) (c : ChanId) : Nat :=
  if (s.chan c).partner.group = 1 then s.pairOffset c else 0

/-- A channel in DATA, QUIET or FAST enters HOLD. DEDUCED: one that is sending notices ahead of another state sends no more of them
(R230) and goes there at once, but for a sleep item's, which waits for DATA again; see assumption 86. -/
def State.holdLink (s : State) (c : ChanId) : State :=
  match (s.chan c).bring.leaving with
  | some (target, why, _) =>
    if target = .sleep && (s.chan c).wake.sleepItem.isSome then s.move c .hold 0x10 else s.arrive c target why
  | none => s.move c .hold 0x10

/-- HOLD, or SEARCH at the first epoch boundary after the line domain resumes (R231). -/
def State.holdChan (s : State) (c : ChanId) : State :=
  match (s.chan c).link with
  | .data | .quiet | .fast =>
    if (s.chan c).bring.toSearch.isSome then
      s.modChan c fun x => { x with bring := { x.bring with toSearch := some 0x10 } }
    else s.holdLink c
  | .search | .exchange | .assemble | .train1 | .train2 | .train3 | .train4 | .train5 =>
    s.modChan c fun x => { x with bring := { x.bring with toSearch := some 0x10 } }
  | _ => s

def eachChan (f : State → ChanId → State) : List ChanId → State → State
  | [], s => s
  | c :: t, s => eachChan f t (f s c)

/-- The line domain stops for a source switch. -/
def State.holdLinks (s : State) : State :=
  eachChan State.holdChan allChans s

/-- The line domain resumes: held links begin fast retrain with reason 0x11. -/
def State.resumeChan (s : State) (c : ChanId) : State :=
  if (s.chan c).link = .hold then s.enterFast c 0x11 s.clock.sf else s

def State.resumeLinks (s : State) : State :=
  eachChan State.resumeChan allChans s

end Sys2Proof.Machine
end

