-- ==== Sys2Proof/Machine/Packets.lean ====
section
/-! DEFINITION. Hunoub packets (R338 to R346): headers, the fixity value, and putting a packet into a channel's byte
stream. -/

namespace Sys2Proof.Machine

/-- The CRC-64 of a chunk (R342): ECMA-182, not reflected, initial value 0. -/
def crc64 (b : Bytes) : Nat :=
  b.foldl (fun c x => crcShiftUp 0x42F0E1EBA9EA3693 64 8 (c ^^^ (x.toNat <<< 56))) 0

/-- The fields of a packet header (Table 15.1). -/
structure Head where
  kind : Nat
  flags : Nat
  source : BitVec 16
  dest : BitVec 16
  partition : Nat
  domain : Nat
  status : Nat
  length : Nat
  txn : BitVec 32
  target : BitVec 32
  offset : BitVec 64
  deriving DecidableEq, Repr

def readHead (h : Bytes) : Head :=
  { kind := field h 0 1, flags := field h 1 1, source := BitVec.ofNat 16 (field h 2 2),
    dest := BitVec.ofNat 16 (field h 4 2), partition := field h 6 2, domain := field h 8 1, status := field h 9 1,
    length := field h 0xA 2, txn := BitVec.ofNat 32 (field h 0xC 4), target := BitVec.ofNat 32 (field h 0x10 4),
    offset := BitVec.ofNat 64 (field h 0x14 8) }

def Head.bytes (h : Head) : Bytes :=
  let b := le 1 h.kind ++ le 1 h.flags ++ le 2 h.source.toNat ++ le 2 h.dest.toNat ++ le 2 h.partition ++
    le 1 h.domain ++ le 1 h.status ++ le 2 h.length ++ le 4 h.txn.toNat ++ le 4 h.target.toNat ++ le 8 h.offset.toNat
  b ++ le 4 (crc32c b)

/-- The header's check passes and its kind is assigned (R344). -/
def headerOk (h : Bytes) : Bool :=
  crc32c (h.take 28) == field h 0x1C 4 && decide (1 ≤ field h 0 1) && decide (field h 0 1 ≤ 9)

/-- Payload bytes in the stream: the length field, but a read request carries none (Table 15.2). -/
def Head.payloadLength (h : Head) : Nat :=
  if h.kind = 2 then 0 else h.length

def Head.hasTrailer (h : Head) : Bool :=
  h.kind == 1 || h.kind == 4 || (h.kind == 3 && h.length != 0)

/-- Bytes a packet occupies (R345). -/
def Head.size (h : Head) : Nat :=
  32 + h.payloadLength + (if h.hasTrailer then 8 else 0)

/-- A packet of a whole packet's bytes. -/
def readPacket (b : Bytes) : Packet :=
  let h := readHead b
  ⟨b.take 32, slice b 32 h.payloadLength,
    if h.hasTrailer then BitVec.ofNat 64 (field b (32 + h.payloadLength) 8) else 0⟩

def packetBytes (h : Head) (payload : Bytes) (trailer : BitVec 64) : Bytes :=
  h.bytes ++ payload ++ (if h.hasTrailer then le 8 trailer.toNat else [])

/-- Put a packet into the byte stream of a channel's logical link (R169). -/
def State.addPacket (s : State) (c : ChanId) (b : Bytes) (op : Option OpRef) : State :=
  s.modRetry (s.owner c) fun r => { r with packets := r.packets ++ [⟨b, op, false⟩] }

/-- A request's header: identity from the initiating queue (R346). -/
def State.requestHead (s : State) (p : Port) (q : Fin 512) (c : ChanId) (kind flags length : Nat) (txn target : BitVec 32)
    (offset : BitVec 64) : Head :=
  { kind := kind, flags := flags, source := BitVec.ofNat 16 s.node, dest := (s.chan c).partner.node,
    partition := s.queuePartition p q % 4096, domain := s.elem 0x0701 (queueKey p q), status := 0, length := length,
    txn := txn, target := target, offset := offset }

/-- A response's header (R340). -/
def responseHead (h : Head) (kind status length : Nat) : Head :=
  { h with kind := kind, flags := 0, source := h.dest, dest := h.source, partition := 0, domain := 0, status := status,
           length := length }

/-- Answer a request on the channel it arrived on. -/
def State.respond (s : State) (c : ChanId) (h : Head) (kind status : Nat) (payload : Bytes) (trailer : BitVec 64) :
    State :=
  s.addPacket c (packetBytes (responseHead h kind status payload.length) payload trailer) none

/-- Address of class P (Table 18.6); status 0xFF where nothing is answered. -/
def addrPacket (h : Head) (status : Nat) : Bytes :=
  le 2 h.source.toNat ++ le 2 h.partition ++ le 1 h.domain ++ le 1 h.kind ++ le 1 status ++ le 1 0 ++
  le 4 h.target.toNat ++ le 4 h.txn.toNat

/-- The fixity check of a chunk that arrived on a channel (R343): an armed inversion makes it fail (R439), and a mismatch
counts toward kind 3. -/
def State.checkFixity (s : State) (c : ChanId) (h : Head) (status : Nat) (payload : Bytes) (trailer expected : Nat) :
    Bool × State :=
  let armed := (s.armedFor 5 0).isSome
  let ok := crc64 payload == trailer && trailer == expected && !armed
  if ok then (true, s)
  else (false, (s.occurChan 3 c (addrPacket h status)).injected 5 0 (chanSource 3 c))

end Sys2Proof.Machine
end

