-- ==== Sys2Proof/Machine/Initiator.lean ====
section
/-! DEFINITION. The initiator's side of transport operations (R366 to R374, R390, R394 to R396): chunks read from host
memory and sent, requests, relays, and the items that start them. -/

namespace Sys2Proof.Machine

/-! ### Making progress -/

/-- Does an operation send on a link? A relay also sends on its target channel's. -/
def State.opUses (s : State) (x : Op) (d : ChanId) : Bool :=
  s.owner x.chan == d || (x.kind == .relay && s.owner x.chan2 == d)

/-- Has an operation sent its first packet on a link: a chunk's packet or request, and on a relay's target link a write or its flush? -/
def State.opBegun (s : State) (x : Op) (d : ChanId) : Bool :=
  (s.owner x.chan == d && decide (1 ≤ x.next)) ||
  (x.kind == .relay && s.owner x.chan2 == d && (decide (1 ≤ x.nextWrite) || x.flushing))

/-- May an operation send its first packet on a channel: is every earlier operation of the same queue that sends on that link past its
first packet there (R369)? -/
def State.mayLead (s : State) (o : Op) (c : ChanId) : Bool :=
  (s.transport.ops.takeWhile fun x => x.txn != o.txn).all fun x =>
    !(x.port == o.port && x.queue == o.queue && s.opUses x (s.owner c)) || s.opBegun x (s.owner c)

/-- Have the earlier writes and sends of a flush's queue and link put in all their packets (assumption 34)? -/
def State.flushReady (s : State) (o : Op) : Bool :=
  (s.transport.ops.takeWhile fun x => x.txn != o.txn).all fun x =>
    !((x.kind == .write || x.kind == .send) && x.port == o.port && x.queue == o.queue &&
      s.owner x.chan == s.owner o.chan) ||
    (x.next == x.chunks && x.prep.isNone && x.resends.all fun r => r.2.2.isNone)

/-- May an operation put its next chunk on its way? A relay stages at most 128 chunks (R394); 64 reads are in flight at
once (assumption 31). -/
def State.mayNext (s : State) (o : Op) : Bool :=
  o.prep.isNone && o.failed.isNone && s.mayLead o o.chan &&
  (match o.kind with
   | .write | .send => decide (o.next < o.chunks)
   | .read => decide (o.next < o.chunks) && decide (o.out.length < 64)
   | .relay => decide (o.next < o.chunks) && decide (o.out.length + o.staged.length < 128)
   | .atomic => o.next == 0
   | .flush => o.next == 0 && s.flushReady o)

/-- Issue the host reads of consecutive pieces. -/
def readPieces (p : Port) (mk : Nat → Purpose) : Nat → List (BitVec 64 × Nat) → State → State
  | _, [], s => s
  | k, (a, n) :: t, s => readPieces p mk (k + 1) t (s.hostRead p a n (mk k))

/-- Begin reading what a chunk needs from local host memory: its bytes (write, send) and its array entry. -/
def State.beginChunk (s : State) (o : Op) (i : Nat) : State :=
  let src := o.kind == .write || o.kind == .send
  let ps := if src then pieces 3 (o.addr + BitVec.ofNat 64 (4096 * i)) (o.chunkLen i) else []
  let s1 := s.modOp o.txn fun x => { x with prep := some ⟨i, ps.length + bit o.fixity, [], none⟩ }
  let s2 := readPieces o.port (.sourceData o.txn i) 0 ps s1
  if o.fixity then s2.hostRead o.port (o.array + BitVec.ofNat 64 (8 * i)) 8 (.fixityEntry o.txn i) else s2

/-- The packet with a chunk's data. -/
def State.sendData (s : State) (o : Op) (i : Nat) (payload : Bytes) (trailer : BitVec 64) : State :=
  let off := BitVec.ofNat 64 (4096 * i)
  let h := match o.kind with
    | .send => s.requestHead o.port o.queue o.chan 4 (bit (i == 0) + 2 * bit (i + 1 == o.chunks)) payload.length o.txn
        (BitVec.ofNat 32 o.target.toNat) (if i = 0 then BitVec.ofNat 64 o.length else off)
    | .relay => s.requestHead o.port o.queue o.chan2 1 0 payload.length o.txn o.key2 (o.addr + off)
    | _ => s.requestHead o.port o.queue o.chan 1 0 payload.length o.txn o.key (o.offset + off)
  s.addPacket (if o.kind = .relay then o.chan2 else o.chan) (packetBytes h payload trailer) (some ⟨o.txn, .data i⟩)

/-- The read request of a chunk. -/
def State.sendRequest (s : State) (o : Op) (i : Nat) : State :=
  s.addPacket o.chan
    (packetBytes (s.requestHead o.port o.queue o.chan 2 0 (o.chunkLen i) o.txn o.key
      (o.offset + BitVec.ofNat 64 (4096 * i))) [] 0) (some ⟨o.txn, .request i⟩)

/-- A flush or atomic request; a relay's flush goes on its target channel. -/
def State.sendSingle (s : State) (o : Op) : State :=
  if o.kind = .atomic then
    s.addPacket o.chan
      (packetBytes (s.requestHead o.port o.queue o.chan 5 (bit o.swap) 24 o.txn o.key o.offset)
        (le 8 o.operands.1.toNat ++ le 8 o.operands.2.1.toNat ++ le 8 o.operands.2.2.toNat) 0) (some ⟨o.txn, .single⟩)
  else
    let c := if o.kind = .relay then o.chan2 else o.chan
    s.addPacket c (packetBytes (s.requestHead o.port o.queue c 7 0 0 o.txn 0 0) [] 0) (some ⟨o.txn, .single⟩)

/-- A chunk joins those that are out. -/
def outWith (i : Nat) (l : List (Nat × Option Nat)) : List (Nat × Option Nat) :=
  (l.filter fun e => e.1 != i) ++ [(i, none)]

/-- Put the next chunk of an operation on its way. -/
def State.nextChunk (s : State) (o : Op) : State :=
  match o.kind with
  | .write | .send => s.beginChunk o o.next
  | .read | .relay =>
    if o.fixity then s.beginChunk o o.next
    else (s.modOp o.txn fun x => { x with next := x.next + 1, out := outWith o.next x.out }).sendRequest o o.next
  | .atomic | .flush => (s.modOp o.txn fun x => { x with next := 1, flushing := true }).sendSingle o

/-- Put as much of an operation on its way as it may; n bounds the chunks. -/
def State.advanceOp : Nat → BitVec 32 → State → State
  | 0, _, s => s
  | n + 1, txn, s =>
    match s.op txn with
    | some o => if s.mayNext o then State.advanceOp n txn (s.nextChunk o) else s
    | none => s

/-- Write the staged chunks of a relay that may be written, in order, and then flush (R395, R396). -/
def State.relayWrites : Nat → BitVec 32 → State → State
  | 0, _, s => s
  | n + 1, txn, s =>
    match s.op txn with
    | none => s
    | some o =>
      let limit := match o.failed with | some f => f.2 | none => o.chunks
      if o.flushing || !s.mayLead o o.chan2 then s
      else if limit ≤ o.nextWrite then
        (s.modOp txn fun x => { x with flushing := true, acked := none }).sendSingle o
      else
        match o.staged.find? fun e => e.1 == o.nextWrite with
        | some e => State.relayWrites n txn
            ((s.modOp txn fun x => { x with nextWrite := x.nextWrite + 1 }).sendData o e.1 e.2.1 e.2.2)
        | none => s

/-- Every operation makes what progress it can. -/
def advanceList : List Op → State → State
  | [], s => s
  | o :: t, s =>
    let s1 := State.advanceOp 129 o.txn s
    advanceList t (if o.kind = .relay then State.relayWrites 130 o.txn s1 else s1)

def State.advance (s : State) : State :=
  advanceList s.transport.ops s

/-! ### Host reads of the initiator -/

/-- The parts of a chunk in order. -/
def joinParts (n : Nat) (l : List (Nat × Bytes)) : Bytes :=
  (List.range n).flatMap fun k => Tab.get [] l k

/-- A chunk's host reads are done: its data packet or its read request goes into the stream. -/
def State.chunkRead (s : State) (o : Op) (x : Prep) : State :=
  let i := x.chunk
  let s1 := s.modOp o.txn fun y => { y with
    prep := none
    next := max y.next (i + 1)
    out := outWith i y.out
    expected := (match x.entry with | some v => (i, v) :: y.expected.filter (fun e => e.1 != i) | none => y.expected) }
  if o.kind = .write || o.kind = .send then
    let payload := joinParts x.parts.length x.parts
    s1.sendData o i payload (x.entry.getD (BitVec.ofNat 64 (crc64 payload)))
  else s1.sendRequest o i

/-- One of a chunk's host reads has its data: part k of its bytes, or its array entry. -/
def State.chunkPart (s : State) (txn : BitVec 32) (i : Nat) (f : Prep → Prep) : State :=
  match s.op txn with
  | none => s
  | some o =>
    match o.prep with
    | none => s
    | some x =>
      if x.chunk != i then s
      else
        let y := f { x with left := x.left - 1 }
        if y.left = 0 then (s.chunkRead o y).advance else s.modOp txn fun z => { z with prep := some y }

/-- A host read of the initiator failed: local memory failure (Table 16.3). -/
def State.chunkReadFailed (s : State) (txn : BitVec 32) (i : Nat) : State :=
  match s.op txn with
  | none => s
  | some o => ((s.modOp txn fun x => { x with prep := none }).failChunk { o with prep := none } 0x03 i).advance

/-! ### Acknowledgement at the link level -/

/-- Is a packet of an operation still in a channel's stream or unacknowledged? -/
def State.refBusy (s : State) (c : ChanId) (r : OpRef) : Bool :=
  ((s.chan (s.owner c)).retry.packets.any fun p => p.op == some r) ||
  (s.bond c).any fun d => (s.chan d).retry.unacked.any fun w => w.ops.contains r

/-- A write or send whose chunks are all acknowledged completes; a send of a stream send queue waits for its disposition
(Table 16.1, R414). -/
def State.writeDone (s : State) (txn : BitVec 32) : State :=
  match s.op txn with
  | none => s
  | some o =>
    if (o.kind == .write || o.kind == .send) && o.out.isEmpty && o.next == o.chunks && o.prep.isNone &&
        (o.resends.all fun r => r.2.2.isNone) then
      if o.kind = .send && (s.role o.port o.queue).stream = 3 then
        s.modOp txn fun x => { x with acked := some s.clock.symbols }
      else s.endOp o 0x00 0
    else s

/-- The codewords of a packet are all acknowledged. -/
def State.refAcked (s : State) (r : OpRef) : State :=
  match s.op r.txn with
  | none => s
  | some o =>
    match r.leg with
    | .data i =>
      if o.kind = .relay then
        s.modOp r.txn fun x => { x with staged := x.staged.filter (fun e => e.1 != i), done := x.done + 1 }
      else (s.modOp r.txn fun x => { x with out := x.out.filter (fun e => e.1 != i), done := x.done + 1 }).writeDone r.txn
    | .request i =>
      s.modOp r.txn fun x => { x with out := updateIf (fun e => e.1 == i) (fun e => (e.1, some s.clock.symbols)) x.out }
    | .single => s.modOp r.txn fun x => { x with acked := some s.clock.symbols }

/-- Operations in codewords that were released. -/
def State.refsAcked (c : ChanId) : List OpRef → State → State
  | [], s => s
  | r :: t, s => State.refsAcked c t (if s.refBusy c r then s else s.refAcked r)

/-! ### Answers -/

/-- The completion code of a response status (Table 16.3). -/
def statusCode (status : Nat) : Byte :=
  match status with
  | 0 => 0x00
  | 1 => 0x04
  | 2 => 0x05
  | 3 => 0x06
  | 4 => 0x07
  | 5 => 0x08
  | 6 => 0x08
  | 7 => 0x09
  | 8 => 0x0A
  | 9 => 0x0B
  | 0xA => 0x0C
  | _ => 0x0D

/-- Resends of a chunk so far. -/
def Op.resent (o : Op) (i : Nat) : Nat :=
  match o.resends.find? fun r => r.1 == i with | some r => r.2.1 | none => 0

/-- A chunk meets a refusal: a page or buffer not ready is tried again after the back-off, up to the resend count; every
other status fails the chunk (R364, R371, R377). A relay's chunk whose staging is free cannot be sent again. -/
def State.refused (s : State) (o : Op) (i status : Nat) : State :=
  let n := o.resent i
  let again := status = 5 || (status = 7 && o.kind = .send)
  let gone := o.kind == .relay && decide (i < o.nextWrite) && !(o.staged.any fun e => e.1 == i)
  if again && n < s.par 0x0802 && !gone then
    let due := s.clock.symbols + 256 * (s.par 0x0801 * 2 ^ n)
    s.modOp o.txn fun x => { x with resends := (x.resends.filter fun r => r.1 != i) ++ [(i, n + 1, some due)] }
  else (s.failChunk o (statusCode status) i).advance

/-- Send a chunk again (R364); a refused message begins anew (assumption 33). -/
def State.resendChunk (s : State) (o : Op) (i : Nat) : State :=
  let s1 := s.modOp o.txn fun x => { x with
    resends := updateIf (fun r => r.1 == i) (fun r => (r.1, r.2.1, none)) x.resends }
  match o.kind with
  | .write => s1.beginChunk o i
  | .send =>
    (((s1.modRetry (s.owner o.chan) (Retry.dropPackets o.txn)).modOp o.txn fun x =>
      { x with next := 0, out := [] })).beginChunk o 0
  | .read => s1.sendRequest o i
  | .relay =>
    match o.staged.find? fun e => e.1 == i with
    | some e => s1.sendData o i e.2.1 e.2.2
    | none => s1.sendRequest o i
  | .atomic | .flush => s1.sendSingle o

/-- RESEND_BACKOFF_EXPIRY. -/
def execResendBackoffExpiry (txn : BitVec 32) (chunk : Nat) (s : State) : Host.Outcome State Fault Refusal :=
  match s.op txn with
  | none => .next s
  | some o =>
    if s.runs && o.prep.isNone && o.resends.any fun r => r.1 == chunk &&
        (match r.2.2 with | some due => decide (due ≤ s.clock.symbols) | none => false) then
      .next (s.resendChunk o chunk)
    else .next s

/-- TP.007: the response limit of a channel. -/
def State.responseLimit (s : State) (c : ChanId) : Nat :=
  s.elem 0x0707 c

/-- RESPONSE_LIMIT_EXPIRY (R390, R414): no response within the limit from the acknowledgement of the request. -/
def execResponseLimitExpiry (txn : BitVec 32) (s : State) : Host.Outcome State Fault Refusal :=
  match s.op txn with
  | none => .next s
  | some o =>
    let past := fun (t : Option Nat) (c : ChanId) =>
      match t with | some a => s.passedFrom a (s.responseLimit c) | none => false
    match o.out.find? fun e => past e.2 o.chan with
    | some e => if s.runs && (o.kind == .read || o.kind == .relay) then .next ((s.failChunk o 0x0F e.1).advance) else .next s
    | none =>
      if s.runs && past o.acked (if o.kind = .relay then o.chan2 else o.chan) then .next ((s.endOp o 0x0F
        (match o.failed with | some f => f.2 | none => if o.kind = .relay then o.nextWrite else 0)).advance)
      else .next s

/-! ### Items -/

/-- May an item use a channel now (R370): it proceeds, waits, or completes with 0x0E. -/
inductive Ready where
  | go
  | wait
  | down
  deriving DecidableEq, Repr

def State.ready (s : State) (c : ChanId) : Ready :=
  if (s.bond c).any fun d => (s.chan d).stands .data || (s.chan d).stands .quiet then .go
  else if (s.bond c).any fun d => (s.chan d).stands .fast || (s.chan d).stands .hold then .wait
  else .down

def opOf (p : Port) (q : Fin 512) (i : Item) (b : TransportBody) : Op :=
  { txn := txnOf p q i.index, port := p, queue := q, item := i.index, kind := b.kind, chan := b.chan, chan2 := b.chan2,
    key := b.key, key2 := b.key2, offset := b.offset, addr := b.addr,
    length := if b.kind = .atomic then 8 else if b.kind = .flush then 0 else b.length, array := b.array,
    fixity := b.fixity && b.kind != .atomic, target := b.target, operands := b.operands, swap := b.swap, next := 0,
    prep := none, out := [], done := 0, staged := [], nextWrite := 0, expected := [], failed := none, resends := [],
    flushing := false, acked := none }

def State.relays (s : State) : Nat :=
  (s.transport.ops.filter fun o => o.kind == .relay).length

/-- The last frame sent to a stream queue on a link (R414). -/
def State.frameSent (s : State) (p : Port) (q : Fin 512) (i : Item) (b : TransportBody)
    (l : List (ChanId × BitVec 16 × Port × Fin 512 × BitVec 32)) : List (ChanId × BitVec 16 × Port × Fin 512 × BitVec 32) :=
  let c := s.owner b.chan
  (c, b.target, p, q, i.index) :: l.filter fun e => !(e.1 == c && e.2.1 == b.target)

/-- Start the next item of a queue when it is a transport item of a kind: it proceeds, waits, or completes at once by its
channels' states (R370); a withdrawn send is not sent (R414); a relay waits for one of the 32 places (R394). -/
def State.startTransport (s : State) (p : Port) (q : Fin 512) (k : OpKind) : State :=
  match s.nextItem p q with
  | some (i, some (.transport b)) =>
    if b.kind != k then s
    else if k = .send && (s.queue p q).stream.withdrawn && (s.role p q).stream == 3 then
      (s.startItem p q i.index).complete p q i.index 0x16 0 none
    else if s.ready b.chan = .down || s.ready b.chan2 = .down then
      (s.startItem p q i.index).complete p q i.index 0x0E 0 (some b.chan)
    else if s.ready b.chan = .wait || s.ready b.chan2 = .wait then s
    else if k = .relay && 32 ≤ s.relays then s
    else ((s.startItem p q i.index).modTransport fun t => { t with
      ops := t.ops ++ [opOf p q i b]
      lastFrames := if k = .send && (s.role p q).stream == 3 then s.frameSent p q i b t.lastFrames else t.lastFrames
      }).advance
  | _ => s

def execWriteItem (p : Port) (q : Fin 512) (s : State) : Host.Outcome State Fault Refusal :=
  .next (s.startTransport p q .write)
def execReadItem (p : Port) (q : Fin 512) (s : State) : Host.Outcome State Fault Refusal :=
  .next (s.startTransport p q .read)
def execSendItem (p : Port) (q : Fin 512) (s : State) : Host.Outcome State Fault Refusal :=
  .next (s.startTransport p q .send)
def execAtomicItem (p : Port) (q : Fin 512) (s : State) : Host.Outcome State Fault Refusal :=
  .next (s.startTransport p q .atomic)
def execFlushItem (p : Port) (q : Fin 512) (s : State) : Host.Outcome State Fault Refusal :=
  .next (s.startTransport p q .flush)
def execRelayItem (p : Port) (q : Fin 512) (s : State) : Host.Outcome State Fault Refusal :=
  .next (s.startTransport p q .relay)

/-- RECEIVE_ITEM: the buffer is on offer until a message claims it (R377). -/
def execReceiveItem (p : Port) (q : Fin 512) (s : State) : Host.Outcome State Fault Refusal :=
  match s.nextItem p q with
  | some (i, some (.receive _ _ _)) => .next (s.startItem p q i.index)
  | _ => .next s

/-- MALFORMED_ITEM: an item that is not well formed completes once with code 0x01 (R11). -/
def execMalformedItem (p : Port) (q : Fin 512) (s : State) : Host.Outcome State Fault Refusal :=
  match s.nextItem p q with
  | some (i, none) => .next ((s.startItem p q i.index).complete p q i.index 0x01 0 none)
  | _ => .next s

/-! ### Packets that answer this device -/

/-- Take an arrived packet; none where no such packet has arrived. A packet whose source is not the partner is discarded
and counted (R345). -/
def State.takePacket (s : State) (c : ChanId) (pkt : Packet) (kind : Nat) : Option (Head × Bool × State) :=
  let h := readHead pkt.header
  if s.runs && h.kind == kind && (s.chan (s.owner c)).retry.arrived.contains pkt then
    let s1 := s.modRetry (s.owner c) fun r => { r with arrived := eraseFirst (· == pkt) r.arrived }
    if h.source == (s.chan c).partner.node then some (h, true, s1)
    else some (h, false, s1.occurChan 1 c (addrPacket h 0xFF))
  else none

/-- The outstanding operation a response names, with its chunk. -/
def State.answered (s : State) (h : Head) (k : Op → Bool) : Option Op :=
  (s.op h.txn).bind fun o => if k o then some o else none

/-- A read chunk is verified: placed for a read, staged for a relay (R343, R368, R395). -/
def State.placeRead (s : State) (o : Op) (i : Nat) (pkt : Packet) : State :=
  if o.kind = .relay then
    (s.modOp o.txn fun x => { x with
      out := x.out.filter (fun e => e.1 != i), staged := x.staged ++ [(i, pkt.payload, pkt.trailer)] }).advance
  else
    let s1 := (s.modOp o.txn fun x => { x with out := x.out.filter (fun e => e.1 != i), done := x.done + 1 }).hostWrite
      o.port (o.addr + BitVec.ofNat 64 (4096 * i)) pkt.payload
    if o.done + 1 = o.chunks then (s1.endOp o 0x00 0).advance else s1.advance

/-- READ_RESPONSE. -/
def execReadResponse (c : ChanId) (pkt : Packet) (s : State) : Host.Outcome State Fault Refusal :=
  match s.takePacket c pkt 3 with
  | none => .next s
  | some (_, false, s1) => .next s1
  | some (h, true, s1) =>
    match s1.answered h fun o => o.kind == .read || o.kind == .relay with
    | none => .next s1
    | some o =>
      let i := (h.offset - o.offset).toNat / 4096
      if !(o.out.any fun e => e.1 == i) then .next s1
      else if h.status != 0 then
        .next (s1.refused o i h.status)
      else
        let want := match o.expected.find? fun e => e.1 == i with | some e => e.2.toNat | none => pkt.trailer.toNat
        let r := s1.checkFixity c h 0xFF pkt.payload pkt.trailer.toNat want
        if r.1 && pkt.payload.length == o.chunkLen i then .next (r.2.placeRead o i pkt)
        else .next ((r.2.failChunk o 0x0B i).advance)

/-- ATOMIC_RESPONSE: the prior value goes to local memory and the item completes (Table 16.1). -/
def execAtomicResponse (c : ChanId) (pkt : Packet) (s : State) : Host.Outcome State Fault Refusal :=
  match s.takePacket c pkt 6 with
  | none => .next s
  | some (_, false, s1) => .next s1
  | some (h, true, s1) =>
    match s1.answered h fun o => o.kind == .atomic && o.next == 1 with
    | none => .next s1
    | some o =>
      if h.status != 0 then .next (s1.refused o 0 h.status)
      else .next (((s1.hostWrite o.port o.addr (fit 8 pkt.payload)).endOp o 0x00 0).advance)

/-- The failure recorded for a flush's pair (R374), taken out. -/
def State.takeFailure (s : State) (p : Port) (q : Fin 512) (c : ChanId) : Option (BitVec 32) × State :=
  let d := s.owner c
  match s.transport.failures.find? fun f => f.1 == p && f.2.1 == q && f.2.2.1 == d with
  | some f => (some f.2.2.2, s.modTransport fun t => { t with failures := t.failures.filter fun g => !(g == f) })
  | none => (none, s)

/-- FLUSH_RESPONSE: a flush item completes (R374), or a relay with it (R395, R396). -/
def execFlushResponse (c : ChanId) (pkt : Packet) (s : State) : Host.Outcome State Fault Refusal :=
  match s.takePacket c pkt 8 with
  | none => .next s
  | some (_, false, s1) => .next s1
  | some (h, true, s1) =>
    match s1.answered h fun o => (o.kind == .flush || o.kind == .relay) && o.flushing with
    | none => .next s1
    | some o =>
      let r := s1.takeFailure o.port o.queue (if o.kind = .relay then o.chan2 else o.chan)
      match o.failed, r.1 with
      | some f, _ => .next ((r.2.endOp o f.1 f.2).advance)
      | none, some index => .next ((r.2.endOp o 0x10 index.toNat).advance)
      | none, none =>
        .next ((r.2.endOp o (statusCode h.status)
          (if o.kind = .relay then (if h.status = 0 then o.chunks else o.nextWrite) else 0)).advance)

/-- STATUS_PACKET: a write or message was refused: the item takes the status's code while it is outstanding, else the
failure is kept for the next flush (R372). -/
def execStatusPacket (c : ChanId) (pkt : Packet) (s : State) : Host.Outcome State Fault Refusal :=
  match s.takePacket c pkt 9 with
  | none => .next s
  | some (_, false, s1) => .next s1
  | some (h, true, s1) =>
    match s1.op h.txn with
    | some o =>
      match o.kind with
      | .write => .next (s1.refused o ((h.offset - o.offset).toNat / 4096) h.status)
      | .relay => .next (s1.refused o ((h.offset - o.addr).toNat / 4096) h.status)
      | .send =>
        .next (s1.refused o (if h.offset.toNat = o.length then 0 else h.offset.toNat / 4096) h.status)
      | _ => .next s1
    | none =>
      let k := txnQueue h.txn
      .next (s1.recordFailure k.1 k.2 c (s1.txnItem h.txn))

end Sys2Proof.Machine
end

