-- ==== Sys2Proof/Machine/Ldpc.lean ====
section
/-! DEFINITION. The LDPC code (R171), its encoder (R172) and the layered offset min-sum decoder (R175), over blocks of
128 positions. -/

namespace Sys2Proof.Machine

/-- Base matrix shifts (Table 8.6); none is the zero block. -/
def baseRow : Nat → List (Option Nat)
  | 0 => [some 0, some 17, some 42, some 91, some 5, some 63, some 110, some 28, some 77, some 34, some 120, some 9,
      some 56, some 101, some 70, some 13, some 0, none]
  | _ => [some 0, some 3, some 11, some 19, some 30, some 41, some 55, some 66, some 80, some 93, some 105, some 118,
      some 7, some 48, some 24, some 99, some 1, some 0]

/-- (P^s x)[i] = x[(i + s) mod 128]. -/
def rotate {α : Type} (s : Nat) (x : List α) : List α :=
  x.drop s ++ x.take s

/-- The inverse of `rotate`. -/
def unrotate {α : Type} (s : Nat) (x : List α) : List α :=
  rotate (128 - s) x

/-- Cut a list into n blocks of 128. -/
def blocks {α : Type} : Nat → List α → List (List α)
  | 0, _ => []
  | n + 1, l => l.take 128 :: blocks n (l.drop 128)

def xorBlock (a b : List Bool) : List Bool :=
  List.zipWith xor a b

/-- The sum of a row's rotated blocks. -/
def rowSum : List (Option Nat) → List (List Bool) → List Bool
  | some s :: ss, c :: cs => xorBlock (rotate s c) (rowSum ss cs)
  | none :: ss, _ :: cs => rowSum ss cs
  | _, _ => List.replicate 128 false

/-- Encode sixteen information blocks: the parity blocks p0 and p1 (R172). -/
def ldpcParity (c : List (List Bool)) : List Bool × List Bool :=
  let p0 := rowSum ((baseRow 0).take 16) c
  let p1 := xorBlock (rowSum ((baseRow 1).take 16) c) (rotate 1 p0)
  (p0, p1)

/-- The 2,304 bits of a codeword with the given scrambled information bits. -/
def ldpcEncode (info : List Bool) : List Bool :=
  let p := ldpcParity (blocks 16 info)
  info ++ p.1 ++ p.2

/-- Are all checks satisfied by hard decisions in eighteen blocks? -/
def syndromeOk (c : List (List Bool)) : Bool :=
  (rowSum (baseRow 0) c).all (!·) && (rowSum (baseRow 1) c).all (!·)

def hard (q : List (List Int)) : List (List Bool) :=
  q.map fun b => b.map fun x => decide (x < 0)

/-- sat(x, a) of R175. -/
def sat (x a : Int) : Int :=
  if x < -a then -a else if a < x then a else x

/-- Transpose columns into checks. -/
def checksOf : List (List Int) → List (List Int)
  | [] => List.replicate 128 []
  | c :: cs => List.zipWith List.cons c (checksOf cs)

/-- Smallest magnitude and sign of a list of values; sign(0) is +1; true is negative. -/
def minSign : List Int → Nat × Bool
  | [] => (127, false)
  | t :: ts =>
    let r := minSign ts
    (min t.natAbs r.1, decide (t < 0) ^^ r.2)

/-- The new message of each edge of a check: over the values of the other edges. -/
def checkMessages (before : List Int) : List Int → List Int
  | [] => []
  | t :: ts =>
    let m := minSign (before ++ ts)
    let v : Int := min ((m.1 - 1 : Nat) : Int) 31
    (if m.2 then -v else v) :: checkMessages (before ++ [t]) ts

/-- Turn checks of e edges back into e columns. -/
def columnsOf (e : Nat) (checks : List (List Int)) : List (List Int) :=
  (List.range e).map fun k => checks.map fun c => nth 0 c k

/-- The columns of a row that it involves, rotated. -/
def involved : List (Option Nat) → List (List Int) → List (List Int)
  | some s :: ss, c :: cs => rotate s c :: involved ss cs
  | none :: ss, _ :: cs => involved ss cs
  | _, _ => []

/-- Put rotated columns back. -/
def putBack : List (Option Nat) → List (List Int) → List (List Int) → List (List Int)
  | some s :: ss, _ :: cs, x :: xs => unrotate s x :: putBack ss cs xs
  | none :: ss, c :: cs, xs => c :: putBack ss cs xs
  | _, cs, _ => cs

/-- One layer: the values and the row's edge messages after it. -/
def decodeLayer (row : List (Option Nat)) (q r : List (List Int)) : List (List Int) × List (List Int) :=
  let t := List.zipWith (List.zipWith fun x y => sat (x - y) 127) (involved row q) r
  let r' := columnsOf t.length ((checksOf t).map (checkMessages []))
  (putBack row q (List.zipWith (List.zipWith fun x y => sat (x + y) 127) t r'), r')

/-- The outcome of decoding (R176). -/
inductive Decoded where
  | clean
  | corrected
  | uncorrectable
  deriving DecidableEq, Repr

/-- The iterations of R175: n left. -/
def decodeFrom : Nat → List (List Int) → List (List Int) → List (List Int) → Decoded × List (List Bool)
  | 0, q, _, _ => (.uncorrectable, hard q)
  | n + 1, q, r0, r1 =>
    let a := decodeLayer (baseRow 0) q r0
    let b := decodeLayer (baseRow 1) a.1 r1
    if syndromeOk (hard b.1) then (.corrected, hard b.1) else decodeFrom n b.1 a.2 b.2

def zeroBlocks (n : Nat) : List (List Int) :=
  List.replicate n (List.replicate 128 0)

/-- The decoder of R175: soft values limited to ±31, and an iteration limit. The outcome and the information bits. -/
def ldpcDecode (lam : List Int) (imax : Nat) : Decoded × List Bool :=
  let l := (lam.take 2304).map fun x => sat x 31
  let q := blocks 18 (l ++ List.replicate (2304 - l.length) 0)
  if syndromeOk (hard q) then (.clean, ((hard q).take 16).flatten)
  else
    let d := decodeFrom imax q (zeroBlocks 17) (zeroBlocks 18)
    (d.1, (d.2.take 16).flatten)

end Sys2Proof.Machine
end

