-- ==== Sys2Proof/Machine/Retry.lean ====
section
/-! DEFINITION. Link-level retry and the codeword streams (R167 to R176, R197, R223, R255, R344, R382 to R392): sending
codewords symbol by symbol, CODEWORD_DECODED, and the retry messages. -/

namespace Sys2Proof.Machine

/-! ### Which streams run -/

/-- TRAIN5, or step F3 of FAST: the states of the training stream (R223). -/
def Chan.trains (x : Chan) : Bool :=
  x.stands .train5 || (x.stands .fast && x.train.fast == .f3)

/-- The transmit direction is in data mode: in DATA, or once it has sent −S (R226). -/
def Chan.txData (x : Chan) : Bool :=
  x.stands .data || x.stands .quiet || (x.trains && x.train.txMinus)

def Chan.rxData (x : Chan) : Bool :=
  x.stands .data || x.stands .quiet || (x.trains && x.train.rxMinus)

/-- The table a channel's transmitter uses. -/
def Chan.txTab (x : Chan) : Table :=
  if x.txData then x.load.txTable else trainingTable

/-- Does the transmit stream send codewords now? -/
def Chan.streams (x : Chan) : Bool :=
  x.trains || ((x.stands .data || x.stands .quiet) && !x.quiet.txEnded)

/-! ### Acknowledgement and giving up -/

/-- Is a sequence number before another, in the half window of R382? -/
def before (a b : BitVec 12) : Bool :=
  decide (1 ≤ (b - a).toNat) && decide ((b - a).toNat ≤ 2048)

/-- Release the codewords an acknowledge value names, and note the resume message among them (R382, R391). -/
def Retry.release (ack : BitVec 12) (r : Retry) : Retry :=
  let gone := r.retain.filter fun w => before w.seq ack
  let resumed := gone.any fun w => w.kind == 2 && byteAt w.payload 0 == 0x41
  { r with
    retain := r.retain.filter fun w => !before w.seq ack
    resend := r.resend.filter fun w => !before w.seq ack
    resumption := if resumed then
        (match r.resumption with
         | .running true _ => .complete
         | .running false _ => .running false true
         | .complete => .complete)
      else r.resumption }

/-- Take an acknowledge value: the operations whose codewords it releases make progress. -/
def State.takeAck (s : State) (c : ChanId) (ack : BitVec 12) : State :=
  let refs := refsIn ((s.chan c).retry.retain.filter fun w => before w.seq ack)
  let s1 := s.modRetry c (Retry.release ack)
  if refs.isEmpty then s1 else (State.refsAcked c refs s1).advance

/-- A sender gives up (R388, R392). A give-up in the resume exchange leaves the resume message in place, and the restart
follows it (assumption 36). -/
def State.giveUp (s : State) (c : ChanId) (resuming : Bool) : State :=
  let r := (s.chan c).retry
  let owner := s.owner c
  let bond := s.bond c
  let gone := r.kept ++ (if resuming then [] else r.retain)
  let seq := if resuming then r.next else match r.retain with | w :: _ => w.seq | [] => r.next
  let others := if bond.length ≤ 1 then [] else refsIn (bond.flatMap fun d => (s.chan d).retry.unacked)
  let refs := refsIn gone ++ others ++ begunRefs (s.chan owner).retry
  let s1 := s.modRetry c fun x => { x with
    kept := [], retain := if resuming then x.retain else [], resend := if resuming then x.resend else [], next := seq }
  let s2 := restartAll (if bond.length ≤ 1 then [] else bond.filter fun d => d != c)
    ((s1.modRetry c (Retry.sayFirst restartMessage)).modRetry owner Retry.dropBegun)
  ((State.loseRefs c refs s2).occurChan 2 c (s.addrLink c 0)).advance

/-- T_r of R384. -/
def State.retransmitTime (s : State) (c : ChanId) : Nat :=
  let x := s.chan c
  2 * (ceilDiv 2304 (tableB x.load.txTable) + ceilDiv 2304 (tableB x.load.rxTable)) + 48

/-- RETRANSMIT_TIMEOUT (R384): every unacknowledged codeword is to be sent again, oldest first. -/
def execRetransmitTimeout (c : ChanId) (s : State) : Host.Outcome State Fault Refusal :=
  let r := (s.chan c).retry
  match r.retain with
  | [] => .next s
  | w :: _ =>
    let due := match w.latest with | some t => decide (t + s.retransmitTime c < r.clock) | none => false
    if s.runs && (s.chan c).txData && due && r.resend.isEmpty then
      .next (s.modRetry c fun x => { x with resend := x.retain })
    else .next s

/-- RETRY_BUDGET_EXPIRY (R386, R388). -/
def execRetryBudgetExpiry (c : ChanId) (s : State) : Host.Outcome State Fault Refusal :=
  let r := (s.chan c).retry
  let past := r.retain.any fun w => match w.first with | some t => decide (t + s.elem 0x0705 c ≤ r.clock) | none => false
  if s.runs && (s.chan c).txData && past then .next (s.giveUp c false) else .next s

/-! ### Sending codewords (R168, R169, R384, R392) -/

/-- Fill a transport payload: the bytes, the first packet start, the operations, and the packets left. -/
def fillPayload (pos : Nat) : List TxPacket → Bytes × Nat × List OpRef × List TxPacket
  | [] => ([], 255, [], [])
  | p :: ps =>
    let room := 251 - pos
    let start := if p.begun then 255 else pos
    let ref := match p.op with | some o => [o] | none => []
    if room ≤ p.bytes.length then
      (p.bytes.take room, start, ref,
        if room = p.bytes.length then ps else { p with bytes := p.bytes.drop room, begun := true } :: ps)
    else
      let r := fillPayload (pos + p.bytes.length) ps
      (p.bytes ++ r.1, if start = 255 then r.2.1 else start, ref ++ r.2.2.1, r.2.2.2)

/-- The refresh phase is filled in when the codeword is built (Table 12.2). -/
def phased (t : Sf) (m : Bytes) : Bytes :=
  if byteAt m 0 == 0x30 || byteAt m 0 == 0x31 then
    m.take 1 ++ le 1 (t.toNat % 81) ++ m.drop 2
  else m

/-- What the next codeword position carries. -/
inductive Pick where
  | again (w : Codeword)
  | message (m : Bytes)
  | transport
  | idle
  deriving DecidableEq, Repr

/-- The choice of R168, resends first (R384), a pad in place of an idle codeword of a bonded group (R392). Until the
partner's resume message nothing new is sent (R391); in the training stream lasting messages wait for data mode. -/
def State.pick (s : State) (c : ChanId) : Pick :=
  let x := s.chan c
  let r := x.retry
  let ready := if x.txData then r.lm else r.lm.filter fun m => !lasting m
  let full := decide (512 ≤ r.retain.length)
  let data := x.txData
  let held := match r.resumption with | .running false _ => data | _ => false
  match r.resend, ready with
  | w :: _, _ => .again w
  | [], m :: _ => if (full && data) || held then .idle else .message m
  | [], [] =>
    if !(x.stands .data || x.stands .quiet) || full || held then .idle
    else if !(s.chan (s.owner c)).retry.packets.isEmpty then .transport
    else if 1 < (s.bond c).length then .message (le 1 0x43)
    else .idle

/-- Does a member withhold its acknowledgements (R392)? -/
def State.withholds (s : State) (c : ChanId) : Bool :=
  let o := s.pairOffset c
  decide (512 ≤ ((s.chan (s.owner c)).retry.merge.filter fun m => m.offset == o && m.content.isSome).length)

/-- Keep the newest 4,096 entries of the operation history (R389). -/
def keepHistory (l : List (BitVec 12 × List OpRef)) : List (BitVec 12 × List OpRef) :=
  l.drop (l.length - 4096)

/-- Put a codeword in course of sending: its information word is scrambled (R170) and coded (R172). -/
def State.launch (s : State) (c : ChanId) (w : Codeword) (fresh : Bool) : State :=
  let x := s.chan c
  let r := x.retry
  let ack := if s.withholds c then r.ackOut else r.expect
  let last := x.quiet.ending && (x.quiet.requested.isSome || (w.kind == 2 && byteAt w.payload 0 == 0x31))
  let keep := fresh && w.kind != 0 && x.txData
  let h := headerWord w.seq.toNat ack.toNat w.kind w.start
  let sent := scramble (infoBits h w.payload) r.txScr.toNat
  let s1 := s.say (.codeword c h w.payload)
  s1.modChan c fun y => { y with
    retry := { y.retry with
      current := some (w, ldpcEncode sent.1, last)
      ackOut := ack
      txScr := BitVec.ofNat 23 sent.2
      next := if fresh && w.kind != 0 then y.retry.next + 1 else y.retry.next
      retain := if keep then y.retry.retain ++ [w] else y.retry.retain
      history := if keep then keepHistory (y.retry.history ++ [(w.seq, w.ops)]) else y.retry.history }
    quiet := { y.quiet with idleSince := if w.kind = 0 then y.quiet.idleSince else s.clock.symbols } }

/-- A transport codeword sent or delivered stops the false-wake timers of the logical link (R265): of every member of a bonded group. -/
def State.stopFalseWake (s : State) (c : ChanId) : State :=
  let group := if (s.chan c).partner.bondedLink then
      (s.members c).filter fun d => d == c || (s.chan d).partner.bondedLink else [c]
  eachChan (fun t d => t.modChan d fun x => { x with wake := { x.wake with falseSince := none } }) group s

/-- Begin the next codeword of a channel. -/
def State.startCodeword (s : State) (c : ChanId) : State :=
  let r := (s.chan c).retry
  match s.pick c with
  | .again w =>
    let s1 := if w.first.isSome then
        s.modChan c fun x => { x with quality := { x.quality with retransmitted := x.quality.retransmitted + 1 } } else s
    (s1.modRetry c fun x => { x with resend := x.resend.drop 1 }).launch c w false
  | .message m =>
    (s.modRetry c fun x => { x with lm := eraseFirst (· == m) x.lm }).launch c (freshCodeword r.next 2 255 (phased s.clock.sf m) []) true
  | .transport =>
    let o := s.owner c
    let f := fillPayload 0 (s.chan o).retry.packets
    ((s.modRetry o fun x => { x with packets := f.2.2.2 }).stopFalseWake c).launch c
      (freshCodeword r.next 1 f.2.1 f.1 f.2.2.1) true
  | .idle => s.launch c (freshCodeword r.next 0 255 [] []) true

/-- The codeword that carries a valid table's acceptance ends: the table is applied at the second superframe after it
(R226 step 3). A state message that carries F3's confirmation does the same (R232). -/
def State.messageSent (s : State) (c : ChanId) (m : Bytes) : State :=
  let x := s.chan c
  if byteAt m 0 == 0x21 || byteAt m 0 == 0x32 then s.noticeSent c
  else if byteAt m 0 == 0x20 && x.trains && x.load.toApply.isNone &&
      (if x.link = .train5 then (field m 2 1).testBit 0 && x.train.accepted else x.train.confirmed) then
    s.modChan c fun y => { y with load := { y.load with toApply := some (y.load.txTable, s.clock.sf + 2) } }
  else s

/-- A codeword has been sent whole: its ends are noted, and the stream may end with it (R254). -/
def State.endCodeword (s : State) (c : ChanId) (w : Codeword) (last : Bool) : State :=
  let t := (s.chan c).retry.clock
  let mark := updateIf (fun v : Codeword => v.seq == w.seq)
    fun v => { v with first := some (v.first.getD t), latest := some t }
  let s1 := s.modChan c fun x => { x with
    retry := { x.retry with current := none, retain := if w.kind = 0 then x.retry.retain else mark x.retry.retain }
    quiet := if last then { x.quiet with txEnded := true, ending := false } else x.quiet }
  if w.kind = 2 then s1.messageSent c w.payload else s1

/-- A member at a symbol: bits of the symbol not yet used. -/
abbrev Room := List (ChanId × Nat × Nat)

/-- A member's symbol takes stream bits, in their order (R173). -/
def State.dealBits (s : State) (c : ChanId) (u : List Bool) : State :=
  s.modChan c fun x => { x with air := { x.air with bits := x.air.bits ++ u } }

/-- Use bits of codewords in course; a codeword that ends leaves its member the rest of the symbol. -/
def sendOut : Room → Room → State → Room × State
  | [], done, s => (done, s)
  | (c, left, b) :: t, done, s =>
    match (s.chan c).retry.current with
    | some (w, u, last) =>
      if left < u.length then
        sendOut t (done ++ [(c, 0, b)])
          ((s.dealBits c (u.take left)).modRetry c fun r => { r with current := some (w, u.drop left, last) })
      else sendOut t (done ++ [(c, left - u.length, b)]) ((s.dealBits c u).endCodeword c w last)
    | none => sendOut t (done ++ [(c, left, b)]) s

/-- The member whose next codeword starts earliest in the symbol: the least (B − left)/B, lowest offset first (R197). -/
def earliest : Room → Option (ChanId × Nat × Nat)
  | [] => none
  | e :: t =>
    match earliest t with
    | none => if e.2.1 = 0 then none else some e
    | some f => if e.2.1 != 0 && decide ((e.2.2 - e.2.1) * f.2.2 ≤ (f.2.2 - f.2.1) * e.2.2) then some e else some f

/-- Send one symbol on the members of a logical link; n bounds the codewords that can start in it. -/
def sendSymbol : Nat → Room → State → State
  | 0, _, s => s
  | n + 1, room, s =>
    let r := sendOut room [] s
    match earliest (r.1.filter fun e => ((r.2.chan e.1).streams && (r.2.chan e.1).retry.current.isNone)) with
    | none => r.2
    | some e => sendSymbol n r.1 (r.2.startCodeword e.1)

/-- One data symbol of a channel's logical link, done once for all its members, at the first of them. -/
def State.txSymbol (s : State) (c : ChanId) : State :=
  if !(s.chan c).streams then s
  else
    let bond := if (s.chan c).alive then (s.bond c).filter fun d => (s.chan d).streams else [c]
    if bond.head? != some c then s
    else sendSymbol 64 (bond.map fun d => (d, tableB (s.chan d).txTab, tableB (s.chan d).txTab)) s

/-! ### Receiving the byte stream (R344, R345, R389) -/

/-- A discard notice (Table 16.5). -/
def discardNotice (a b : Nat × BitVec 12) : Bytes :=
  le 1 0x42 ++ le 1 a.1 ++ le 1 b.1 ++ zeros 1 ++ le 2 a.2.toNat ++ le 2 b.2.toNat

/-- Parse bytes of a codeword into packets: a 0x00 where a packet would begin is fill (R169); a failed header starts the
hunt for the next packet start. `invert` is an armed inversion, used up by the first header checked. n bounds the
packets. -/
def parsePackets (id : Nat × BitVec 12) (start : Nat) (whole : Bytes) : Nat → Bool → Bytes → Retry → Bool × Retry
  | 0, invert, _, r => (invert, r)
  | n + 1, invert, rest, r =>
    if r.partial'.isEmpty && (rest.isEmpty || byteAt rest 0 == 0) then (invert, r)
    else
      let origin := if r.partial'.isEmpty then id else r.origin
      let b := r.partial' ++ rest
      if b.length < 32 then (invert, { r with partial' := b, origin := origin })
      else if invert || !headerOk (b.take 32) then
        let r1 := { r with partial' := [], bad := r.bad ++ [b.take 32] }
        if origin != id && start != 255 then
          parsePackets id start whole n false (whole.drop start)
            { r1 with lm := r1.lm ++ [discardNotice origin id] }
        else (false, { r1 with hunting := some (origin, id) })
      else
        let size := (readHead b).size
        if b.length < size then (invert, { r with partial' := b, origin := origin })
        else
          parsePackets id start whole n invert (b.drop size)
            { r with partial' := [], arrived := r.arrived ++ [readPacket (b.take size)] }

/-- A delivered transport codeword joins the byte stream. -/
def Retry.feed (id : Nat × BitVec 12) (start : Nat) (payload : Bytes) (invert : Bool) (r : Retry) : Bool × Retry :=
  match r.hunting with
  | some h =>
    if start = 255 then (invert, { r with hunting := some (h.1, id) })
    else
      parsePackets id start payload 9 invert (payload.drop start)
        { r with hunting := none, lm := r.lm ++ [discardNotice h.1 (if start = 0 then h.2 else id)] }
  | none => parsePackets id start payload 9 invert payload r

/-- Feed a codeword to the logical link of a channel; an armed header inversion is used on its first header (R439). -/
def State.feedCodeword (s : State) (c : ChanId) (id : Nat × BitVec 12) (start : Nat) (payload : Bytes) : State :=
  let armed := (s.armedFor 4 c.val).isSome
  let o := s.owner c
  let r := (s.chan o).retry.feed id start payload armed
  let s1 := s.modRetry o fun _ => r.2
  if armed && !r.1 then s1.injected 4 c.val (chanSource 1 c) else s1

/-! ### The merge of a bonded group (R197, R392) -/

/-- Is an instant before another? -/
def earlierThan (a b : Merged) : Bool :=
  if a.frame != b.frame then decide (a.frame < b.frame)
  else if a.symbol != b.symbol then decide (a.symbol < b.symbol)
  else if a.num * b.den != b.num * a.den then decide (a.num * b.den < b.num * a.den)
  else decide (a.offset < b.offset)

def insertMerged (m : Merged) : List Merged → List Merged
  | [] => [m]
  | x :: t => if earlierThan m x then m :: x :: t else x :: insertMerged m t

/-- The start instant of the next codeword of a member (R197): where the first unused soft value came, or the stream's count. -/
def State.instant (s : State) (c : ChanId) (seq : BitVec 12) : Merged :=
  let x := s.chan c
  match x.air.soft with
  | v :: _ => ⟨v.frame, v.symbol, x.air.used, v.width, s.pairOffset c, seq, none⟩
  | [] => ⟨x.retry.rxFrame, x.retry.rxPos / x.retry.rxB + 1, x.retry.rxPos % x.retry.rxB, x.retry.rxB, s.pairOffset c, seq, none⟩

/-- n soft values taken from the front, those of the front symbol already used left out: the values, what is left, and how many of
the new front symbol are used. -/
def takeSoft : Nat → Nat → List SoftSymbol → List Int × List SoftSymbol × Nat
  | _, used, [] => ([], [], used)
  | n, used, v :: t =>
    let l := v.lam.drop used
    if n < l.length then (l.take n, v :: t, used + n)
    else
      let r := takeSoft (n - l.length) 0 t
      (l ++ r.1, r.2)

/-- Soft values that wait for the decoder. -/
def Air.waiting (a : Air) : Nat :=
  (a.soft.map fun v => v.lam.length).sum - a.used

/-- The stream's count past one codeword (R173): positions go on in the next superframe after 255 data symbols. -/
def Retry.passWord (b : Nat) (r : Retry) : Retry :=
  let p := r.rxPos + 2304
  if p < 255 * r.rxB then { r with rxPos := p }
  else { r with rxFrame := r.rxFrame + 1, rxPos := p - 255 * r.rxB, rxB := b }

/-- Soft values up to the nth unused one, those of the front symbol already used counted from. -/
def keepSoft : Nat → Nat → List SoftSymbol → List SoftSymbol
  | _, _, [] => []
  | n, used, v :: t =>
    if n = 0 then []
    else if used + n < v.lam.length then [{ v with lam := v.lam.take (used + n) }]
    else v :: keepSoft (n - (v.lam.length - used)) 0 t

/-- The received stream has ended with a codeword: bits beyond it are discarded (R255). -/
def Air.dropRest (a : Air) : Air :=
  let l := keepSoft (a.waiting / 2304 * 2304) a.used a.soft
  { a with soft := l, used := if l.isEmpty then 0 else a.used }

/-- Move past one codeword: past its soft values, and where they have not come one by one past its bits. -/
def State.passCodeword (s : State) (c : ChanId) : State :=
  s.modChan c fun x =>
    if 2304 ≤ x.air.waiting then
      let r := takeSoft 2304 x.air.used x.air.soft
      { x with
        air := { x.air with soft := r.2.1, used := r.2.2 }
        retry := { x.retry with rxFrame := x.air.frame, rxPos := (x.air.symbol - 1) * tableB x.load.rxTable,
                                rxB := tableB x.load.rxTable } }
    else { x with retry := x.retry.passWord (tableB x.load.rxTable) }

/-- A member that takes part in the order of start instants: one whose stream is being received in data mode (R198). -/
def Chan.inOrder (x : Chan) : Bool :=
  x.rxData && !x.quiet.rxEnded

/-- Deliver merged codewords from the front while no member in the order can still bring an earlier one; n bounds them. -/
def drainMerge (c : ChanId) : Nat → State → State
  | 0, s => s
  | n + 1, s =>
    let o := s.owner c
    match (s.chan o).retry.merge with
    | [] => s
    | m :: t =>
      match m.content with
      | none => s
      | some w =>
        if (s.bond c).all (fun d => !(s.chan d).inOrder || earlierThan m (s.instant d 0) || s.pairOffset d == m.offset) then
          drainMerge c n ((s.modRetry o fun r => { r with merge := t }).feedCodeword o (m.offset, m.seq) w.1 w.2)
        else s

/-- A position of a bonded member appears for the first time. -/
def State.notePosition (s : State) (c : ChanId) (seq : BitVec 12) : State :=
  let o := s.owner c
  let off := s.pairOffset c
  let m := s.instant c seq
  if before seq (s.chan c).retry.expect || ((s.chan o).retry.merge.any fun x => x.offset == off && x.seq == seq) then s
  else s.modRetry o fun r => { r with merge := insertMerged m r.merge }

/-- A delivered codeword takes its recorded place; a link-management codeword gives its place up. -/
def State.fillPosition (s : State) (c : ChanId) (seq : BitVec 12) (content : Option (Nat × Bytes)) : State :=
  let off := s.pairOffset c
  let here := fun (x : Merged) => x.offset == off && x.seq == seq
  s.modRetry (s.owner c) fun r =>
    if content.isSome then { r with merge := updateIf here (fun x => { x with content := content }) r.merge }
    else { r with merge := r.merge.filter fun x => !here x }

/-! ### CODEWORD_DECODED -/

def State.modQuality (s : State) (c : ChanId) (f : Quality → Quality) : State :=
  s.modChan c fun x => { x with quality := f x.quality }

/-- Deliver a sequenced codeword by kind (R176): messages wait in the inbox for the command that acts on them, transport
bytes join the stream. -/
def State.deliver (s : State) (c : ChanId) (h : Header) (payload : Bytes) : State :=
  let bonded := decide (1 < (s.bond c).length)
  if h.kind = 2 then
    let s1 := s.modRetry c fun r => { r with inbox := r.inbox ++ [payload] }
    if bonded then drainMerge c 4096 (s1.fillPosition c h.seq none) else s1
  else
    let s1 := s.stopFalseWake c
    if bonded then drainMerge c 4096 (s1.fillPosition c h.seq (some (h.start, payload)))
    else s1.feedCodeword c (s.pairOffset c % (if (s.chan c).partner.bondedLink then 8 else 1), h.seq) h.start payload

/-- Take a good sequenced codeword: delivered when expected, else discarded (R382). -/
def State.takeSequenced (s : State) (c : ChanId) (h : Header) (payload : Bytes) : State :=
  let r := (s.chan c).retry
  let s0 := s.modChan c fun x => { x with quiet := { x.quiet with idleSince := s.clock.symbols } }
  if h.seq = r.expect then
    let again := match r.late with | some l => decide ((l - h.seq).toNat < 2048) | none => false
    let s1 := s0.modChan c fun x => { x with
      retry := { x.retry with
        expect := x.retry.expect + 1, late := if again && r.late != some h.seq then x.retry.late else none }
      quality := if again then { x.quality with delivered := x.quality.delivered + 1 } else x.quality }
    s1.deliver c h payload
  else if before h.seq r.expect then s0
  else s0.modRetry c fun x => { x with late :=
    match x.late with
    | some l => if before l h.seq then some h.seq else some l
    | none => some h.seq }

/-- The decoded information word of a channel: the outcome, header and payload after R168 and R176. -/
def decodeWord (lam : List Int) (imax scr : Nat) (inverted : Bool) : Decoded × Option (Header × Bytes) :=
  let d := ldpcDecode lam imax
  let b := (scramble d.2 scr).1
  match d.1, readHeader (b.take 40) with
  | .uncorrectable, _ => (.uncorrectable, none)
  | _, none => (.uncorrectable, none)
  | o, some h => if inverted then (.uncorrectable, none) else (o, some (h, bitsToBytes 251 (b.drop 40)))

/-- A codeword of data mode: counted, its acknowledge taken, and handled by kind. -/
def State.dataCodeword (s : State) (c : ChanId) (d : Decoded × Option (Header × Bytes)) : State :=
  let bonded := decide (1 < (s.bond c).length)
  match d.2 with
  | none =>
    let seq := (s.chan c).retry.posSeq
    let s1 := s.modQuality c fun q => { q with uncorrectable := q.uncorrectable + 1 }
    let s2 := s1.occurChan 0 c (s1.addrLink c 0)
    let s3 := if bonded then s2.notePosition c seq else s2
    (s3.modRetry c fun r => { r with posSeq := seq + 1 }).passCodeword c
  | some (h, payload) =>
    let s1 := s.modQuality c fun q =>
      if d.1 = .clean then { q with clean := q.clean + 1 } else { q with corrected := q.corrected + 1 }
    let frame := (s.instant c 0).frame
    let s2 := (s1.takeAck c h.ack).modChan c fun x => { x with
      -- data after an own alert: the partner's stream runs (corner after R260)
      quiet := if x.stands .data && !x.quiet.rxEnded && !x.quiet.txEnded then { x.quiet with alert := none } else x.quiet
      retry := if h.kind = 2 then { x.retry with msgFrame := frame } else x.retry }
    if h.kind = 0 then s2.passCodeword c
    else
      let s3 := if bonded then s2.notePosition c h.seq else s2
      ((s3.modRetry c fun r => { r with posSeq := h.seq + 1 }).passCodeword c).takeSequenced c h payload

/-- The partner's training stream is being received (R223); it may begin while this end is still in TRAIN4 or F2. -/
def Chan.rxTrains (x : Chan) : Bool :=
  x.train.rxBegun && (x.stands .train4 || x.stands .train5 || x.stands .fast)

/-- A codeword of the training stream: only messages are taken, and nothing is counted (R223). -/
def State.trainingCodeword (s : State) (c : ChanId) (d : Decoded × Option (Header × Bytes)) : State :=
  match d.2 with
  | some (h, payload) =>
    if h.kind = 2 then (s.passCodeword c).modRetry c fun r => { r with inbox := r.inbox ++ [payload] } else s.passCodeword c
  | none => s.passCodeword c

/-- The soft values of the next codeword: those of the symbols that came one by one, else those given. -/
def Air.word (a : Air) (lam : List Int) : List Int :=
  if 2304 ≤ a.waiting then (takeSoft 2304 a.used a.soft).1 else lam

/-- The received stream has ended, and no whole codeword of it is left for the decoder: its last codewords leave the decoder within a
superframe (DESIGN CHOICE), or when their soft values are used up. -/
def State.rxOver (s : State) (x : Chan) : Bool :=
  x.quiet.rxEnded && decide (x.air.waiting < 2304) &&
  (match x.quiet.seenEnd with | some t => s.passedFrom t 1 | none => true)

/-- CODEWORD_DECODED: the next 2,304 soft values of the received stream enter the decoder of R175. -/
def execCodewordDecoded (c : ChanId) (lam : List Int) (s : State) : Host.Outcome State Fault Refusal :=
  let x := s.chan c
  let inverted := (s.armedFor 3 c.val).isSome
  let d := decodeWord (x.air.word lam) (s.elem 0x030C c) x.retry.rxScr.toNat inverted
  if !s.runs || !(x.rxTrains || x.rxData) || s.rxOver x then .next s
  else
    let s1 := s.modRetry c fun r => { r with rxScr := BitVec.ofNat 23 (prbsBits 23 18 2048 r.rxScr.toNat).2 }
    let s2 := if x.rxData then s1.dataCodeword c d else s1.trainingCodeword c d
    .next (if inverted then s2.injected 3 c.val (chanSource 0 c) else s2)

/-! ### Messages and headers delivered on a channel -/

/-- Act on a delivered message of a type: it is taken from the inbox. A message of another type, or one that has not
been delivered, changes nothing. -/
def State.onMessage (s : State) (c : ChanId) (msg : Bytes) (kind : Nat) (act : State → State) : State :=
  if s.runs && field msg 0 1 == kind && (s.chan c).retry.inbox.contains msg then
    act (s.modRetry c fun r => { r with inbox := eraseFirst (· == msg) r.inbox })
  else s

/-- RESTART: the partial packet and every message in reception are dropped (R388); in a bonded group also the held
codewords that rank before it (R392). -/
def execRestart (c : ChanId) (msg : Bytes) (s : State) : Host.Outcome State Fault Refusal :=
  .next (s.onMessage c msg 0x40 fun t =>
    let m := t.instant c 0
    (t.modRetry (t.owner c) fun r => { r with
      partial' := [], hunting := none, merge := r.merge.filter fun x => !earlierThan x m }).abandonChan c)

/-- Renumber kept codewords from a sequence number on. -/
def renumber : BitVec 12 → List Codeword → List Codeword
  | _, [] => []
  | n, w :: t => { w with seq := n } :: renumber (n + 1) t

/-- RESUME (R391): what the partner has is released and the rest is sent again, numbered onward; a resume that cannot be
used is a give-up. -/
def execResume (c : ChanId) (msg : Bytes) (s : State) : Host.Outcome State Fault Refusal :=
  .next (s.onMessage c msg 0x41 fun t =>
    let r := (t.chan c).retry
    let n := BitVec.ofNat 12 (field msg 2 2)
    let first := match r.kept with | w :: _ => w.seq | [] => r.oldNext
    match r.resumption with
    | .running false acked =>
      let done : Resumption := if acked then .complete else .running true false
      if (field msg 1 1).testBit 0 && decide ((n - first).toNat ≤ (r.oldNext - first).toNat) then
        let gone := r.kept.filter fun w => before w.seq n
        let rest := renumber r.next (r.kept.filter fun w => !before w.seq n)
        let t1 := t.modRetry c fun x => { x with
          kept := [], retain := x.retain ++ rest, resend := x.resend ++ rest,
          next := x.next + BitVec.ofNat 12 rest.length, resumption := done,
          history := keepHistory (x.history ++ rest.map fun w => (w.seq, w.ops)) }
        (State.refsAcked c (refsIn gone) t1).advance
      else (t.modRetry c fun x => { x with resumption := done }).giveUp c true
    | _ => t.giveUp c true)

/-- Is a sequence within a range of the history? -/
def inRange (a b n : BitVec 12) : Bool :=
  decide ((n - a).toNat ≤ (b - a).toNat)

/-- DISCARD_NOTICE (R389): operations with bytes in the named codewords are lost. In a bonded group the range runs from
the first member's codeword to the last member's. -/
def execDiscardNotice (c : ChanId) (msg : Bytes) (s : State) : Host.Outcome State Fault Refusal :=
  .next (s.onMessage c msg 0x42 fun t =>
    let a := BitVec.ofNat 12 (field msg 4 2)
    let b := BitVec.ofNat 12 (field msg 6 2)
    let oa := field msg 1 1
    let ob := field msg 2 1
    let refs := (t.bond c).flatMap fun d =>
      let o := if (t.chan d).partner.bondedLink then t.pairOffset d else 0
      ((t.chan d).retry.history.filter fun h =>
        (if oa = ob then o == oa && inRange a b h.1
         else if o = oa then decide ((h.1 - a).toNat < 2048)
         else if o = ob then decide ((b - h.1).toNat < 2048)
         else false)).flatMap (·.2)
    (State.loseRefs c refs t).advance)

/-- PAD: fills a position and nothing else (R392). -/
def execPad (c : ChanId) (msg : Bytes) (s : State) : Host.Outcome State Fault Refusal :=
  .next (s.onMessage c msg 0x43 id)

/-- HEADER_CHECK_FAILED (R344): counted once for each header that failed. -/
def execHeaderCheckFailed (c : ChanId) (header : Bytes) (s : State) : Host.Outcome State Fault Refusal :=
  if s.runs && (s.chan (s.owner c)).retry.bad.contains header then
    .next ((s.modRetry (s.owner c) fun r => { r with bad := eraseFirst (· == header) r.bad }).occurChan 1 c
      (addrPacket (readHead header) 0xFF))
  else .next s

end Sys2Proof.Machine
end

