-- ==== Sys2Proof/Machine/Streams.lean ====
section
/-! DEFINITION. Streams to and from a moving medium (R397 to R416): signals, stream events, the stream items, due slots
and firebreaks, and what a signal does at the sender. -/

namespace Sys2Proof.Machine

/-! ### Parameters of a stream (Table 17.1) -/

def State.frameF (s : State) (p : Port) (q : Fin 512) : Nat := s.elem 0x0901 (queueKey p q)
def State.rate (s : State) (p : Port) (q : Fin 512) : Nat := s.elem 0x0902 (queueKey p q)
def State.reserveSize (s : State) (p : Port) (q : Fin 512) : Nat := s.elem 0x0903 (queueKey p q)
def State.allowance (s : State) (p : Port) (q : Fin 512) : Nat := s.elem 0x0906 (queueKey p q)
def State.slowBelow (s : State) (p : Port) (q : Fin 512) : Nat := s.elem 0x0907 (queueKey p q)

/-! ### Signals and events -/

/-- A stream signal (Table 17.5). -/
def streamSignal (event status : Nat) (txn : BitVec 32) (value : Nat) (q : Fin 512) : Bytes :=
  le 1 0x50 ++ le 1 event ++ le 1 status ++ zeros 1 ++ le 4 txn.toNat ++ le 8 value ++ le 2 q.val

def State.signal (s : State) (c : ChanId) (event status : Nat) (txn : BitVec 32) (value : Nat) (q : Fin 512) : State :=
  s.sendLm (s.owner c) (streamSignal event status txn value q)

/-- The fields of a stream event record (Table 17.6) that vary. -/
structure StreamEvent where
  event : Nat
  chan : Nat
  frame : Nat
  txn : BitVec 32
  value : Nat
  offset : Nat
  bytes : Nat
  due : Nat
  episode : Nat
  deriving DecidableEq, Repr

def State.streamRecord (s : State) (p : Port) (q : Fin 512) (e : StreamEvent) : State :=
  s.record p 0xC
    (le 2 (queueKey p q) ++ le 1 (s.role p q).stream ++ le 1 e.event ++ le 1 e.chan ++ zeros 3 ++ le 4 e.frame ++
     le 4 e.txn.toNat ++ le 8 e.value ++ le 8 e.offset ++ le 4 e.bytes ++ le 4 e.due ++ le 2 e.episode ++ zeros 14)

/-- Superframe in which slot k falls due (R401). -/
def State.due (s : State) (p : Port) (q : Fin 512) (k : Nat) : Sf :=
  let x := (s.queue p q).stream
  x.start + BitVec.ofNat 48 (x.lead + k * s.frameF p q / s.rate p q)

/-- An event of a feed stream about slot k. -/
def State.feedEvent (s : State) (p : Port) (q : Fin 512) (event k : Nat) (txn : BitVec 32) : State :=
  let x := (s.queue p q).stream
  s.streamRecord p q ⟨event, (match x.chan with | some c => c.val | none => 0), k, txn, 0, 0, 0,
    (s.due p q k).toNat % 2 ^ 32, x.episode⟩

def State.modStream (s : State) (p : Port) (q : Fin 512) (f : Stream → Stream) : State :=
  s.modQueue p q fun x => { x with stream := f x.stream }

/-! ### Stream items -/

/-- Act on the next item of a queue when it has a body of a form: it starts. -/
def State.onItem (s : State) (p : Port) (q : Fin 512) (act : Item → ItemBody → Option State) : State :=
  match s.nextItem p q with
  | some (i, some b) => (act i b).getD s
  | _ => s

/-- STREAM_START (R400, R401, R414). -/
def execStreamStart (p : Port) (q : Fin 512) (s : State) : Host.Outcome State Fault Refusal :=
  .next (s.onItem p q fun i b =>
    match b with
    | .streamStart lead reserve =>
      let s1 := s.startItem p q i.index
      let kind := (s.role p q).stream
      if kind = 3 then
        some ((s1.modStream p q fun x => { x with withdrawn := false }).complete p q i.index 0x00 0 none)
      else if (s.queue p q).stream.running then some (s1.complete p q i.index 0x15 0 none)
      else some ((s1.modStream p q fun x => { x with
        running := true, start := s.clock.sf, lead := lead, nextSlot := 0, dueSlot := 0, episode := 0, slots := [],
        reserveAddr := reserve, reservePos := 0, episodeOpen := false, frames := 0 }).complete p q i.index 0x00 0 none)
    | _ => none)

/-- The next item of a queue is a stream buffer: it is on offer; on a running feed it takes the next slot number
(R401). -/
def State.takeBuffer (s : State) (p : Port) (q : Fin 512) : State :=
  s.onItem p q fun i b =>
    match b with
    | .streamBuffer _ _ =>
      some ((s.startItem p q i.index).modStream p q fun x =>
        if (s.role p q).stream == 1 && x.running then
          { x with slots := x.slots ++ [(x.nextSlot, i.index)], nextSlot := x.nextSlot + 1 }
        else x)
    | _ => none

/-- STREAM_BUFFER. -/
def execStreamBuffer (p : Port) (q : Fin 512) (s : State) : Host.Outcome State Fault Refusal :=
  .next (s.takeBuffer p q)

/-- STREAM_STOP (R408). -/
def execStreamStop (p : Port) (q : Fin 512) (s : State) : Host.Outcome State Fault Refusal :=
  .next (s.onItem p q fun i b =>
    match b with
    | .streamStop =>
      let s1 := s.startItem p q i.index
      if (s.queue p q).stream.running then
        some ((s1.modStream p q fun x => { x with running := false }).complete p q i.index 0x00 0 none)
      else some (s1.complete p q i.index 0x15 0 none)
    | _ => none)

/-- Does a frame write into a drain stream's reserve? -/
def State.inReserve (s : State) (p : Port) (q : Fin 512) : Bool :=
  s.transport.messages.any fun m => m.port == p && m.queue == q && decide (0 < m.reserve) && !m.dropped

/-- RESERVE_RELEASE (R411): waits until no frame writes into the reserve. -/
def execReserveRelease (p : Port) (q : Fin 512) (s : State) : Host.Outcome State Fault Refusal :=
  .next (s.onItem p q fun i b =>
    match b with
    | .reserveRelease =>
      let x := (s.queue p q).stream
      if !x.episodeOpen then some ((s.startItem p q i.index).complete p q i.index 0x15 0 none)
      else if s.inReserve p q then none
      else
        let s1 := (s.startItem p q i.index).modStream p q fun y => { y with episodeOpen := false, reservePos := 0 }
        let s2 := match x.chan with | some c => s1.signal c 5 0 0 0 q | none => s1
        let s3 := s2.streamRecord p q
          ⟨5, (match x.chan with | some c => c.val | none => 0), x.frames, 0, 0, 0, 0, 0, 0⟩
        some (s3.complete p q i.index 0x00 0 none)
    | _ => none)

/-! ### Due slots (R403 to R407) -/

/-- The firebreak record (Table 17.4). -/
def State.firebreakBytes (s : State) (p : Port) (q : Fin 512) (k n : Nat) : Bytes :=
  let b := [0x41, 0x51, 0x46, 0x42] ++ le 1 1 ++ zeros 3 ++ le 2 q.val ++ zeros 2 ++ le 4 k ++ le 4 (s.frameF p q) ++
    le 2 n ++ zeros 2 ++ le 8 (s.elem 0x0905 (queueKey p q)) ++ le 8 (s.due p q k).toNat ++ zeros 20
  b ++ le 4 (crc32c b)

/-- The buffer address of a stream buffer item. -/
def itemAddr (i : Item) : BitVec 64 :=
  BitVec.ofNat 64 (field i.raw 0x18 8)

/-- A frame that has claimed the slot's item is overtaken (R404): its later packets are dropped and its sender told. -/
def State.overtake (s : State) (p : Port) (q : Fin 512) (item : BitVec 32) (k : Nat) : State :=
  match s.transport.messages.find? fun m => m.port == p && m.queue == q && m.item == some item && !m.dropped with
  | none => s
  | some m =>
    let s1 := s.modTransport fun t =>
      { t with messages := updateIf (fun x => x == m) (fun x => { x with dropped := true }) t.messages }
    s1.signal m.chan 4 0 m.txn k q

/-- A feed stream is exhausted (R407). -/
def State.exhaust (s : State) (p : Port) (q : Fin 512) (k : Nat) (item : BitVec 32) : State :=
  let s1 := (s.modStream p q fun x => { x with running := false }).feedEvent p q 3 k 0
  let tag := match s.findItem p q item with | some i => field i.raw 4 4 | none => 0
  s1.occurQueue 21 p q (addrItem item.toNat tag 0 (s.queue p q).stream.chan)

/-- Write a firebreak into slot k's item (R405), and the decelerate event at the first firebreak after which the rest of
the reserve is short (R406). -/
def State.firebreak (s : State) (p : Port) (q : Fin 512) (k : Nat) (i : Item) : State :=
  let n := (s.queue p q).stream.episode + 1
  let left := fun m => s.reserveSize p q - m * s.frameF p q
  let s1 := (s.overtake p q i.index k).hostWrite p (itemAddr i) (s.firebreakBytes p q k n)
  let s2 := s1.modQueue p q fun x => { x with
    claims := x.claims ++ [(i.index, 0)], stream := { x.stream with episode := n, dueSlot := k + 1 } }
  let s3 := s2.fence p (.firebreakFence q i.index k)
  if left n < s.slowBelow p q && s.slowBelow p q ≤ left (n - 1) then s3.feedEvent p q 2 k 0 else s3

/-- Slot k of a feed stream has fallen due: its frame is placed, or its item receives a firebreak, or the stream is
exhausted (R403). -/
def State.slotFalls (s : State) (p : Port) (q : Fin 512) (k : Nat) : State :=
  let x := (s.queue p q).stream
  match x.slots.find? fun e => e.1 == k with
  | none => s.exhaust p q k 0
  | some e =>
    match s.findItem p q e.2 with
    | none => s.modStream p q fun y => { y with episode := 0, dueSlot := k + 1 }
    | some i =>
      match i.phase with
      | .done _ _ => s.modStream p q fun y => { y with episode := 0, dueSlot := k + 1 }
      | _ => if x.episode < s.allowance p q then s.firebreak p q k i else s.exhaust p q k i.index

/-- The slot that falls due next; a fetched item that has not been started yet counts for it (R403). -/
def State.slotDue (s : State) (p : Port) (q : Fin 512) : State :=
  let x := (s.queue p q).stream
  let k := x.dueSlot
  if s.runs && (s.role p q).stream == 1 && x.running && decide ((s.clock.sf - s.due p q k).toNat < 2 ^ 47) then
    (if x.slots.any fun e => e.1 == k then s else s.takeBuffer p q).slotFalls p q k
  else s

/-- STREAM_SLOT_DUE. -/
def execStreamSlotDue (p : Port) (q : Fin 512) (s : State) : Host.Outcome State Fault Refusal :=
  .next (s.slotDue p q)

/-- A firebreak's fence has completed: the item completes with 0x12, and event 0x01 follows (R405). -/
def State.firebreakDone (s : State) (p : Port) (q : Fin 512) (item : BitVec 32) (k : Nat) : State :=
  (s.complete p q item 0x12 (BitVec.ofNat 32 k) (s.queue p q).stream.chan).feedEvent p q 1 k 0

/-! ### Signals at the sender (R413, R414) -/

/-- A disposition of a stream send. -/
def State.disposition (s : State) (o : Op) (c : ChanId) (event status value : Nat) : State :=
  match event with
  | 1 => (s.endOp o 0x00 0).advance
  | 3 => ((s.endOp o 0x13 value).streamRecord o.port o.queue
      ⟨3, c.val, o.item.toNat, o.txn, value, 0, 0, 0, 0⟩).advance
  | 4 => ((s.endOp o 0x14 value).modStream o.port o.queue fun x => { x with withdrawn := true }).advance
  | _ => (s.endOp o (statusCode status) 0).advance

/-- STREAM_SIGNAL. -/
def execStreamSignal (c : ChanId) (msg : Bytes) (s : State) : Host.Outcome State Fault Refusal :=
  .next (s.onMessage c msg 0x50 fun t =>
    let event := field msg 1 1
    let txn := BitVec.ofNat 32 (field msg 4 4)
    let target := BitVec.ofNat 16 (field msg 0x10 2)
    if event = 2 || event = 5 then
      match t.transport.lastFrames.find? fun f => f.1 == t.owner c && f.2.1 == target with
      | some f => t.streamRecord f.2.2.1 f.2.2.2.1 ⟨event, c.val, f.2.2.2.2.toNat, 0, 0, 0, 0, 0, 0⟩
      | none => t
    else if event = 1 || event = 3 || event = 4 || event = 6 then
      match t.op txn with
      | some o =>
        if o.kind = .send && (t.role o.port o.queue).stream = 3 then
          t.disposition o c event (field msg 2 1) (field msg 8 8)
        else t
      | none => t
    else t)

end Sys2Proof.Machine
end

