-- ==== Sys2Proof/Machine/Escalation.lean ====
section
/-! DEFINITION. Grace and escalation (R426 to R438): the grace timer, quarantine, halt and quiesce with their discarded
work, acknowledgement, clearing and release. -/

namespace Sys2Proof.Machine

/-! ### Discarded work (R433, R435) -/

/-- A discard record's bytes after its header (Table 18.8). -/
def discardBody (p : Port) (q : Fin 512) (cause : Nat) (x : Queue) (source : Nat) : Bytes :=
  le 2 (queueKey p q) ++ le 1 cause ++ le 1 (bit x.lastDone.isSome) ++
  le 4 (match x.lastDone with | some i => i.toNat | none => 0) ++
  le 4 (x.consumed - BitVec.ofNat 32 x.items.length).toNat ++ le 4 x.consumed.toNat ++ le 2 source ++ zeros 6

/-- Remove operations without completing their items. -/
def dropOps : List Op → State → State
  | [], s => s
  | o :: t, s => dropOps t (s.removeOp o)

/-- Discard a queue's fetched items: its operations, messages in reception, claims and stream run end, and the reserved
completion entries are given back; no completion is written (R433). -/
def State.discardWork (s : State) (p : Port) (q : Fin 512) : State :=
  let x := s.queue p q
  let s1 := dropOps (s.transport.ops.filter fun o => o.port == p && o.queue == q) s
  let s2 := s1.modTransport fun t => { t with messages := t.messages.filter fun m => !(m.port == p && m.queue == q) }
  (s2.unreserve p q x.items.length).modQueue p q fun y => { y with
    items := [], claims := [], stream := { y.stream with running := false, slots := [], episodeOpen := false } }

/-- Discard a queue's work with its record. -/
def State.discardQueue (s : State) (p : Port) (q : Fin 512) (cause source : Nat) : State :=
  let x := s.queue p q
  (s.discardWork p q).record p 0x0B (discardBody p q cause x source)

/-- Halt a queue (R433): always with a discard record. -/
def State.haltQueue (s : State) (p : Port) (q : Fin 512) (lead : Nat) : State :=
  (s.discardQueue p q 1 lead).modQueue p q fun x => { x with halted := true }

/-- Discard the work of queues by key; a record for each that held items, for the others none. -/
def discardKeys (cause source : Nat) : List Nat → State → State
  | [], s => s
  | k :: t, s =>
    let pq := keyQueue k
    discardKeys cause source t
      (if (s.queue pq.1 pq.2).items.isEmpty then s.discardWork pq.1 pq.2 else s.discardQueue pq.1 pq.2 cause source)

/-- Quiesce: every queue of both ports is halted in one slot. -/
def State.quiesce (s : State) (lead : Nat) : State :=
  discardKeys 2 lead (s.queues.map (·.1)) { s with faults := { s.faults with quiesced := true } }

/-! ### Escalation (R431, R432) -/

/-- A channel-up item that is under way on a channel as it is quarantined completes with result 2 (R432), and its wake frames stop. -/
def State.refuseUp (s : State) (c : ChanId) : State :=
  let w := (s.chan c).wake
  let up := match w.sending with | some (_, _, x) => some x | none => w.upItem
  (s.modChan c fun x => { x with wake := { x.wake with sending := none, upItem := none } }).settleItem up 2

/-- Quarantine a channel: one in OFF stays there with its quarantine recorded (R432). DEDUCED: a start of search that waits there for its
epoch boundary is given up; see assumption 110. -/
def State.quarantine (s : State) (c : ChanId) : State :=
  let s1 := (s.modChan c fun x => { x with quarantined := true }).refuseUp c
  match (s.chan c).link with
  | .off | .quarantine => s1.modChan c fun x => { x with bring := { x.bring with toSearch := none } }
  | _ => s1.leave c .quarantine 0x12

/-- What an escalated instance's scope does. -/
def State.escalateScope (s : State) (i : Scope) (lead : Nat) : State :=
  match i with
  | .channel c => s.quarantine c
  | .queue p q => s.haltQueue p q lead
  | .device => s.quiesce lead

/-- Escalate an instance with its reaction state; the lead's status record follows with event 0x04. -/
def State.escalate (s : State) (r : Reaction) : State :=
  let s1 := (s.setReaction r.scope (some { r with expires := none })).escalateScope r.scope r.lead
  s1.produce (s1.statusRecs r.lead 4 (some r.scope) r.lead)

/-- GRACE_TIMER_EXPIRY (R427). -/
def execGraceTimerExpiry (i : Scope) (s : State) : Host.Outcome State Fault Refusal :=
  match s.reaction i with
  | some r =>
    match r.expires with
    | some t => if s.runs && decide (t ≤ s.clock.symbols) then .next (s.escalate r) else .next s
    | none => .next s
  | none => .next s

/-- An occurrence of source 0x398 (R426): when it becomes severe the device escalates at once, whatever the state of its
instance. -/
def State.tableError (s : State) (addr : Bytes) : State :=
  let was := (s.source 0x398).severe
  let s1 := s.occur 0x398 (some .device) addr
  if was || !(s1.source 0x398).severe then s1
  else
    match s1.reaction .device with
    | none => (s1.forgetEpisode .device).escalate ⟨.device, none, 0x398, []⟩
    | some r => s1.escalate { r with merged := r.merged ++ [0x398] }

/-! ### Acknowledgement (R428) -/

/-- The instance in grace that holds a source. -/
def State.graceOf (s : State) (src : Nat) : Option Reaction :=
  s.faults.reactions.find? fun r => !r.escalated && r.holds src

/-- Was a source part of the acknowledged episode of an instance that is still idle? -/
def State.wasAcknowledged (s : State) (src : Nat) : Bool :=
  (s.source src).severe && s.faults.acknowledged.any fun a => a.2.contains src && (s.reaction a.1).isNone

/-- The timer stops; the sources stay severe. -/
def State.acknowledge (s : State) (r : Reaction) (src : Nat) : State :=
  let s1 := (s.forgetEpisode r.scope).setReaction r.scope none
  let s2 := { s1 with faults := { s1.faults with
    acknowledged := s1.faults.acknowledged ++ [(r.scope, r.lead :: r.merged)] } }
  s2.produce (s2.statusRecs src 3 (some r.scope) r.lead)

/-- FAULT_ACKNOWLEDGE. -/
def execFaultAcknowledge (p : Port) (q : Fin 512) (s : State) : Host.Outcome State Fault Refusal :=
  .next (s.onItem p q fun i b =>
    match b with
    | .faultAcknowledge src =>
      let s1 := s.startItem p q i.index
      match s1.graceOf src with
      | some r => some ((s1.acknowledge r src).result p q i.index 0 0 0)
      | none => some (s1.result p q i.index (if s1.wasAcknowledged src then 7 else 2) 0 0)
    | _ => none)

/-! ### Clearing and release (R434, R438) -/

/-- The scope instance an instance word names. -/
def wordScope (w : BitVec 16) : Option Scope :=
  let n := w.toNat
  if h : n < 64 then some (.channel ⟨n, h⟩)
  else if 0x4000 ≤ n && n < 0x4400 then some (.queue (keyQueue (n - 0x4000)).1 (keyQueue (n - 0x4000)).2)
  else if n = 0x8000 then some .device
  else none

/-- Release an escalation. -/
def State.release (s : State) (i : Scope) : State :=
  match i with
  | .channel c =>
    let s1 := s.modChan c fun x => { x with quarantined := false }
    if (s.chan c).link = .quarantine then s1.arrive c .search 1 else s1
  | .queue p q => s.modQueue p q fun x => { x with halted := false }
  | .device => { s with faults := { s.faults with quiesced := false } }

/-- A source leaves an instance's lead or merged set; the first merged source takes a cleared lead's place. With none
left the timer stops, or the escalation is released. -/
def State.unhold (s : State) (src : Nat) (r : Reaction) : State :=
  if !r.holds src then s
  else
    match (r.lead :: r.merged).filter fun x => x != src with
    | [] =>
      let s1 := s.setReaction r.scope none
      if r.escalated then s1.release r.scope else s1
    | l :: t => s.setReaction r.scope (some { r with lead := l, merged := t })

def unholdAll (src : Nat) : List Reaction → State → State
  | [], s => s
  | r :: t, s => unholdAll src t (s.unhold src r)

/-- ERR_N is released when no sticky bit is set (R437). -/
def State.releaseErr (s : State) : State :=
  { s with pins := { s.pins with errLow := s.anySticky } }

/-- Clear one source: its record if its sticky bit was set, its values, and its hold on an instance. -/
def State.clearSource (s : State) (src : Nat) : State :=
  let x := s.source src
  let i := wordScope x.inst
  let s1 := if x.sticky then s.produce (s.statusRecs src 5 i (s.leadOf i)) else s
  let s2 := s1.setSource src { s1.source src with sticky := false, severe := false, count := 0, total := 0 }
  unholdAll src s2.faults.reactions s2

def clearSources : List Nat → State → State
  | [], s => s
  | src :: t, s => clearSources t (s.clearSource src)

/-- FAULT_CLEAR: source 0x398 and numbers without a source are left out. -/
def execFaultClear (p : Port) (q : Fin 512) (s : State) : Host.Outcome State Fault Refusal :=
  .next (s.onItem p q fun i b =>
    match b with
    | .faultClear first last =>
      let s1 := s.startItem p q i.index
      let range := (List.range 0x39B).filter fun k => decide (first ≤ k) && decide (k ≤ last) && k != 0x398
      some ((clearSources range s1).releaseErr.result p q i.index 0 0 0)
    | _ => none)

end Sys2Proof.Machine
end

