-- ==== Sys2Proof/Machine/Search.lean ====
section
/-! DEFINITION. Search, exchange and the assembling of a locked group (R209 to R221). -/

namespace Sys2Proof.Machine

/-! ### Boundaries -/

/-- The first superframe of the next frame boundary (R210): superframe counts that are a multiple of 8. -/
def State.nextFrame (s : State) : Sf :=
  BitVec.ofNat 48 (8 * (s.clock.sf.toNat / 8 + 1))

/-- The schedule stands at a superframe boundary. -/
def State.atBoundary (s : State) : Bool :=
  s.runs && s.clock.slot == 0

/-- At least n superframes have passed since t, which does not lie ahead. -/
def State.passedSf (s : State) (t : Sf) (n : Nat) : Bool :=
  decide (n ≤ s.since t) && decide (s.since t < 2 ^ 47)

/-! ### Capability and role words (Tables 10.4, 10.5) -/

/-- B_lo of R387, from the channel's retry budget. -/
def State.minimumB (s : State) (c : ChanId) : Nat :=
  max 24 (ceilDiv 2304 ((s.elem 0x0705 c - 96) / 8))

/-- The link minimum (R387). -/
def State.linkMinimum (s : State) (c : ChanId) : Nat :=
  max (s.minimumB c) (s.chan c).partner.minB

/-- The capability word a channel sends. -/
def State.capability (s : State) (c : ChanId) : Nat :=
  1 + 2 ^ 8 * s.node + 2 ^ 24 * 12 + 2 ^ 28 * s.elem 0x0400 c + 2 ^ 30 * s.pairOffset c +
  2 ^ 33 * s.elem 0x0401 c + 2 ^ 34 * bit (s.chan c).stored.isSome + 2 ^ 35 * s.minimumB c

/-- The role word a channel sends. -/
def State.roleWord (s : State) (c : ChanId) : Nat :=
  1 + 2 ^ 8 * s.elem 0x0302 c + 2 ^ 16 * c.val + 2 ^ 22 * (s.portOf c).num + 2 ^ 32 * field s.image.digest 0 4

/-- What a capability word says of the partner. -/
def Partner.ofCapability (r : Partner) (w : Nat) : Partner :=
  { r with
    node := BitVec.ofNat 16 (bits w 23 8), highB := bits w 27 24, size := 2 ^ bits w 29 28, offset := bits w 32 30,
    bonded := w.testBit 33, minB := bits w 44 35 }

/-- What a role word says of the partner. -/
def Partner.ofRole (r : Partner) (w : Nat) : Partner :=
  { r with
    role := BitVec.ofNat 8 (bits w 15 8), chan := bits w 21 16, port := bits w 22 22
    image := BitVec.ofNat 32 (bits w 63 32) }

/-- The refusal of a capability word, if any (R212). -/
def State.refuses (s : State) (w : Nat) : Option (BitVec 8) :=
  let r := Partner.reset.ofCapability w
  if bits w 7 0 != 1 || r.highB == 0 || decide (12 < r.highB) || decide (r.size ≤ r.offset) || decide (r.minB < 24) ||
      decide (708 < r.minB) then some 7
  else if r.node.toNat = s.node then some 6
  else none

/-! ### Groups (R218 to R220) -/

/-- The partner's group size and pair offset are the channel's own. -/
def State.matched (s : State) (c : ChanId) : Bool :=
  (s.chan c).partner.size == s.groupSize c && (s.chan c).partner.offset == s.pairOffset c

def State.locked (s : State) (c : ChanId) : Bool :=
  decide (1 < s.groupSize c)

/-- A member of a formed group that stands: in training after the forming, in data mode or out of it for a while. -/
def Chan.formed (x : Chan) : Bool :=
  x.partner.group == 1 && x.bring.toSearch.isNone &&
  (match x.link with
   | .train1 | .train2 | .train3 | .train4 | .train5 | .data | .quiet | .fast | .hold | .sleep => true
   | _ => false)

/-- A member that finds its formed group's partner node again trains alone and rejoins (R225). -/
def State.rejoins (s : State) (c : ChanId) : Bool :=
  s.locked c && s.matched c && (s.members c).any fun d =>
    d != c && (s.chan d).formed && (s.chan d).partner.node == (s.chan c).partner.node

/-- This end's group is assembled (R218). -/
def State.assembled (s : State) (c : ChanId) : Bool :=
  (s.members c).all fun d =>
    (s.chan d).stands .assemble && s.matched d && (s.chan d).partner.node == (s.chan c).partner.node

/-! ### What a channel sends at a frame boundary -/

/-- Frames still to send before and in a countdown: n frames end with the countdown's last. -/
def State.framesLeft (s : State) (last : Sf) : Nat :=
  ((last + 1 - s.clock.sf).toNat) / 8

/-- The call frame a channel begins at a frame boundary: none once the countdown's last frame has ended (R216 step 6). -/
def State.callOut (s : State) (c : ChanId) : Option (BitVec 128) :=
  let x := s.chan c
  let b := x.bring
  let hold := if s.pairOffset c = 0 then callFrame 4 (bit (s.assembled c)) else callFrame 5 0
  let start := fun (last : Sf) (before : BitVec 128) =>
    if s.framesLeft last ≤ 4 then callFrame 3 (s.framesLeft last - 1) else before
  let passed := match b.countdown with | some (_, last) => s.passedSf last 1 | none => false
  if passed then none
  else if x.stands .search then
    if b.caller then some (callFrame 1 (s.capability c)) else none
  else if x.stands .exchange then
    match b.countdown with
    | some (_, last) => if b.caller then some (start last (callFrame 2 (s.roleWord c)))
        else some (callFrame 2 (s.roleWord c))
    | none => if b.caller || b.roleSeen then some (callFrame 2 (s.roleWord c)) else some (callFrame 1 (s.capability c))
  else if x.stands .assemble then
    match b.countdown with
    | some (forming, last) => if b.caller then some (start last (if forming then hold else callFrame 5 0)) else some hold
    | none => some hold
  else none

/-! ### The search (R213 to R215) -/

def State.modBring (s : State) (c : ChanId) (f : Bringup → Bringup) : State :=
  s.modChan c fun x => { x with bring := f x.bring }

/-- The seed of R214. -/
def State.searchSeed (s : State) (c : ChanId) : BitVec 11 :=
  BitVec.ofNat 11 (1 + (s.node + 97 * c.val) % 2047)

/-- A new round: stepped, or as a listener without stepping. -/
def Bringup.round (b : Bringup) (now : Sf) (step energy : Bool) : Bringup :=
  let r := prbsStep 11 9 b.prbs.toNat
  let caller := step && r.1
  { b with
    caller := caller, prbs := if step then BitVec.ofNat 11 r.2 else b.prbs, rounds := b.rounds + 1, roundStart := now
    calling := energy && !caller }

/-- Enter SEARCH and begin its first round, with the wide corner and the gain to be acquired (R184, R186). -/
def State.enterSearch (s : State) (c : ChanId) (reason : Nat) (energy : Bool) : State :=
  let s1 := s.modChan c fun x => { x with bring := { x.bring with rounds := 0 } }
  (s1.move c .search reason).modChan c fun x => { x with
    rx := { x.rx with narrow := false, frozen := false }
    air := { x.air with aligned := false }
    bring := { Bringup.reset with prbs := s.searchSeed c }.round s.clock.sf true energy }

/-- A new round of a channel in SEARCH: a call frame of the round before is not gone on with (R214). -/
def State.newRound (s : State) (c : ChanId) (step energy : Bool) : State :=
  s.modChan c fun x => { x with
    bring := x.bring.round s.clock.sf step energy, air := { x.air with call := none, callRef := false } }

/-- An epoch boundary in SEARCH: a listener that met new energy in the epoch begins a new round as a listener; a round that has
lasted two epochs is followed by a stepped one; a round in its middle goes on. `energy`: call energy is present at the boundary;
`appeared`: it first appeared in the epoch that ends (R215). -/
def State.epoch (s : State) (c : ChanId) (energy appeared : Bool) : State :=
  let b := (s.chan c).bring
  if !b.caller && (energy || appeared) && !b.calling then s.newRound c false energy
  else if 324 ≤ s.since b.roundStart then s.newRound c true energy
  else s.modBring c fun x => { x with calling := energy && !x.caller }

/-- SEARCH_ROUND_START, at an epoch boundary. -/
def execSearchRoundStart (c : ChanId) (energy appeared : Bool) (s : State) : Host.Outcome State Fault Refusal :=
  let x := s.chan c
  if s.atBoundary && s.clock.sf.toNat % 162 == 0 then
    match x.bring.toSearch with
    | some reason => .next (s.enterSearch c reason.toNat energy)
    | none => if x.link = .search then .next (s.epoch c energy appeared) else .next s
  else .next s

/-! ### The exchange (R216, R217) -/

/-- Back to SEARCH, with R212's reason. -/
def State.refuseBringup (s : State) (c : ChanId) (reason : BitVec 8) : State :=
  s.modBring c fun b => { b with toSearch := some reason, countdown := none }

/-- Enter EXCHANGE with the partner's capability word. -/
def State.enterExchange (s : State) (c : ChanId) : State :=
  (s.move c .exchange 0).modBring c fun b =>
    { b with
      capSeen := true, roleSeen := false, lastProgress := s.clock.sf, assembledFar := false, lastHold := false
      countdown := none }

/-- The carrier a channel listens on: a caller on carrier 3, the other end on carrier 1 (R214, R216). -/
def State.hears (s : State) (c : ChanId) (carrier : Nat) : Bool :=
  carrier == (if (s.chan c).bring.caller then 3 else 1)

/-- CAPABILITY_FRAME: a listener that decodes calls, or a caller that hears its answer, takes the word. -/
def execCapabilityFrame (c : ChanId) (carrier : Nat) (frame : BitVec 128) (s : State) : Host.Outcome State Fault Refusal :=
  let x := s.chan c
  if s.runs && s.hears c carrier && callAccepted 1 frame && x.stands .search && (x.bring.caller || x.bring.calling) then
    let w := callPayload frame
    let s1 := s.modChan c fun y => { y with partner := y.partner.ofCapability w }
    match s.refuses w with
    | some reason => .next (s1.refuseBringup c reason)
    | none => .next (s1.enterExchange c)
  else .next s

/-- Enter ASSEMBLE. -/
def State.enterAssemble (s : State) (c : ChanId) (hold : Bool) : State :=
  (s.move c .assemble 0).modBring c fun b =>
    { b with roundStart := s.clock.sf, lastProgress := s.clock.sf, lastHold := hold }

/-- A caller begins a countdown whose last frame is the nth from the next frame boundary. -/
def State.beginCountdown (s : State) (c : ChanId) (forming : Bool) (frames : Nat) : State :=
  s.modBring c fun b => { b with countdown := some (forming, s.nextFrame + BitVec.ofNat 48 (8 * frames - 1)) }

/-- After both role words at the caller: ASSEMBLE for a member of a locked group that can form, else the countdown. -/
def State.afterRoles (s : State) (c : ChanId) : State :=
  if s.locked c && s.matched c && !s.rejoins c then s.enterAssemble c false else s.beginCountdown c false 4

/-- ROLE_FRAME. -/
def execRoleFrame (c : ChanId) (carrier : Nat) (frame : BitVec 128) (s : State) : Host.Outcome State Fault Refusal :=
  let x := s.chan c
  if s.runs && s.hears c carrier && callAccepted 2 frame && x.stands .exchange && x.bring.capSeen && !x.bring.roleSeen then
    let w := callPayload frame
    let s1 := s.modChan c fun y => { y with partner := y.partner.ofRole w }
    if bits w 7 0 != 1 then .next (s1.refuseBringup c 7)
    else
      let s2 := s1.modBring c fun b => { b with roleSeen := true, lastProgress := s.clock.sf }
      if x.bring.caller then .next (s2.afterRoles c) else .next s2
  else .next s

/-- START_FRAME: the answerer learns when the countdown ends, and whether it forms the group (R219, R220). -/
def execStartFrame (c : ChanId) (carrier : Nat) (frame : BitVec 128) (s : State) : Host.Outcome State Fault Refusal :=
  let x := s.chan c
  let b := x.bring
  if s.runs && s.hears c carrier && callAccepted 3 frame && !b.caller && b.countdown.isNone &&
      ((x.stands .exchange && b.roleSeen) || x.stands .assemble) then
    let forming := x.link == .assemble && s.pairOffset c == 0 && !b.lastHold
    .next (s.modBring c fun y => { y with
      countdown := some (forming, s.clock.sf + BitVec.ofNat 48 (8 * (callPayload frame % 4)))
      lastProgress := s.clock.sf })
  else .next s

/-! ### Assembling (R218 to R220) -/

/-- May the answerer's exchange end in ASSEMBLE? -/
def State.mayAssemble (s : State) (c : ChanId) : Bool :=
  let x := s.chan c
  x.stands .exchange && !x.bring.caller && x.bring.roleSeen && x.bring.countdown.isNone && s.matched c

/-- HOLD_FRAME. -/
def execHoldFrame (c : ChanId) (carrier : Nat) (frame : BitVec 128) (s : State) : Host.Outcome State Fault Refusal :=
  let x := s.chan c
  if !(s.runs && s.hears c carrier && callAccepted 5 frame) then .next s
  else if s.mayAssemble c then .next (s.enterAssemble c true)
  else if x.stands .assemble && x.bring.countdown.isNone then
    .next (s.modBring c fun b => { b with lastHold := true, lastProgress := s.clock.sf })
  else .next s

/-- An assembled frame is accepted in ASSEMBLE: the lead caller whose own end is assembled begins the forming
countdown on a frame whose bit is set. -/
def State.takeAssembled (s : State) (c : ChanId) (far : Bool) : State :=
  let s1 := s.modBring c fun b => { b with lastHold := false, lastProgress := s.clock.sf, assembledFar := far }
  if (s.chan c).bring.caller && s.pairOffset c == 0 && far && s1.assembled c then s1.beginCountdown c true 4 else s1

/-- ASSEMBLED_FRAME. On the lead pair it takes the place of a hold frame (DEDUCED, assumption 40). -/
def execAssembledFrame (c : ChanId) (carrier : Nat) (frame : BitVec 128) (s : State) : Host.Outcome State Fault Refusal :=
  let x := s.chan c
  let far := callPayload frame % 2 == 1
  if !(s.runs && s.hears c carrier && callAccepted 4 frame) then .next s
  else if s.mayAssemble c then .next ((s.enterAssemble c false).modBring c fun b => { b with assembledFar := far })
  else if x.stands .assemble && x.bring.countdown.isNone then .next (s.takeAssembled c far)
  else .next s

/-- EXCHANGE_TIMEOUT (R217). -/
def execExchangeTimeout (c : ChanId) (s : State) : Host.Outcome State Fault Refusal :=
  let x := s.chan c
  if s.runs && (x.stands .exchange || x.stands .assemble) && x.bring.countdown.isNone &&
      s.passedSf x.bring.lastProgress 64 then .next (s.refuseBringup c 5)
  else .next s

/-- ASSEMBLY_TIMEOUT (R220): on the lead pair four hold frames come before the countdown. -/
def execAssemblyTimeout (c : ChanId) (s : State) : Host.Outcome State Fault Refusal :=
  let x := s.chan c
  if s.runs && x.stands .assemble && x.bring.caller && x.bring.countdown.isNone &&
      s.passedSf x.bring.roundStart 1296 then
    .next (s.beginCountdown c false (if s.pairOffset c = 0 then 8 else 4))
  else .next s

/-! ### The end of a countdown -/

/-- Enter TRAIN1 with a group status; a change of it is recorded (R234), a group that fails with reason 0x13. A member that rejoins
its group alone takes its stored rows of NEXT taps and of W(k) (R225). -/
def State.enterTraining (s : State) (c : ChanId) (group : Nat) (bonded rejoining : Bool) : State :=
  let x := s.chan c
  let s1 := s.modChan c fun y => { y with
    partner := { y.partner with group := group, bondedLink := bonded, fext := y.partner.fext && group == 1 }
    bring := { y.bring with countdown := none }
    rx := { y.rx with
      narrow := false, frozen := false, gain := (s.manualGain c).getD y.rx.gain, retraining := none, holdoff := none
      gainDue := none, marked := if (s.manualGain c).isSome then 2 else 0
      next := if rejoining then (match y.stored with | some v => v.next | none => y.rx.next) else y.rx.next
      matrix := if rejoining then (match y.stored with | some v => v.matrix | none => y.rx.matrix) else y.rx.matrix }
    retry := { Retry.reset with clock := y.retry.clock }
    train := { Train.reset with phaseStart := s.clock.sf, began := s.clock.sf, rejoining := rejoining }
    air := { y.air with aligned := false, misses := 0, soft := [], used := 0, snr := SnrSum.reset, frames := 0 } }
  let s2 := s1.move c .train1 (if group = 2 then 0x13 else 0)
  if s2.groupStatus c != s.groupStatus c then s2.linkRecord c x.link (if group = 2 then 0x13 else 0) else s2

/-- A member of a forming group enters TRAIN1. -/
def State.formMember (s : State) (c : ChanId) : State :=
  if (s.chan c).stands .assemble then
    s.enterTraining c 1 (s.elem 0x0401 c == 1 && (s.chan c).partner.bonded) false
  else s

/-- A channel trains on its own pair: as a single channel, as a member of a group that is not formed, or as a member
that rejoins its formed group. -/
def State.trainAlone (s : State) (c : ChanId) : State :=
  if s.rejoins c then s.enterTraining c 1 (s.elem 0x0401 c == 1 && (s.chan c).partner.bonded) true
  else s.enterTraining c (if s.locked c then 2 else 0) false false

/-- COUNTDOWN_END. DESIGN CHOICE: a countdown that ends exactly at a superframe boundary is followed by TRAIN1 at that boundary; see
assumption 88. -/
def execCountdownEnd (c : ChanId) (s : State) : Host.Outcome State Fault Refusal :=
  let x := s.chan c
  match x.bring.countdown with
  | some (forming, last) =>
    if s.atBoundary && (x.stands .exchange || x.stands .assemble) && s.passedSf last 1 then
      if forming then .next (eachChan State.formMember (s.members c) s) else .next (s.trainAlone c)
    else .next s
  | none => .next s

end Sys2Proof.Machine
end

