-- ==== Sys2Proof/Machine/Train.lean ====
section
/-! DEFINITION. Training, the loading exchange, entry to data mode, loss of the partner, and fast retrain (R222 to
R233). -/

namespace Sys2Proof.Machine

/-! ### The messages (Tables 9.2, 10.7) -/

/-- The 67 bytes of a table message. -/
def tableMessage (kind : Nat) (ident : Byte) (m : Nat) (t : Table) : Bytes :=
  le 1 kind ++ [ident] ++ le 2 m ++ le 2 (tableB t) ++ zeros 2 ++ tableBytes t

/-- The check of a table message: bytes 0x00 to 0x42. -/
def messageCheck (m : Bytes) : BitVec 32 :=
  BitVec.ofNat 32 (crc32c (slice m 0 0x43))

/-- The stored check of a table: bytes 0x04 to 0x42 of its message form. -/
def tableCheck (t : Table) : Nat :=
  crc32c (le 2 (tableB t) ++ zeros 2 ++ tableBytes t)

/-- The table of a table message, when it meets R164 and Table 9.2. -/
def readTable (m : Bytes) : Option Table :=
  let t := bytesTable (slice m 8 59)
  if tableOk t && tableB t == field m 4 2 then some t else none

/-- The state message a channel sends now. -/
def State.stateMessage (s : State) (c : ChanId) : Bytes :=
  let x := s.chan c
  let a := x.train.accepted
  let v := x.stored
  le 1 0x20 ++ le 1 x.link.code ++ le 1 (bit a + 2 * bit x.train.invalid) ++ zeros 1 ++ le 2 s.node ++
  le 2 (if a then x.train.acceptedB else 0) ++ le 4 (if a then x.train.acceptedCheck.toNat else 0) ++
  le 4 (match v with | some y => tableCheck y.rxTable | none => 0) ++
  le 4 (match v with | some y => tableCheck y.txTable | none => 0)

def State.modTrain (s : State) (c : ChanId) (f : Train → Train) : State :=
  s.modChan c fun x => { x with train := f x.train }

/-- Queue a state message. -/
def State.sayState (s : State) (c : ChanId) : State :=
  (s.sendLm c (s.stateMessage c)).modTrain c fun t => { t with lastState := s.clock.sf }

/-- Queue the loading table that is armed. -/
def State.sayTable (s : State) (c : ChanId) : State :=
  match (s.chan c).load.armed with
  | some t =>
    (s.sendLm c (tableMessage 0x10 0 (s.chan c).load.lastMargin t)).modTrain c fun y => { y with lastTable := s.clock.sf }
  | none => s

/-- The repetition in the training stream: the table every 16 superframes until it is accepted, the state message once
in every 4 (R226, R232). -/
def State.trainTick (s : State) (c : ChanId) : State :=
  let x := s.chan c
  if x.trains then
    let s1 := if x.stands .train5 && !x.train.confirmed && 16 ≤ s.since x.train.lastTable then s.sayTable c else s
    if 4 ≤ s.since x.train.lastState then s1.sayState c else s1
  else s

/-! ### Taps (R187, R192 to R195): free values -/

/-- n tap values, one use of the free counter. -/
def State.taps (s : State) (n : Nat) : List Int :=
  (List.range n).map (Config.tap s.fresh)

/-- TRAIN1 sets the echo taps, and in a locked group that is forming the NEXT taps of every aggressor; a member that rejoins keeps
its own (R225). -/
def State.setEcho (s : State) (c : ChanId) : State :=
  let n := if (s.chan c).partner.group = 1 then 128 * (s.groupSize c - 1) else 0
  (s.modChan c fun x => { x with rx := { x.rx with
    echo := s.taps 384
    next := if x.partner.group = 1 && !x.train.rejoining then s.useFresh.taps n else x.rx.next } }).useFresh.useFresh

/-- TRAIN2 sets the pre-equaliser (32 taps). -/
def State.setPreEq (s : State) (c : ChanId) : State :=
  (s.modChan c fun x => { x with rx := { x.rx with preEq := s.taps 32 } }).useFresh

/-- TRAIN3 sets the per-carrier coefficients: two numbers for each of 60 carriers and each column of the member's row
of W(k); a member that rejoins keeps its row (R225). -/
def State.setMatrix (s : State) (c : ChanId) : State :=
  let n := if (s.chan c).partner.fext then s.groupSize c else 1
  (s.modChan c fun x => { x with rx := { x.rx with
    matrix := if x.train.rejoining then x.rx.matrix else s.taps (120 * n) } }).useFresh

/-! ### The SNR measurement (R199) -/

/-- S_k of each carrier: from the symbols that came one by one, measured under a table's gains, else as given. -/
def SnrSum.values (m : SnrSum) (gains : List Nat) (snr : List Int) : List Int :=
  List.zipWith (fun (e : Nat × Nat) (v : Nat × Int) => if e.2 = 0 then v.2 else snrOf e.1 e.2 v.1)
    (m.errors.zip m.symbols) (gains.zip (loadTable.fit59 snr))

/-- A new measurement begins. -/
def State.restartSnr (s : State) (c : ChanId) : State :=
  s.modChan c fun x => { x with air := { x.air with snr := SnrSum.reset, frames := 0 } }

/-- The measurement on training symbols and sync symbols without fine gains. -/
def Chan.trainedSnr (x : Chan) (snr : List Int) : List Int :=
  x.air.snr.values (List.replicate 59 12) snr

/-! ### Training phases (Table 10.6) -/

/-- Length of the phase in progress; none outside TRAIN1 to TRAIN4. -/
def phaseLength : LinkState → Option Nat
  | .train1 => some 256
  | .train2 => some 512
  | .train3 => some 512
  | .train4 => some 256
  | _ => none

/-- Go on to the next phase. -/
def State.nextPhase (s : State) (c : ChanId) (new : LinkState) : State :=
  (s.move c new 0).modTrain c fun t => { t with phaseStart := s.clock.sf }

/-- The present symbol 0 has form −S (R163). -/
def Chan.sendsMinus (x : Chan) : Chan :=
  { x with air := { x.air with minus := true } }

/-- A training stream begins on a channel: −S in its first symbol 0, then codewords under R174 (R223). -/
def State.startStream (s : State) (c : ChanId) : State :=
  (((s.modRetry c (Retry.beginTraining (s.seedOffset c))).modChan c Chan.sendsMinus).say (.minusS c)).sayState c

/-- Leave the training stream for SEARCH with a down notice (R226). -/
def State.failTraining (s : State) (c : ChanId) (reason : Nat) : State :=
  s.leaveNoticed c (downNotice reason) .search reason

/-- The start of TRAIN5: the loader computes its table from TRAIN4's measurement, sends it and arms, or gives up below
the link minimum (R226 step 1). -/
def State.startLoading (s : State) (c : ChanId) (snr : List Int) : State :=
  let t := loadTable snr (s.marginM c) (s.elem 0x030A c) (s.chan c).partner.highB
  let s1 := s.modChan c fun x => { x with
    rx := { x.rx with snr := fit59 snr, snrValid := false }
    load := { x.load with
      armed := some t, armedSince := s.clock.symbols, ident := 0, attempts := 0, replied := false, waiting := none
      toApply := none, applied := none, lastMargin := s.marginM c } }
  if tableB t < s.linkMinimum c then s1.failTraining c 9 else s1.sayTable c
where
  /-- 59 values. -/
  fit59 (l : List Int) : List Int := l.take 59 ++ List.replicate (59 - l.length) 0

/-- TRAIN_PHASE_END. Gain acquisition runs in the half of TRAIN1 in which the partner transmits, until a sync symbol is detected
(R184), TRAIN2 measures the member skew (R196), TRAIN4 the SNR (R199). -/
def execTrainPhaseEnd (c : ChanId) (m : TrainMeasured) (s : State) : Host.Outcome State Fault Refusal :=
  let x := s.chan c
  match phaseLength x.link with
  | none => .next s
  | some n =>
    if s.atBoundary && x.bring.toSearch.isNone && s.passedSf x.train.phaseStart n then
      let acquire := (s.manualGain c).isNone && !x.rx.frozen && x.link == .train1 && x.train.secondHalf == x.bring.caller
      let s1 := if acquire then s.modChan c fun y => { y with rx := { y.rx with gain := min 60 m.gain, frozen := true } }
        else s
      -- the echo and NEXT taps are set in the half of TRAIN1 in which this end transmits
      let own := x.train.secondHalf != x.bring.caller
      match x.link with
      | .train1 =>
        let s2 := if own then s1.setEcho c else s1
        if x.train.secondHalf then .next (s2.nextPhase c .train2)
        else .next (s2.modTrain c fun t => { t with secondHalf := true, phaseStart := s.clock.sf })
      | .train2 =>
        let s2 := s1.modChan c fun y => { y with
          partner := { y.partner with fext := y.partner.group == 1 && decide (m.skew ≤ 6) } }
        let s3 := (s2.setPreEq c).nextPhase c .train3
        -- a change of the group status is recorded (R234)
        .next (if s3.groupStatus c = s1.groupStatus c then s3 else s3.linkRecord c .train2 0)
      | .train3 => .next (((s1.setMatrix c).nextPhase c .train4).restartSnr c)
      | _ => .next (((s1.nextPhase c .train5).startStream c).startLoading c (x.trainedSnr m.snr))
    else .next s

/-! ### The loading exchange -/

/-- LOADING_TABLE (R226 step 2). -/
def execLoadingTable (c : ChanId) (msg : Bytes) (s : State) : Host.Outcome State Fault Refusal :=
  .next (s.onMessage c msg 0x10 fun t =>
    let x := t.chan c
    if x.stands .train5 && x.load.toApply.isNone && !x.train.txMinus then
      match (if byteAt msg 1 = 0 then readTable msg else none) with
      | some tab =>
        (t.modChan c fun y => { y with
          load := { y.load with txTable := tab }
          train := { y.train with
            accepted := true, invalid := false, acceptedB := tableB tab, acceptedCheck := messageCheck msg } }).sayState c
      | none => (t.modTrain c fun y => { y with accepted := false, invalid := true }).sayState c
    else t)

/-- A state message in TRAIN5 (R226). -/
def State.stateInTrain5 (s : State) (c : ChanId) (msg : Bytes) : State :=
  match (s.chan c).load.armed with
  | none => s
  | some t =>
    if (field msg 2 1).testBit 1 then s.failTraining c 0xA
    else if (field msg 2 1).testBit 0 &&
        field msg 8 4 == (messageCheck (tableMessage 0x10 0 (s.chan c).load.lastMargin t)).toNat then
      s.modTrain c fun y => { y with confirmed := true }
    else s

/-- A state message in F3 (R232): the partner's node and both checks confirm the stored tables. -/
def State.stateInF3 (s : State) (c : ChanId) (msg : Bytes) : State :=
  match (s.chan c).stored with
  | none => s
  | some v =>
    if field msg 4 2 != v.partner.toNat then s.leave c .search 0xD
    else if field msg 0xC 4 == tableCheck v.txTable && field msg 0x10 4 == tableCheck v.rxTable then
      (s.modTrain c fun y => { y with confirmed := true }).sayState c
    else s.leave c .search 0xC

/-- STATE_MESSAGE. -/
def execStateMessage (c : ChanId) (msg : Bytes) (s : State) : Host.Outcome State Fault Refusal :=
  .next (s.onMessage c msg 0x20 fun t =>
    let x := t.chan c
    if x.stands .train5 then t.stateInTrain5 c msg
    else if x.stands .fast && x.train.fast == .f3 && !x.train.confirmed then t.stateInF3 c msg
    else t)

/-! ### Entry to data mode -/

/-- Messages of training and loading, which have no place after entry to DATA. -/
def trainingMessage (m : Bytes) : Bool :=
  decide (0x10 ≤ field m 0 1) && decide (field m 0 1 < 0x30)

/-- Both directions are in data mode: the link enters DATA. A bonded member may take the link's byte streams over, and a
held sleep item proceeds (R261). -/
def State.reachData (s : State) (c : ChanId) : State :=
  let others := (s.bond c).filter fun d => d != c && (s.chan d).alive
  let before := s.owner c
  let s1 := (s.move c .data 0).modChan c fun x => { x with
    stored := some x.store
    quiet := { x.quiet with idleSince := s.clock.symbols }
    rx := { x.rx with snrValid := false }
    load := { x.load with toApply := none, attempts := 0, replied := false, applied := none }
    air := { x.air with snr := SnrSum.reset, frames := 0, preEqFrames := 0 }
    retry := { x.retry with lm := x.retry.lm.filter fun m => !trainingMessage m } }
  let s2 := if !others.isEmpty && s1.owner c == c && before != c then s1.moveStream before c else s1
  if (s2.chan c).wake.sleepItem.isSome then s2.leaveNoticed c sleepNotice .sleep 0x20 else s2.advance

/-- Enter DATA when the transmit direction has sent −S and the receive direction has received it (R226). -/
def State.checkData (s : State) (c : ChanId) : State :=
  let x := s.chan c
  if x.trains && x.train.txMinus && x.train.rxMinus && x.bring.leaving.isNone then s.reachData c else s

/-- LOADING_TABLE_APPLY: symbol 0 of the superframe carries −S and that direction is in data mode. -/
def execLoadingTableApply (c : ChanId) (s : State) : Host.Outcome State Fault Refusal :=
  let x := s.chan c
  match x.load.toApply with
  | some (t, sf) =>
    if s.atBoundary && x.trains && !x.train.txMinus && s.passedSf sf 0 then
      let s1 := s.modChan c fun y => { y with
        load := { y.load with txTable := t, toApply := none }
        train := { y.train with txMinus := true }
        retry := y.retry.beginTx (s.seedOffset c) (y.link == .fast) }
      .next (((s1.modChan c Chan.sendsMinus).say (.minusS c)).checkData c)
    else .next s
  | none => .next s

/-- A received stream begins with the symbol after the present one, in a received superframe. -/
def Air.beginRx (frame : Nat) (a : Air) : Air :=
  { a with soft := [], used := 0, frame := frame, symbol := if a.aligned then a.symbol else 1 }

/-- A −S that begins the partner's training stream. -/
def State.rxStreamBegins (s : State) (c : ChanId) : State :=
  s.modChan c fun x => { x with
    retry := x.retry.beginRx (s.seedOffset c) (x.link == .fast) 0 118
    air := x.air.beginRx 0
    train := { x.train with rxBegun := true } }

/-- The armed table is applied from symbol 1: in the training stream the receive direction enters data mode. -/
def State.rxTableBegins (s : State) (c : ChanId) (t : Table) : State :=
  (s.modChan c fun x => { x with
    load := { x.load with rxTable := t, armed := none }
    train := { x.train with rxMinus := true }
    retry := x.retry.beginRx (s.seedOffset c) (x.link == .fast) s.clock.sf.toNat (tableB t)
    air := x.air.beginRx s.clock.sf.toNat }).checkData c

/-- −S in data mode (R163, R203): an armed table is applied; without one it is counted, and toward kind 13. -/
def State.swapBegins (s : State) (c : ChanId) : State :=
  match (s.chan c).load.armed with
  | some t => s.modChan c fun x => { x with
      load := { x.load with rxTable := t, armed := none, attempts := 0, replied := false }
      quality := { x.quality with syncMinus := x.quality.syncMinus + 1, syncS := x.quality.syncS - 1 } }
  | none =>
    let s1 := s.modQuality c fun q => { q with unarmed := q.unarmed + 1, syncS := q.syncS - 1 }
    s1.occurChan 13 c (s1.addrLink c 0)

/-- Does a sync symbol of the partner fall due in this superframe (R163, R256)? -/
def State.expectsSync (s : State) (c : ChanId) : Bool :=
  let x := s.chan c
  x.link.counts && (!x.quiet.rxEnded || s.clock.sf.toNat % 81 == x.quiet.phase)

/-- SYNC_MINUS_S. The first −S of TRAIN5 or FAST begins the partner's training stream (R223), the next one its data mode
at an armed end (R226, R232); in QUIET the sync symbol of an expected refresh is counted. -/
def execSyncMinusS (c : ChanId) (s : State) : Host.Outcome State Fault Refusal :=
  let x := s.chan c
  if !s.runs then .next s
  else if x.stands .data || (x.stands .quiet && s.expectsSync c) then .next (s.swapBegins c)
  else if x.stands .train4 || x.stands .train5 || (x.stands .fast && x.train.fast != .f1) then
    if !x.train.rxBegun then .next (s.rxStreamBegins c)
    else
      match x.load.armed with
      | some t => if x.trains && !x.train.rxMinus then .next (s.rxTableBegins c t) else .next s
      | none => .next s
  else .next s

/-- TRAIN5_LIMIT. -/
def execTrain5Limit (c : ChanId) (s : State) : Host.Outcome State Fault Refusal :=
  let x := s.chan c
  if s.runs && x.stands .train5 && s.passedSf x.train.phaseStart 1024 then .next (s.failTraining c 8) else .next s

/-! ### Loss of the partner (R225, R228 to R230) -/

/-- Four expected sync symbols can have been missed in a training phase (R225): the answerer's watch goes on in TRAIN2 from where it
paused. -/
def State.watches (s : State) (c : ChanId) : Bool :=
  let x := s.chan c
  let n := s.since x.train.phaseStart
  match x.link with
  | .train1 => (x.train.secondHalf == x.bring.caller) && decide (8 ≤ n)
  | .train2 => x.bring.caller || decide (5 ≤ n)
  | .train3 | .train4 | .train5 => true
  | _ => false

/-- n consecutive expected sync symbols were missed: those that the received symbols showed are counted already (R239). -/
def State.countMissed (s : State) (c : ChanId) (n : Nat) : State :=
  let k := n - (s.chan c).air.misses
  s.modQuality c fun q => { q with missed := q.missed + k, syncS := q.syncS - k }

/-- MISSED_SYNCS: at the end of the superframe in which the fourth miss falls. -/
def execMissedSyncs (c : ChanId) (s : State) : Host.Outcome State Fault Refusal :=
  let x := s.chan c
  if s.atBoundary && x.stands .data then
    .next ((s.countMissed c 4).enterFast c 3 (s.clock.sf - 4))
  else if s.atBoundary && x.bring.toSearch.isNone && s.watches c then .next (s.arrive c .search 3)
  else .next s

/-- DOWN_NOTICE: to SEARCH at once; a channel that was itself sending notices goes where, and for the reason that, those
notices say (DEDUCED). -/
def execDownNotice (c : ChanId) (msg : Bytes) (s : State) : Host.Outcome State Fault Refusal :=
  .next (s.onMessage c msg 0x21 fun t =>
    let x := t.chan c
    if x.stands .data || x.stands .quiet || x.stands .fast || x.stands .train5 then
      match x.bring.leaving with
      | some (target, why, _) => t.arrive c target why
      | none => t.arrive c .search 0xB
    else t)

/-- SILENCE_TOLERANCE_EXPIRY (R229): not for a channel that waits for an answer to its wake frames (R263). -/
def execSilenceToleranceExpiry (c : ChanId) (s : State) : Host.Outcome State Fault Refusal :=
  let x := s.chan c
  match x.train.silentSince with
  | some t =>
    if s.runs && x.stands .fast && x.train.fast == .f1 && s.passedSf t (s.elem 0x030B c) then
      .next (s.arrive c .search 4)
    else .next s
  | none => .next s

/-! ### Fast retrain (R232) -/

/-- F1_ACQUIRED. -/
def execF1Acquired (c : ChanId) (s : State) : Host.Outcome State Fault Refusal :=
  let x := s.chan c
  if s.atBoundary && x.stands .fast && x.train.fast == .f1 && s.passedSf x.train.phaseStart 16 then
    .next ((s.modTrain c fun t =>
      { t with fast := .f2, phaseStart := s.clock.sf, silentSince := none, answer := none }).restartSnr c)
  else .next s

/-- F1_LIMIT. -/
def execF1Limit (c : ChanId) (s : State) : Host.Outcome State Fault Refusal :=
  let x := s.chan c
  if s.runs && x.stands .fast && x.train.fast == .f1 && s.passedSf x.train.phaseStart 48 then
    .next (s.arrive c .search 0xC)
  else .next s

/-- F3 begins: the training stream, armed for the stored receive table. -/
def State.startF3 (s : State) (c : ChanId) : State :=
  (s.modChan c fun x => { x with
    load := { x.load with armed := some x.load.rxTable, armedSince := s.clock.symbols, toApply := none }
    train := { x.train with fast := .f3, phaseStart := s.clock.sf } }).startStream c

/-- F2_END. -/
def execF2End (c : ChanId) (snr : List Int) (s : State) : Host.Outcome State Fault Refusal :=
  let x := s.chan c
  if s.atBoundary && x.stands .fast && x.train.fast == .f2 && s.passedSf x.train.phaseStart 16 then
    if 8 < lowMargins (s.marginM c) x.load.rxTable (x.trainedSnr snr) then .next (s.arrive c .search 0xC) else .next (s.startF3 c)
  else .next s

/-- F3_LIMIT. -/
def execF3Limit (c : ChanId) (s : State) : Host.Outcome State Fault Refusal :=
  let x := s.chan c
  if s.runs && x.stands .fast && x.train.fast == .f3 && s.passedSf x.train.phaseStart 64 then
    .next (s.leave c .search 0xC)
  else .next s

end Sys2Proof.Machine
end

