-- ==== Sys2Proof/Machine/Receive.lean ====
section
/-! DEFINITION. The receive path in data mode (R183 to R207): gain tracking, the anti-alias corner, the pre-equaliser,
window moves, echo retrains, the loading recomputation, and the bit-swap exchange. -/

namespace Sys2Proof.Machine

/-! ### Marks (R205, R206) -/

/-- A change marks n received symbols from now on: the union of the spans. -/
def Rx.mark (n : Nat) (r : Rx) : Rx :=
  { r with marked := max r.marked n }

def State.modRx (s : State) (c : ChanId) (f : Rx → Rx) : State :=
  s.modChan c fun x => { x with rx := f x.rx }

/-- Is the present received symbol marked? The 32 of an echo retrain come after the symbol in which it is decided. -/
def Rx.isMarked (r : Rx) : Bool :=
  r.marked != 0 || (match r.retraining with | some n => n != 0 && decide (n ≤ 32) | none => false)

/-- One received symbol passes: a marked one is counted once (R206). -/
def State.markTick (s : State) (c : ChanId) : State :=
  s.modChan c fun x =>
    if x.rx.marked = 0 && x.rx.retraining.isNone then x
    else { x with
      rx := { x.rx with marked := x.rx.marked - 1, retraining := x.rx.retraining.map (· - 1) }
      quality := if x.link.counts && x.rx.isMarked then { x.quality with unsettled := x.quality.unsettled + 1 }
        else x.quality }

/-- Where received symbols come one by one, a change waits for the symbol at which it takes effect (Table 9.5). -/
def Air.at (a : Air) (symbol : Nat) : Bool :=
  !a.aligned || a.symbol == symbol

/-! ### Gain (R185) -/

/-- Coefficients after a gain step: scaled by 10^(∓0.5/20) (R185), in millionths. -/
def scaleMatrix (up : Bool) (m : List Int) : List Int :=
  m.map fun v => roundDiv (v * if up then 944061 else 1059254) 1000000

/-- Step the gain by 0.5 dB within 0 to 30 dB, marking symbols 0 and 1; the per-carrier coefficients take the inverse ratio. -/
def Rx.stepGain (up : Bool) (r : Rx) : Rx :=
  if up then
    (if r.gain < 60 then { r with gain := r.gain + 1, gainDue := none, matrix := scaleMatrix true r.matrix }.mark 2
     else { r with gainDue := none })
  else if 0 < r.gain then { r with gain := r.gain - 1, gainDue := none, matrix := scaleMatrix false r.matrix }.mark 2
  else { r with gainDue := none }

/-- The gain step of a received superframe: at most one. -/
def State.stepGain (s : State) (c : ChanId) (up : Bool) : State :=
  s.modChan c fun x => { x with rx := x.rx.stepGain up, air := { x.air with stepped := true } }

/-- A step that has been deferred is made at the first boundary in data mode after the loader disarms. -/
def State.deferredGain (s : State) (c : ChanId) : State :=
  let s1 := s.modChan c fun y => { y with air := { y.air with stepped := false } }
  let x := s.chan c
  match x.rx.gainDue with
  | some up => if x.load.armed.isNone && x.stands .data then s1.stepGain c up else s1
  | none => s1

/-- GAIN_TRACKING_STEP: the mean converter power of a superframe in 0.01 dBFS; the target is −12 dBFS, the step follows
a difference of more than 0.75 dB, and waits while a loading change is armed. -/
def execGainTrackingStep (c : ChanId) (power : Int) (s : State) : Host.Outcome State Fault Refusal :=
  let x := s.chan c
  let up := decide (power < -1200)
  let off := decide (75 < (power + 1200).natAbs)
  if s.atBoundary && x.stands .data && (s.manualGain c).isNone && s.elem 0x0305 c == 1 && off && !x.air.stepped then
    if x.load.armed.isSome then .next (s.modRx c fun r => { r with gainDue := some up })
    else .next (s.stepGain c up)
  else .next s

/-! ### Anti-alias corner, pre-equaliser, window (R186 to R189) -/

/-- ANTI_ALIAS_CORNER_CHANGE, at symbol 128: wider ahead of a request that waits for it, narrower once the table in use loads no carrier
above 32; four symbols are marked. -/
def execAntiAliasCornerChange (c : ChanId) (s : State) : Host.Outcome State Fault Refusal :=
  let x := s.chan c
  if s.runs && x.stands .data && x.air.at 128 then
    if x.rx.narrow && x.load.waiting.isSome then .next (s.modRx c fun r => { r with narrow := false }.mark 4)
    else if !x.rx.narrow && x.load.waiting.isNone && x.load.armed.isNone && !tableWide x.load.rxTable then
      .next (s.modRx c fun r => { r with narrow := true }.mark 4)
    else .next s
  else .next s

/-- The per-carrier coefficients after a known change of the response (R187): each changes by a free value. -/
def State.correctMatrix (s : State) (c : ChanId) : State :=
  (s.modRx c fun r => { r with matrix := r.matrix.zipIdx.map fun e => e.1 + Config.adapted s.fresh e.2 }).useFresh

/-- PRE_EQUALISER_UPDATE, every 256 received superframes at symbol 64: new taps, the per-carrier equaliser corrected, one symbol
marked. -/
def execPreEqualiserUpdate (c : ChanId) (s : State) : Host.Outcome State Fault Refusal :=
  let x := s.chan c
  if s.runs && x.stands .data && s.elem 0x0306 c == 1 && x.air.at 64 && decide (256 ≤ x.air.preEqFrames) then
    .next ((((s.setPreEq c).correctMatrix c).modRx c (Rx.mark 1)).modChan c fun y =>
      { y with air := { y.air with preEqFrames := 0 } })
  else .next s

/-- A receiver that follows a partner's symbols. -/
def LinkState.receives : LinkState → Bool
  | .train1 | .train2 | .train3 | .train4 | .train5 | .data | .quiet | .fast => true
  | _ => false

/-- The interpolator's accumulated delay has passed half a sample in a direction (R189); where no samples come one by one the command
says so. -/
def Air.passedHalf (a : Air) (later : Bool) : Bool :=
  !a.aligned || (if later then decide (32 < a.delay) else decide (a.delay < -32))

/-- The window moves by one sample, and the interpolator goes back by one. -/
def Chan.moveWindow (later : Bool) (x : Chan) : Chan :=
  { x with
    rx := { x.rx with window := if later then x.rx.window + 1 else x.rx.window - 1 }
    air := if x.air.aligned then
        { x.air with delay := if later then x.air.delay - 64 else x.air.delay + 64
                     slip := if later then x.air.slip + 1 else x.air.slip - 1 }
      else x.air }

/-- TRANSFORM_WINDOW_MOVE: one sample at a symbol boundary, marking nothing (R189). The window keeps its place in the received
symbol's prefix: it moves with the partner's symbols. -/
def execTransformWindowMove (c : ChanId) (later : Bool) (s : State) : Host.Outcome State Fault Refusal :=
  let x := s.chan c
  if s.runs && x.link.receives && x.bring.toSearch.isNone && x.air.passedHalf later then .next (s.modChan c (Chan.moveWindow later))
  else .next s

/-! ### Echo retrain (R193) -/

/-- ECHO_RETRAIN_START, with the residual echo of four consecutive received superframes in 0.1 dB relative to launch power: each
exceeds −50 dB. The retrain begins at the next symbol boundary. -/
def execEchoRetrainStart (c : ChanId) (residuals : List Int) (s : State) : Host.Outcome State Fault Refusal :=
  let x := s.chan c
  if s.runs && x.stands .data && x.rx.retraining.isNone && x.rx.holdoff.isNone && residuals.length == 4 &&
      residuals.all (fun r => decide (-500 < r)) then
    .next ((s.modRx c fun r => { r with retraining := some 33 }).occurChan 11 c (s.addrLink c 0))
  else .next s

/-- ECHO_RETRAIN_END: after its 32 symbols the holdoff begins. -/
def execEchoRetrainEnd (c : ChanId) (s : State) : Host.Outcome State Fault Refusal :=
  let x := s.chan c
  if s.runs && x.stands .data && x.rx.retraining == some 0 then
    .next (s.modRx c fun r => { r with retraining := none, holdoff := some s.clock.symbols, echo := s.taps 384 }).useFresh
  else .next s

/-- ECHO_RETRAIN_HOLDOFF_END: a residual still above −50 dB sends the channel to FAST. DESIGN CHOICE: its silence tolerance counts
from the entry, where no sync symbol was missed; see assumption 89. -/
def execEchoRetrainHoldoffEnd (c : ChanId) (residual : Int) (s : State) : Host.Outcome State Fault Refusal :=
  let x := s.chan c
  match x.rx.holdoff with
  | some t =>
    if s.runs && x.stands .data && s.passedFrom t 256 then
      let s1 := s.modRx c fun r => { r with holdoff := none }
      if -500 < residual then .next (s1.enterFast c 0xF s.clock.sf) else .next s1
    else .next s
  | none => .next s

/-! ### Loading in data mode (R201 to R204) -/

/-- Send a bit-swap request and arm at once. -/
def State.requestSwap (s : State) (c : ChanId) (t : Table) : State :=
  let id := (s.chan c).load.ident + 1
  (s.sendLm c (tableMessage 0x11 id (s.chan c).load.lastMargin t)).modChan c fun x => { x with load := { x.load with
    armed := some t, armedSince := s.clock.symbols, ident := id, attempts := 1, replied := false, waiting := none
    sentMargin := x.load.lastMargin } }

/-- A request that waited for the wide corner goes out after the four marked symbols (R186). -/
def State.waitingSwap (s : State) (c : ChanId) : State :=
  let x := s.chan c
  match x.load.waiting with
  | some t => if !x.rx.narrow && x.rx.marked == 0 && x.stands .data then s.requestSwap c t else s
  | none => s

/-- The SNR of data mode: carriers with bits are measured at their fine gain, the others at 0 dB. -/
def Chan.dataSnr (x : Chan) (snr : List Int) : List Int :=
  x.air.snr.values (syncGains x.load.rxTable) snr

/-- LOADING_RECOMPUTE: every 256 superframes of DATA, with the SNR measured over them. -/
def execLoadingRecompute (c : ChanId) (snr : List Int) (s : State) : Host.Outcome State Fault Refusal :=
  let x := s.chan c
  if s.runs && x.stands .data && decide (256 ≤ x.air.frames) then
    let m := s.marginM c
    let v := x.dataSnr snr
    let t := loadTable v m (s.elem 0x030A c) x.partner.highB
    let s1 := (s.restartSnr c).modChan c fun y => { y with
      rx := { y.rx with snr := v, snrValid := true }
      load := { y.load with lastMargin := m } }
    if tableB t < s.linkMinimum c then .next (s1.leave c .search 9)
    else if x.load.armed.isNone && x.load.waiting.isNone &&
        wantsSwap m (m != x.load.lastMargin) x.load.rxTable t v then
      if tableWide t && x.rx.narrow then .next (s1.modChan c fun y => { y with load := { y.load with waiting := some t } })
      else .next (s1.requestSwap c t)
    else .next s1
  else .next s

/-- A bit-swap reply. -/
def swapReply (id : Byte) (status : Nat) : Bytes := le 1 0x12 ++ [id] ++ le 1 status

/-- BIT_SWAP_REQUEST (R203 steps 2 and 3, R204). DESIGN CHOICE: a request that is repeated before its table is applied is answered
0x00 and changes nothing; see assumption 90. -/
def execBitSwapRequest (c : ChanId) (msg : Bytes) (s : State) : Host.Outcome State Fault Refusal :=
  .next (s.onMessage c msg 0x11 fun t =>
    let x := t.chan c
    let id := byteAt msg 1
    if !x.stands .data then t
    else if x.load.applied == some id then
      t.sendLm c (swapReply id (if x.load.toApply.isSome then 0 else 1))
    else
      match readTable msg with
      | none => t.sendLm c (swapReply id 2)
      | some tab =>
        (t.sendLm c (swapReply id 0)).modChan c fun y => { y with load := { y.load with
          toApply := some (tab, s.clock.sf + 2), applied := some id } })

/-- BIT_SWAP_REPLY: 0x01 while armed means that −S was missed; any status but 0x00 and 0x01 is a refusal. DESIGN CHOICE: the silence
tolerance of that entry to FAST counts from the entry; see assumption 89. -/
def execBitSwapReply (c : ChanId) (msg : Bytes) (s : State) : Host.Outcome State Fault Refusal :=
  .next (s.onMessage c msg 0x12 fun t =>
    let x := t.chan c
    if x.stands .data && x.load.armed.isSome && byteAt msg 1 == x.load.ident then
      if byteAt msg 2 = 0 then t.modChan c fun y => { y with load := { y.load with replied := true } }
      else
        let t1 := t.modChan c fun y => { y with load := { y.load with armed := none } }
        if byteAt msg 2 = 1 then t1.enterFast c 0xE s.clock.sf else t1
    else t)

/-- BIT_SWAP_APPLY: −S in symbol 0, the new table from symbol 1. -/
def execBitSwapApply (c : ChanId) (s : State) : Host.Outcome State Fault Refusal :=
  let x := s.chan c
  match x.load.toApply with
  | some (t, sf) =>
    if s.atBoundary && x.stands .data && s.passedSf sf 0 then
      .next (((s.modChan c fun y => { y with load := { y.load with txTable := t, toApply := none } }).modChan c
        Chan.sendsMinus).say (.minusS c))
    else .next s
  | none => .next s

/-- BIT_SWAP_RESEND_TIMEOUT (R204). -/
def execBitSwapResendTimeout (c : ChanId) (s : State) : Host.Outcome State Fault Refusal :=
  let x := s.chan c
  match x.load.armed with
  | some t =>
    if s.runs && x.stands .data && s.passedFrom x.load.armedSince 64 then
      if 4 ≤ x.load.attempts && !x.load.replied then
        .next ((s.modChan c fun y => { y with load := { y.load with armed := none } }).enterFast c 0xE s.clock.sf)
      else
        .next ((s.sendLm c (tableMessage 0x11 x.load.ident x.load.sentMargin t)).modChan c fun y =>
          { y with load := { y.load with armedSince := s.clock.symbols, attempts := y.load.attempts + 1 } })
    else .next s
  | none => .next s

end Sys2Proof.Machine
end

