-- ==== Sys2Proof/Machine/Quiet.lean ====
section
/-! DEFINITION. Quiet (R253 to R260): the entry exchange, refreshes, and the exit by alerts. -/

namespace Sys2Proof.Machine

def State.modQuiet (s : State) (c : ChanId) (f : QuietSt → QuietSt) : State :=
  s.modChan c fun x => { x with quiet := f x.quiet }

/-- An idle end (R254): no transport byte, no message, nothing held for retry, no bit-swap armed at it. -/
def State.idleEnd (s : State) (c : ChanId) : Bool :=
  let x := s.chan c
  (s.chan (s.owner c)).retry.packets.isEmpty && x.retry.lm.isEmpty && x.retry.retain.isEmpty &&
  x.load.armed.isNone && x.load.waiting.isNone && x.load.toApply.isNone && x.bring.leaving.isNone

def quietRequest : Bytes := le 1 0x30 ++ zeros 2

def quietReply (status : Nat) : Bytes := le 1 0x31 ++ zeros 1 ++ le 1 status

/-- QUIET_IDLE_TIMEOUT. -/
def execQuietIdleTimeout (c : ChanId) (s : State) : Host.Outcome State Fault Refusal :=
  let x := s.chan c
  if s.runs && x.stands .data && x.quiet.mode && x.quiet.requested.isNone && !x.quiet.ending && !x.quiet.txEnded &&
      s.idleEnd c && s.passedFrom x.quiet.idleSince (s.elem 0x0600 c) then
    .next ((s.sendLm c quietRequest).modQuiet c fun q => { q with requested := some s.clock.symbols })
  else .next s

/-- The partner's refresh phase (R256): our superframe counts of its refreshes, modulo 81, from its count in the superframe in which
the codeword began. -/
def Retry.phaseOf (r : Retry) (partner : Nat) : Nat :=
  (r.msgFrame % 81 + 81 - partner) % 81

/-- QUIET_REQUEST: a reserved phase makes a receiver ignore it. -/
def execQuietRequest (c : ChanId) (msg : Bytes) (s : State) : Host.Outcome State Fault Refusal :=
  .next (s.onMessage c msg 0x30 fun t =>
    let x := t.chan c
    let ph := field msg 1 1
    if x.stands .data && decide (ph ≤ 80) then
      if t.idleEnd c && !x.quiet.ending && x.quiet.requested.isNone then
        (t.sendLm c (quietReply 0)).modQuiet c fun q => { q with ending := true, phase := x.retry.phaseOf ph }
      else t.sendLm c (quietReply 1)
    else t)

/-- QUIET_REPLY: on acceptance our stream ends with the next codeword, and the partner's has ended; on refusal the idle time counts
again. -/
def execQuietReply (c : ChanId) (msg : Bytes) (s : State) : Host.Outcome State Fault Refusal :=
  .next (s.onMessage c msg 0x31 fun t =>
    let ph := field msg 1 1
    let x := t.chan c
    if x.stands .data && x.quiet.requested.isSome && !x.quiet.ending && decide (ph ≤ 80) then
      if byteAt msg 2 = 0 then t.modChan c fun y => { y with
        quiet := { y.quiet with ending := true, rxEnded := true, phase := y.retry.phaseOf ph }
        air := { y.air with soft := [], used := 0 } }
      else t.modQuiet c fun q => { q with requested := none, idleSince := s.clock.symbols }
    else t)

/-- QUIET_REPLY_TIMEOUT. -/
def execQuietReplyTimeout (c : ChanId) (s : State) : Host.Outcome State Fault Refusal :=
  let x := s.chan c
  match x.quiet.requested with
  | some t =>
    if s.runs && x.stands .data && !x.quiet.ending && !x.quiet.txEnded && s.passedFrom t 64 then
      .next (s.modQuiet c fun q => { q with requested := none, idleSince := s.clock.symbols })
    else .next s
  | none => .next s

/-- QUIET_STREAMS_ENDED. The end that did not know the last codeword beforehand may still have it in its decoder. -/
def execQuietStreamsEnded (c : ChanId) (s : State) : Host.Outcome State Fault Refusal :=
  let x := s.chan c
  if s.runs && x.stands .data && x.quiet.txEnded && x.quiet.alert.isNone then
    .next ((s.move c .quiet 0x23).modChan c fun y => { y with
      quiet := { y.quiet with seenEnd := if x.quiet.rxEnded then none else some s.clock.symbols }
      air := { y.air.dropRest with noise := NoiseSum.reset } })
  else .next s

/-- QUIET_REFRESH, in superframes 0 modulo 81; an alert cuts it short. -/
def execQuietRefresh (c : ChanId) (s : State) : Host.Outcome State Fault Refusal :=
  let x := s.chan c
  if s.atBoundary && x.stands .quiet && x.quiet.txEnded && x.quiet.alert.isNone && s.clock.sf.toNat % 81 == 0 then
    .next ((s.modQuiet c fun q => { q with refreshing := true }).say (.refresh c))
  else .next s

/-- REFRESH_MISSED: the first of the two was expected a refresh interval ago (R257). -/
def execRefreshMissed (c : ChanId) (s : State) : Host.Outcome State Fault Refusal :=
  if s.runs && (s.chan c).stands .quiet then
    .next ((s.countMissed c 2).enterFast c 0x25 (s.clock.sf - 81))
  else .next s

/-! ### Leaving Quiet (R258 to R260) -/

/-- Work is pending at a quiet end: a transport byte, a message, or a codeword to send again. -/
def State.hasWork (s : State) (c : ChanId) : Bool :=
  let x := s.chan c
  !(s.chan (s.owner c)).retry.packets.isEmpty || !x.retry.lm.isEmpty || !x.retry.resend.isEmpty

/-- The transmit stream is suspended. -/
def Chan.suspended (x : Chan) : Bool :=
  (x.stands .quiet || x.stands .data) && x.quiet.txEnded && x.quiet.alert.isNone

/-- Begin an alert with the next symbol; it cuts short a refresh. -/
def State.beginAlert (s : State) (c : ChanId) : State :=
  (s.modQuiet c fun q => { q with alert := some 0, refreshing := false }).say (.alert c)

/-- QUIET_WORK_PENDING. -/
def execQuietWorkPending (c : ChanId) (s : State) : Host.Outcome State Fault Refusal :=
  if s.runs && (s.chan c).suspended && s.hasWork c then .next (s.beginAlert c) else .next s

/-- Both streams run again: back in DATA with reason 0x24. A link whose entry exchange had not ended stays in DATA; where the partner's
stream was not known to have ended, the wait for its alert goes on until data or the alert comes (R260, DEDUCED; see
assumption 91). -/
def State.quietOver (s : State) (c : ChanId) : State :=
  let x := s.chan c
  if x.quiet.txEnded || x.quiet.rxEnded then s
  else if x.link = .quiet then
    (s.move c .data 0x24).modChan c fun y => { y with quiet := { y.quiet with idleSince := s.clock.symbols } }
  else s.modQuiet c fun q => { q with
    alert := if q.heard.isSome then none else q.alert
    heard := none, requested := none, ending := false, idleSince := s.clock.symbols }

/-- One symbol of an own alert, and of the wait after it: after eight the transmit stream goes on. -/
def State.ownAlert (s : State) (c : ChanId) : State :=
  match (s.chan c).quiet.alert with
  | some n =>
    let s1 := s.modQuiet c fun q => { q with alert := some (n + 1), txEnded := if n + 1 = 9 then false else q.txEnded }
    if n + 1 = 9 then s1.quietOver c else s1
  | none => s

/-- The received stream goes on with the present symbol (R255). -/
def Chan.resumeRx (x : Chan) (sf slot : Nat) : Chan :=
  let b := tableB x.load.rxTable
  { x with
    quiet := { x.quiet with rxEnded := false }
    retry := { x.retry with rxFrame := sf, rxPos := (slot - 1) * b, rxB := b }
    air := { x.air with soft := [], used := 0 } }

/-- One symbol of the partner's alert; after eight its stream goes on, with the first data symbol (Table 12.3 step 7). -/
def State.farAlert (s : State) (c : ChanId) : State :=
  match (s.chan c).quiet.heard with
  | some n =>
    if n + 1 < 9 then s.modQuiet c fun q => { q with heard := some (n + 1) }
    else ((s.modQuiet c fun q => { q with heard := some 9 }).modChan c fun x =>
      if x.quiet.rxEnded then x.resumeRx s.clock.sf.toNat s.clock.slot.toNat else x).quietOver c
  | none => s

/-- A symbol of the alerts in course; a refresh ends after symbol 15. -/
def State.alertTick (s : State) (c : ChanId) : State :=
  let s1 := (s.ownAlert c).farAlert c
  if s1.clock.slot = 16 && (s1.chan c).quiet.refreshing then s1.modQuiet c fun q => { q with refreshing := false } else s1

/-- ALERT_DETECTED: two symbols of the partner's alert have come; an end that has not begun its own alert does. -/
def execAlertDetected (c : ChanId) (s : State) : Host.Outcome State Fault Refusal :=
  let x := s.chan c
  if s.runs && (x.stands .quiet || x.stands .data) && x.quiet.heard.isNone &&
      (x.quiet.rxEnded || x.quiet.alert.isSome || x.quiet.txEnded) then
    let s1 := s.modQuiet c fun q => { q with heard := some 2 }
    if (s1.chan c).suspended then .next (s1.beginAlert c) else .next s1
  else .next s

/-- ALERT_ANSWER_TIMEOUT: 64 symbols after the end of the own alert (R260). -/
def execAlertAnswerTimeout (c : ChanId) (s : State) : Host.Outcome State Fault Refusal :=
  let x := s.chan c
  match x.quiet.alert with
  | some n =>
    if s.runs && (x.stands .quiet || x.stands .data) && x.quiet.heard.isNone && decide (73 ≤ n) then
      .next (s.enterFast c 0x25 s.clock.sf)
    else .next s
  | none => .next s

end Sys2Proof.Machine
end

