-- ==== Sys2Proof/Machine/HostLink.lean ====
section
/-! DEFINITION. A host port's link layer: training, link control blocks, replay, and the port's own clock. -/

namespace Sys2Proof.Machine

/-! ### Training (R296 to R299) -/

/-- The preset table of R297, as (pre, post) magnitudes in steps of 0.025. -/
def presetOf : Nat → Nat × Nat
  | 0 => (0, 0)
  | 1 => (0, 4)
  | 2 => (0, 8)
  | 3 => (0, 12)
  | 4 => (2, 0)
  | 5 => (2, 4)
  | 6 => (4, 6)
  | _ => (6, 10)

/-- One request to a magnitude with a limit: the response (Table 13.7) and the magnitude after it (R297). -/
def eqStep (request limit v : Nat) : Nat × Nat :=
  if request = 1 then (if v < limit then (1, v + 1) else (2, v))
  else if request = 2 then (if 0 < v then (1, v - 1) else (2, v))
  else (0, v)

/-- A TRAIN request byte applied to a lane's transmit equaliser (R297). -/
def HostLink.equalise (l : HostLink) (lane request : Nat) : HostLink :=
  let x := nth (0, 0, 0) l.txEq lane
  if request ≥ 128 then
    let k := bits request 6 4
    let m := presetOf k
    { l with txEq := setNth l.txEq lane (m.1, m.2, k), responses := setNth l.responses lane (1, 1) }
  else
    let a := eqStep (bits request 1 0) 6 x.1
    let b := eqStep (bits request 3 2) 12 x.2.1
    { l with txEq := setNth l.txEq lane (a.2, b.2, x.2.2), responses := setNth l.responses lane (a.1, b.1) }

/-- A training attempt begins: T1, preset P1 on every lane, nothing seen of the far end. -/
def HostLink.attempt (l : HostLink) : HostLink :=
  { l with
    phase := .t1, farLocked := 0, farEqual := 0, farDeskew := 0, laneMap := [], inverted := [], aligned := false,
    txEq := List.replicate 16 (0, 4, 1), responses := List.replicate 16 (0, 0),
    paramsSent := false, paramsSeen := false, farPeerSeen := false, heldTags := [] }

/-- The schedule has started (R77): a source switch or an interruption of the line domain does not stop a port's training (R85). -/
def Stage.scheduled : Stage → Bool
  | .running | .switching => true
  | _ => false

/-- May the port train: its count is complete, and the schedule has started (R77). -/
def State.mayTrain (s : State) (p : Port) : Bool :=
  let l := s.link p
  s.enabled p && l.counted && !l.clockStopped && s.start.stage.scheduled

def LinkPhase.training : LinkPhase → Bool
  | .t1 | .t2 | .t3 | .t4 => true
  | _ => false

/-- TRAINING_PHASE_LIMIT: the attempt ends and the lanes idle. -/
def execTrainingPhaseLimit (p : Port) (s : State) : Host.Outcome State Fault Refusal :=
  if (s.link p).phase.training && !(s.link p).clockStopped then
    .next (s.modLink p fun l => { l with phase := .idle })
  else .next s

/-- Is every lane in use mapped, each logical number once (R284)? -/
def HostLink.mapped (l : HostLink) (n : Nat) : Bool :=
  (List.range n).all fun i => (l.laneMap.any fun m => m.1 == i) && (l.laneMap.any fun m => m.2 == i)

/-- The phase after what has been seen: T1 ends when this end has mapped every lane and the far end reports locked, T2
when the far end reports equalisation done, T3 when both are deskewed; the far flag counts after 16 TRAIN blocks on
lane 0 (R296). -/
def HostLink.advance (l : HostLink) (n : Nat) : HostLink :=
  if l.phase = .t1 && l.mapped n && 16 ≤ l.farLocked then { l with phase := .t2 }
  else if l.phase = .t2 && 16 ≤ l.farEqual then { l with phase := .t3, aligned := false }
  else if l.phase = .t3 && l.aligned && 16 ≤ l.farDeskew then { l with phase := .t4 }
  else l

/-- One more consecutive block with a flag, or none. -/
def flagCount (set : Bool) (n : Nat) : Nat :=
  if set then n + 1 else 0

/-- A TRAIN block's content on a lane in training (Table 13.7). -/
def HostLink.train (l : HostLink) (lanes : Nat) (lane : Nat) (content : Bytes) : HostLink :=
  let f := field content 0 1
  let l1 := l.equalise lane (field content 2 1)
  let l2 := if lane = 0 then
      { l1 with
        farLocked := flagCount (f.testBit 0) l1.farLocked
        farEqual := flagCount (f.testBit 1) l1.farEqual
        farDeskew := flagCount (f.testBit 2) l1.farDeskew }
    else l1
  l2.advance lanes

/-- The content of the TRAIN block that a port of n lanes sends on a lane in training (Table 13.7), with the device's request of the
far transmitter, which only T2 makes. -/
def HostLink.trainContent (l : HostLink) (n lane request : Nat) : Bytes :=
  let flags := bit (l.mapped n) + 2 * bit (l.phase == .t2 || l.phase == .t3 || l.phase == .t4) +
    4 * bit (l.phase == .t4 || (l.phase == .t3 && l.aligned))
  let r := nth (0, 0) l.responses lane
  let x := nth (0, 0, 0) l.txEq lane
  le 1 flags ++ le 1 lane ++ le 1 (if l.phase = .t2 then request else 0) ++ le 1 (r.1 + 4 * r.2 + 16 * x.2.2) ++ zeros 3

/-- A row of TRAIN blocks goes out on every lane (R296). DESIGN CHOICE: one at the start of an attempt and one for each TRAIN block
that arrives on lane 0, since both ends send a row in the same time; see assumption 94. -/
def HostLink.trainRow (l : HostLink) (n : Nat) (request : Nat → Nat) : HostLink :=
  l.sendRow n ((List.range n).map fun i => controlWord typeTrain (l.trainContent n i (request i)))

def State.sendTraining (s : State) (p : Port) : State :=
  let k := s.fresh
  s.useFresh.modLink p fun l => l.trainRow (s.lanes p) fun i => (Config.eqRequest k i).toNat

/-- An attempt begins. -/
def State.beginAttempt (s : State) (p : Port) : State :=
  (s.modLink p HostLink.attempt).sendTraining p

/-- HOST_TRAIN_ATTEMPT_START. -/
def execHostTrainAttemptStart (p : Port) (s : State) : Host.Outcome State Fault Refusal :=
  if s.mayTrain p && (s.link p).phase == .down then .next (s.beginAttempt p) else .next s

/-- ATTEMPT_IDLE_END. -/
def execAttemptIdleEnd (p : Port) (s : State) : Host.Outcome State Fault Refusal :=
  if s.mayTrain p && (s.link p).phase == .idle then .next (s.beginAttempt p) else .next s

/-- A TRAIN block has arrived on lane 0 of a port that sends them too. -/
def State.answerTraining (s : State) (p : Port) (lane : Nat) : State :=
  if lane = 0 && (s.link p).phase != .t4 then s.sendTraining p else s

/-- TRAIN_BLOCK: in training it carries flags and requests; while the link is up it is cause 0x02 of Table 13.10. -/
def execTrainBlock (p : Port) (lane : Fin 16) (content : Bytes) (s : State) : Host.Outcome State Fault Refusal :=
  let l := s.link p
  if l.clockStopped then .next s
  else if l.phase = .up then .next (s.beginAttempt p)
  else if l.phase.training && l.phase != .t4 && decide (lane.val < s.lanes p) then
    .next ((s.setLink p (l.train (s.lanes p) lane.val content)).answerTraining p lane.val)
  else .next s

/-- A link parameters frame's body (Table 13.8). A port's training is a resume once it has trained (R298). -/
def State.paramsBody (s : State) (p : Port) : Bytes :=
  let l := s.link p
  le 1 1 ++ le 1 (bit l.paramsSeen + 2 * bit l.trained) ++ le 2 (if l.trained then l.expected.toNat else 0) ++
  le 1 (s.lanes p) ++ le 1 (bit (s.strap 4)) ++ zeros 2 ++
  le 2 (if l.trained then l.doorbells.toNat else 64) ++ zeros 6 ++
  le 2 s.node ++ le 2 Config.stepping ++ zeros 12

/-- A link parameters frame goes out; one with "peer seen" set is what T4 waits for (Table 13.6). -/
def State.sendParams (s : State) (p : Port) : State :=
  let body := s.paramsBody p
  (s.say (.params p body)).modLink p fun l =>
    { (l.putBlocks (frameWords 15 0 body)).lay (s.lanes p) with paramsSent := l.paramsSent || l.paramsSeen }

/-- PARAMETERS_FRAME_INTERVAL. -/
def execParametersFrameInterval (p : Port) (s : State) : Host.Outcome State Fault Refusal :=
  if (s.link p).phase = .t4 && !(s.link p).clockStopped then .next (s.sendParams p) else .next s

/-- A parameters frame of the host is good: format 0x01, reserved fields zero (Table 13.8). -/
def paramsGood (b : Bytes) : Bool :=
  field b 0 1 == 1 && decide (field b 1 1 < 4) && decide (field b 2 2 < 4096) && zeroAt b 6 2 && zeroAt b 0x10 16

/-- It agrees with this end: lanes, rate, resume flag, and in a fresh training the least grants (R298). -/
def State.paramsAgree (s : State) (p : Port) (b : Bytes) : Bool :=
  let l := s.link p
  field b 4 1 == s.lanes p && field b 5 1 == bit (s.strap 4) && (field b 1 1).testBit 1 == l.trained &&
  (l.trained || (decide (16 ≤ field b 0xA 2) && decide (128 ≤ field b 0xC 2) && decide (16 ≤ field b 0xE 2)))

/-- The frames of a replay buffer from a sequence number on (R298). -/
def framesFrom (seq : BitVec 12) (l : List Frame) : List Frame :=
  l.filter fun f => decide ((f.seq - seq).toNat < 2048)

/-- Resend frames, each under its own number. -/
def sayResent (p : Port) : List Frame → State → State
  | [], s => s
  | f :: t, s =>
    let s1 := s.modLink p fun l => (l.putBlocks (frameWords f.kind f.seq f.body)).lay (s.lanes p)
    sayResent p t (s1.say (.resent p f))

/-- The link comes up: a fresh training starts sequences and credits anew, a resume resends from the far end's next
expected (R298). -/
def State.bringUp (s : State) (p : Port) : State :=
  let l := s.link p
  if l.trained then
    let keep := framesFrom l.farNext l.replay
    let s1 := s.setLink p { l with phase := .up, replay := keep, resends := 0 }
    (sayResent p keep s1).pump p
  else
    (s.setLink p { l with
      phase := .up, trained := true, nextSeq := 0, expected := 0, nakSent := false, replay := [], resends := 0,
      consumed := [0, 0, 0], doorbells := 64 }).pump p

/-- Take a good parameters frame in T4. -/
def HostLink.takeParams (l : HostLink) (agree : Bool) (b : Bytes) : HostLink :=
  { l with
    paramsSeen := true
    farPeerSeen := agree && (field b 1 1).testBit 0
    farNext := BitVec.ofNat 12 (field b 2 2)
    granted := if l.trained then l.granted
      else [BitVec.ofNat 16 (field b 0xA 2), BitVec.ofNat 16 (field b 0xC 2), BitVec.ofNat 16 (field b 0xE 2)] }

/-- T4 has ended: a good frame with peer seen received, one sent. -/
def HostLink.ready (l : HostLink) : Bool :=
  l.phase == .t4 && l.paramsSent && l.farPeerSeen && !l.clockStopped

/-! ### Link control blocks (R285, R291 to R295) -/

/-- The check of a LINK block (R285). -/
def linkBlockOk (subtype : Nat) (b : LinkBlock) : Bool :=
  crc32c (le 1 subtype ++ le 2 b.value.toNat ++ le 2 b.count.toNat) % 65536 == b.check.toNat

/-- A sequence number acknowledges every frame up to it (R287). -/
def acked (seq : BitVec 12) (f : Frame) : Bool :=
  decide ((seq - f.seq).toNat < 2048)

/-- Free what a sequence number acknowledges; a new acknowledgement resets the resend count (R292). -/
def HostLink.ackUpTo (l : HostLink) (seq : BitVec 12) : HostLink :=
  if l.replay.any (acked seq) then
    { l with replay := l.replay.filter (fun f => !acked seq f), resends := 0 }
  else l

/-- ACK. -/
def execAck (p : Port) (b : LinkBlock) (s : State) : Host.Outcome State Fault Refusal :=
  if s.linkUp p && linkBlockOk 1 b then
    .next ((s.modLink p fun l => l.ackUpTo (b.value.truncate 12)).pump p)
  else .next s

/-- Resend every unacknowledged frame, and count the resend. -/
def State.resendAll (s : State) (p : Port) : State :=
  let l := s.link p
  if l.replay.isEmpty then s
  else sayResent p l.replay (s.setLink p { l with resends := l.resends + 1 })

/-- NAK. -/
def execNak (p : Port) (b : LinkBlock) (s : State) : Host.Outcome State Fault Refusal :=
  if s.linkUp p && linkBlockOk 2 b then
    .next (((s.modLink p fun l => l.ackUpTo (b.value.truncate 12)).resendAll p).pump p)
  else .next s

/-- CREDIT: the new cumulative total of class 1, 2 or 3, at most 32,768 beyond what has been consumed (R294); a total that is not ahead is
an old one repeated. -/
def HostLink.grant (l : HostLink) (cls : Nat) (count : BitVec 16) : HostLink :=
  if cls = 0 then l
  else if (count - nth 0 l.consumed (cls - 1)).toNat ≤ 32768 && decide (l.credit (cls - 1) ≤ (count - nth 0 l.consumed (cls - 1)).toNat) then
    { l with granted := setNth l.granted (cls - 1) count }
  else l

def execCredit (p : Port) (b : LinkBlock) (s : State) : Host.Outcome State Fault Refusal :=
  if s.linkUp p && linkBlockOk 3 b then
    .next ((s.modLink p fun l => l.grant (bits b.value.toNat 1 0) b.count).pump p)
  else .next s

/-- Retrain a port, RETRAIN blocks first where the cause calls for them: four of them with the reason (R299). -/
def State.retrainPort (s : State) (p : Port) (reason : Nat) : State :=
  let v := BitVec.ofNat 16 reason
  ((((s.sayLink p 4 v 0).sayLink p 4 v 0).sayLink p 4 v 0).sayLink p 4 v 0).beginAttempt p

/-- RETRAIN. -/
def execRetrain (p : Port) (b : LinkBlock) (s : State) : Host.Outcome State Fault Refusal :=
  if s.linkUp p && linkBlockOk 4 b then .next (s.beginAttempt p) else .next s

/-- BLOCK_LOCK_LOST: the latest 64 sync headers of a lane in use show that its lock is lost (R282). -/
def execBlockLockLost (p : Port) (lane : Fin 16) (headers : List (BitVec 2)) (s : State) : Host.Outcome State Fault Refusal :=
  if s.linkUp p && decide (lane.val < s.lanes p) && lockLost headers then .next (s.retrainPort p 1) else .next s

/-- ACK_REPEAT. -/
def execAckRepeat (p : Port) (s : State) : Host.Outcome State Fault Refusal :=
  if s.linkUp p then .next (s.sayAck p) else .next s

/-- CREDIT_REPEAT. -/
def execCreditRepeat (p : Port) (s : State) : Host.Outcome State Fault Refusal :=
  if s.linkUp p then .next (s.sayLink p 3 0 (s.link p).doorbells) else .next s

/-- REPLAY_INTERVAL: resend, or after four resends without a new acknowledgement retrain with reason 0x03 (R292). -/
def execReplayInterval (p : Port) (s : State) : Host.Outcome State Fault Refusal :=
  if s.linkUp p && !(s.link p).replay.isEmpty then
    if 4 ≤ (s.link p).resends then .next (s.retrainPort p 3) else .next (s.resendAll p)
  else .next s

/-! ### Received frames that are not acted on (R286, R289, R290) -/

/-- The transaction length a frame's kind calls for, in bytes (Table 13.4); none for a kind with no fixed form. -/
def frameLength (kind : Nat) (body : Bytes) : Option Nat :=
  match kind with
  | 1 => some 16
  | 2 => some (8 + field body 4 2)
  | 3 => some (16 + field body 0 2)
  | 4 => some 8
  | 5 => some 16
  | 6 => some 16
  | 7 => some 8
  | 15 => some 32
  | _ => none

/-- Is a received frame good (R289)? -/
def frameGood (f : RawFrame) : Bool :=
  let words := field f.start 3 2
  let pad := field f.ending 4 1
  let len := 8 * words - pad
  !f.blockError && decide (1 ≤ words) && decide (words ≤ 514) && f.body.length == 8 * words && decide (pad ≤ 7) &&
  zeroAt f.start 5 2 && decide (field f.start 1 2 < 4096) && zeroAt f.ending 5 2 &&
  zeroAt f.body len pad &&
  crc32c (fit 7 f.start ++ f.body) == field f.ending 0 4 &&
  (match frameLength (field f.start 0 1) f.body with | some n => n == len | none => true)

/-- The receiver of a port takes frames: its link is up, or it exchanges parameters frames in T4. -/
def State.takesFrames (s : State) (p : Port) : Bool :=
  s.linkUp p || ((s.link p).phase == .t4 && !(s.link p).clockStopped)

/-- A frame that is bad, late or early: a bad frame is discarded, NAKed and counted; a good one that is late or early is discarded and
acknowledged or NAKed (R289). -/
def State.refuseFrame (s : State) (p : Port) (f : RawFrame) : State :=
  let armed := (s.armedFor 2 p.num).isSome
  if !(frameGood f && !armed) then (s.badFrame p (field f.start 0 1)).injected 2 p.num (0x392 + p.num)
  else if s.linkUp p then
    match (s.link p).arrival (BitVec.ofNat 12 (field f.start 1 2)) with
    | .accepted => s
    | .duplicate => s.sayAck p
    | .later => s.sayNak p
  else s

/-- HOST_FRAME_BAD: with the blocks received from the frame's START on; blocks that begin no frame are discarded (R282). -/
def execHostFrameBad (p : Port) (blocks : List (BitVec 66)) (s : State) : Host.Outcome State Fault Refusal :=
  match readFrame blocks with
  | some f => if s.takesFrames p then .next (s.refuseFrame p f) else .next s
  | none => .next s

/-- A frame the device does not act on: a kind the host may not send, or a reserved field or encoding (R290, R317). -/
def notActable (kind : Nat) (body : Bytes) : Bool :=
  match kind with
  | 2 => field body 0 2 ≥ 1024 || !zeroAt body 3 1 || !zeroAt body 6 2
  | 4 =>
    let t := field body 2 2
    !zeroAt body 1 1 ||
    (match field body 0 1 with
     | 1 => decide (512 ≤ t)
     | 2 => !(decide (t < 64) || (decide (0x100 ≤ t) && decide (t < 0x108)))
     | _ => true)
  | 5 => false
  | _ => true

/-- An accepted frame that is not acted on: counted, and the credit of a doorbell returned (R290). -/
def State.ignoreFrame (s : State) (p : Port) (kind : Nat) : State :=
  let s1 := s.hostLinkError p 2 kind
  if kind = 4 then s1.returnCredit p else s1

/-- FRAME_NOT_ACTED_ON: in its turn, as any accepted frame (R303). -/
def execFrameNotActedOn (p : Port) (seq : BitVec 12) (kind : Byte) (body : Bytes) (s : State) :
    Host.Outcome State Fault Refusal :=
  if notActable kind.toNat body then
    .next (s.onFrame p kind.toNat seq fun t =>
      if t.runs && (t.link p).held.isEmpty then t.ignoreFrame p kind.toNat
      else t.modLink p fun l => { l with held := l.held ++ [.ignored kind.toNat] })
  else .next s

/-! ### Tags and the port's clock -/

/-- HL.000 or HL.001: the host completion timeout. -/
def State.hostTimeout (s : State) (p : Port) : Nat :=
  s.par (0x0200 + p.num)

/-- TAG_HOLD_EXPIRY (R300). -/
def execTagHoldExpiry (p : Port) (tag : BitVec 16) (s : State) : Host.Outcome State Fault Refusal :=
  if (s.link p).heldTags.any fun h => h.1 == tag && s.passedFrom h.2 (4 * s.hostTimeout p) then
    .next ((s.modLink p fun l => { l with heldTags := l.heldTags.filter fun h => !(h.1 == tag) }).pump p)
  else .next s

/-- The port whose clock TSEL selects for the line side: in reset and dormant states by its level, elsewhere by the last
change recognised (R87). -/
def State.sourcePort (s : State) : Port :=
  if (match s.start.stage with | .reset | .dormant _ => s.pins.tsel | _ => s.clock.source) then .b else .a

/-- A clock that TSEL does not select may stop at any time, either clock in a dormant state (R93, R94). -/
def State.clockFree (s : State) (p : Port) : Bool :=
  match s.start.stage with | .reset | .dormant _ => true | _ => s.sourcePort != p

/-- PORT_CLOCK_STOP (R94, R308). -/
def execPortClockStop (p : Port) (s : State) : Host.Outcome State Fault Refusal :=
  if s.clockFree p then .next (s.modLink p fun l => { l with clockStopped := true }) else .next s

/-- The port's clock has edges again: what stood goes on, with the doorbell credits taken meanwhile. -/
def State.portClockBack (s : State) (p : Port) : State :=
  let k := (s.link p).owed
  let s1 := s.modLink p fun l => { l with clockStopped := false, owed := 0 }
  (if k = 0 then s1 else s1.grantDoorbells p k).pump p

/-- PORT_CLOCK_RETURN: the link layer goes on from where it stood; training follows from lost block lock or TRAIN
blocks (R308). -/
def execPortClockReturn (p : Port) (s : State) : Host.Outcome State Fault Refusal :=
  if s.clockFree p then .next (s.portClockBack p) else .next s

/-- A port's stability count runs: from the release of reset, or from an exit from a dormant state, while its clock has edges (R76,
R77). -/
def State.portCounts (s : State) (p : Port) : Bool :=
  !(s.link p).clockStopped && (!s.start.sampled || s.enabled p) &&
  match s.start.stage with | .reset | .dormant _ => false | _ => true

/-- PORT_STABILITY_COUNT_DONE (R77). -/
def execPortStabilityCountDone (p : Port) (s : State) : Host.Outcome State Fault Refusal :=
  if s.portCounts p then .next (s.modLink p fun l => { l with counted := true }) else .next s

end Sys2Proof.Machine
end

