-- ==== Sys2Proof/Machine/StartRecord.lean ====
section
/-! DEFINITION. The start record (R106, Tables 5.4 to 5.6), the wake records of held matches, and the end of host-link training,
which on an exit from dormant-retain calls for both. -/

namespace Sys2Proof.Machine

/-! ### The start record -/

/-- A channel's start state (Table 5.5): of the image after a cold start (R105), as it left dormant after a warm one. -/
def State.startCode (s : State) (c : ChanId) : Nat :=
  if s.start.kind = 0 then
    if s.enabled (s.portOf c) then s.elem 0x0300 c else 3
  else nth 0 s.start.left c.val

/-- The start has come as far as its channels and coefficient sets. -/
def Stage.begun : Stage → Bool
  | .ready | .running | .switching | .dormant _ | .warm _ => true
  | _ => false

/-- Start status (Table 5.6). DESIGN CHOICE: bit 5 is 0 in an image refusal, where no image assigns ports; see assumption 21. -/
def State.startStatus (s : State) : Nat :=
  let x := s.start
  bit x.calHeld + 2 * bit x.tselAtRelease + 4 * bit (s.image.loaded && s.image.fromMirror) +
  8 * bit (s.image.loaded && s.image.verified) + 16 * bit (x.stage.begun && x.sets == 0) +
  32 * bit (x.stage.begun && allChans.any fun c => s.startCode c == 3)

/-- The seven resistor codes, four bits each, IDSEL0 lowest. -/
def packCodes : List Nat → Nat
  | [] => 0
  | c :: t => c + 16 * packCodes t

/-- The 24 bytes at offsets 0x08 to 0x1F of the start record (R101). -/
def State.startHead (s : State) (port : Nat) : Bytes :=
  let x := s.start
  le 2 Config.stepping ++ le 1 x.kind ++ le 1 port ++ le 2 s.node ++ le 2 s.partition ++
  le 1 (x.straps.toNat % 128) ++ le 1 s.startStatus ++ le 2 (ofBits x.outOfBand) ++ le 4 (packCodes x.codes) ++
  le 1 (if x.stage = .strapRefusal then 0 else x.straps.toNat % 4) ++ [x.primary, x.mirror] ++ le 1 x.sets.toNat ++
  le 1 x.setsMirror.toNat ++ le 1 (min x.switches 255) ++ zeros 2

/-- Two bits for each channel. -/
def packStates : List Nat → Nat
  | [] => 0
  | c :: t => c + 4 * packStates t

def State.startBody (s : State) (p : Port) : Bytes :=
  s.startHead p.num ++ fit 32 s.image.digest ++ le 4 s.image.length ++ le 4 s.start.duration.toNat ++
  fit 8 s.image.ident ++ le 16 (packStates (allChans.map s.startCode)) ++
  le 8 (ofBits (allChans.map fun c => s.portOf c == .b)) ++ zeros 24

/-! ### Held matches (R264, R270) -/

/-- Write the record of a held match. -/
def State.wakeMatch (s : State) (c : ChanId) : State :=
  match (s.chan c).wake.held with
  | none => s
  | some m =>
    (s.writeWake c 1 m.device m.ident m.data 0).modChan c fun x => { x with wake := { x.wake with held := none } }

def wakeMatches : List ChanId → State → State
  | [], s => s
  | c :: t, s => wakeMatches t (s.wakeMatch c)

/-- Write the wake records of the matches held for a port with an anchor, after a start record that is owed (R264, R270). -/
def State.wakeRecords (s : State) (p : Port) : State :=
  if (s.rings p).anchor.isSome && !(s.rings p).startPending then ((wakeMatches (allChans.filter fun c => s.portOf c == p) s).writeBuffered p).releaseWake
  else s

/-- A port's telemetry period. -/
def State.telem (s : State) : Port → Telemetry
  | .a => s.telemA
  | .b => s.telemB

def State.setTelem (s : State) (p : Port) (x : Telemetry) : State :=
  match p with
  | .a => { s with telemA := x }
  | .b => { s with telemB := x }

/-- The port whose start record the last-start area keeps (R155). -/
def State.keeper (s : State) : Port :=
  if s.enabled .a then .a else .b

/-- Write a port's start record, and after it the wake records that follow it (R106, R270); telemetry starts afresh
(R337). -/
def State.writeStart (s : State) (p : Port) : State :=
  let bytes := s.header 1 4 ++ s.startBody p
  let s1 := if p = s.keeper then { s with start := { s.start with record := bytes } } else s
  let s2 := (s1.modRings p fun r => { r with startPending := false, telemetrySeq := 0, lost := 0 }).setTelem p
    { Telemetry.reset with since := s.clock.sf }
  (s2.record p 1 (s.startBody p)).wakeRecords p

/-! ### The end of training (R284, R296, R298) -/

/-- LINK_PARAMETERS_FRAME: a good frame in T4. -/
def execLinkParametersFrame (p : Port) (body : Bytes) (s : State) : Host.Outcome State Fault Refusal :=
  let l := s.link p
  if l.phase = .t4 && !l.clockStopped && paramsGood body then
    .next (s.setLink p (l.takeParams (s.paramsAgree p body) body))
  else .next s

/-- A row names every lane in use once, each with another logical number. -/
def lanesOk (n : Nat) (lanes : List (Nat × Nat)) : Bool :=
  lanes.length == n &&
  (List.range n).all fun i => (lanes.any fun m => m.1 == i) && (lanes.any fun m => m.2 == i)

/-- In T1 a row shows which pairs are inverted (R284). -/
def HostLink.seePolarity (l : HostLink) (n : Nat) (row : List LaneBlock) : HostLink :=
  if l.phase = .t1 then { l with inverted := invertedLanes n row } else l

/-- The mapping that a row of received blocks gives, the inverted pairs corrected. -/
def HostLink.readLanes (l : HostLink) (n : Nat) (row : List LaneBlock) : List (Nat × Nat) :=
  readRow n (fun i => l.inverted.contains i) row

/-- The start record that an exit from dormant-retain owes a port that is up (R106): the Merun core writes it, once the schedule runs
(R80). -/
def State.owedStart (s : State) (p : Port) : State :=
  if s.runs && (s.rings p).startPending && (s.link p).phase == .up then s.writeStart p else s

/-- The link comes up, with the start record that is owed. -/
def State.trained (s : State) (p : Port) : State :=
  (s.bringUp p).owedStart p

/-- A port with a row of received ALIGN blocks, one for each physical lane in use: physical lanes are mapped in training up to T3, in
T3 the lanes are aligned on the row, and the first row after T4 is satisfied ends it. -/
def State.alignOn (s : State) (p : Port) (row : List LaneBlock) : State :=
  let n := s.lanes p
  let l := (s.link p).seePolarity n row
  let lanes := l.readLanes n row
  if l.clockStopped || !lanesOk n lanes then s
  else if l.phase = .t4 then (if l.ready then s.trained p else s)
  else if l.phase.training then
    s.setLink p ({ l with laneMap := lanes, aligned := l.aligned || l.phase == LinkPhase.t3 }.advance n)
  else s

/-- ALIGN_ROW. -/
def execAlignRow (p : Port) (row : List LaneBlock) (s : State) : Host.Outcome State Fault Refusal :=
  .next (s.alignOn p row)

end Sys2Proof.Machine
end

