-- ==== Sys2Proof/Machine/Wake.lean ====
section
/-! DEFINITION. Sleep and selective wake (R261 to R270): the sleep notice, sending wake frames, being woken, and the
false-wake timer. -/

namespace Sys2Proof.Machine

def State.modWake (s : State) (c : ChanId) (f : Wake → Wake) : State :=
  s.modChan c fun x => { x with wake := f x.wake }

/-- SLEEP_NOTICE. -/
def execSleepNotice (c : ChanId) (msg : Bytes) (s : State) : Host.Outcome State Fault Refusal :=
  .next (s.onMessage c msg 0x32 fun t =>
    let x := t.chan c
    if x.stands .data || x.stands .quiet || x.stands .fast then t.move c .sleep 0x21 else t)

/-! ### Sending a wake (R262, R263) -/

/-- WAKE_FRAMES_SENT: the channel-up item completes, and the channel goes on to FAST or SEARCH. -/
def execWakeFramesSent (c : ChanId) (s : State) : Host.Outcome State Fault Refusal :=
  let w := (s.chan c).wake
  match w.sending with
  | some (_, _, p, q, item) =>
    if s.runs then
      let s1 := (s.modWake c fun y => { y with sending := none }).result p q item 0 0 0
      if w.fromSleep && (s.chan c).stored.isSome then .next (s1.beginFast c 0x28 1 none (some s.clock.sf))
      else .next (s1.arrive c .search 1)
    else .next s
  | none => .next s

/-- WAKE_ANSWER_LIMIT. -/
def execWakeAnswerLimit (c : ChanId) (s : State) : Host.Outcome State Fault Refusal :=
  let x := s.chan c
  match x.train.answer with
  | some t =>
    if s.runs && x.stands .fast && x.train.fast == .f1 && s.passedSf t (s.elem 0x0602 c) then
      .next (s.arrive c .search 0x27)
    else .next s
  | none => .next s

/-! ### Being woken (R264, R268, R269) -/

/-- Does a frame match an entry of the wake table? -/
def WakeEntry.matchesFrame (e : WakeEntry) (ident : BitVec 16) (data : Bytes) : Bool :=
  e.enabled && ((ident ^^^ e.ident) &&& e.mask) == 0 &&
  (List.range 32).all fun k => ((byteAt data k ^^^ byteAt e.data k) &&& byteAt e.dataMask k) == 0

/-- 1 and 2 in the dormant states and on the way out of them, until the schedule resumes. -/
def State.dormantCode (s : State) : Nat :=
  match s.start.stage with
  | .dormant .retain | .warm .retain => 1
  | .dormant .deep | .warm .deep => 2
  | .imageLoad _ | .imageCheck _ | .coefficients | .ready => s.start.kind
  | _ => 0

/-- The wake domain is active: not in reset, nor refused, nor before the device first ran. -/
def State.wakes (s : State) : Bool :=
  s.start.stage == .running || s.start.stage == .switching || s.dormantCode != 0

/-- An exit event is held in a dormant state and during the entry to one (R272). -/
def State.holdsExit (s : State) : Bool :=
  s.entry.isSome || (match s.start.stage with | .dormant _ => true | _ => false)

/-- A woken channel starts to restore, and its false-wake timer starts (R264, R265). -/
def State.restoreWoken (s : State) (c : ChanId) : State :=
  s.modWake c fun w => { w with restoring := true, due := false, falseSince := some s.clock.symbols }

/-- A frame that matches channel c. -/
def State.woken (s : State) (c : ChanId) (ident : BitVec 16) (data : Bytes) : State :=
  let s1 := s.modWake c fun w =>
    { w with armed := false, held := some ⟨ident, fit 32 data, s.dormantCode⟩, due := s.dormantCode != 0 }
  let s2 := { s1 with pins := { s1.pins with wakeLow := true } }
  let s3 := if s.holdsExit then { s2 with exitHeld := true } else s2
  if s.dormantCode = 0 then s3.restoreWoken c else s3

/-- A frame that reached its check: the check, then the matching rule (R268). -/
def State.takeWakeFrame (s : State) (c : ChanId) (ident : BitVec 16) (data : Bytes) (check : BitVec 32) : State :=
  if check != wakeCheck ident data then s.modWake c fun y => { y with failed := min 255 (y.failed + 1) }
  else
    match s.image.wake[c.val]? with
    | some e =>
      if e.matchesFrame ident data then s.woken c ident data
      else s.modWake c fun y => { y with notMatching := min 255 (y.notMatching + 1) }
    | none => s.modWake c fun y => { y with notMatching := min 255 (y.notMatching + 1) }

/-- WAKE_FRAME_DECODED: the runs that the envelope detector saw, where they come, are decoded first; a frame that fails there is
discarded and not counted (R267). -/
def execWakeFrameDecoded (c : ChanId) (runs : List Nat) (ident : BitVec 16) (data : Bytes) (check : BitVec 32) (s : State) :
    Host.Outcome State Fault Refusal :=
  if s.wakes && (s.chan c).link == .sleep && (s.chan c).wake.armed then
    if runs.isEmpty then .next (s.takeWakeFrame c ident data check)
    else
      match wakeDecode runs with
      | some f => .next (s.takeWakeFrame c f.1 f.2.1 f.2.2)
      | none => .next s
  else .next s

/-- WAKE_RESTORE_DONE, at a superframe boundary. -/
def execWakeRestoreDone (c : ChanId) (s : State) : Host.Outcome State Fault Refusal :=
  let x := s.chan c
  if s.atBoundary && x.wake.restoring then
    let s1 := s.modWake c fun w => { w with restoring := false }
    if x.stands .sleep then .next (s1.beginFast c 0x22 0x22 none none) else .next s1
  else .next s

/-! ### False wake (R265) -/

/-- States from which a false wake returns to SLEEP. -/
def LinkState.awake : LinkState → Bool
  | .off | .sleep | .quarantine | .hold => false
  | _ => true

/-- FALSE_WAKE_TIMEOUT: after the sleep notice where the channel is in DATA; the entry to SLEEP with reason 0x26 counts
the false wake and writes its record. -/
def execFalseWakeTimeout (c : ChanId) (s : State) : Host.Outcome State Fault Refusal :=
  let x := s.chan c
  match x.wake.falseSince with
  | some t =>
    let waits := x.link == .sleep && (x.wake.restoring || x.bring.toSearch.isSome)
    if s.runs && (x.link.awake || waits) && s.passedFrom t (s.elem 0x0603 c) then
      let s1 := s.modWake c fun w => { w with falseSince := none }
      if x.stands .data || x.stands .quiet then .next (s1.leaveNoticed c sleepNotice .sleep 0x26)
      else .next (s1.move c .sleep 0x26)
    else .next s
  | none => .next s

end Sys2Proof.Machine
end

