-- ==== Sys2Proof/Machine/Channels.lean ====
section
/-! DEFINITION. The channel items, the margin override, injection, and the acceptance of an enter-dormant item (R230, R253, R261,
R262, R271, R326 to R328, R470, and the corners after R328). -/

namespace Sys2Proof.Machine

/-- A channel item: on a channel of another port it is refused with result 0x01, and the channel is not touched (R326). -/
def State.channelItem (s : State) (p : Port) (q : Fin 512) (i : Item) (c : ChanId) (act : State → Option State) :
    Option State :=
  let s1 := s.startItem p q i.index
  if s.ownChannel p c then act s1 else some (s1.result p q i.index 1 0 0)

/-- Is the channel in OFF or SLEEP with nothing under way that takes it out? -/
def Chan.down (x : Chan) : Bool :=
  (x.stands .off || x.stands .sleep) && x.wake.sending.isNone

/-- A channel-up item takes effect on a channel in OFF or SLEEP: wake frames first when it carries a request. -/
def State.bringChannelUp (s : State) (c : ChanId) (wake : Option (BitVec 16 × Bytes)) (p : Port) (q : Fin 512)
    (item : BitVec 32) : State :=
  match wake with
  | some (ident, data) =>
    (s.modWake c fun w => { w with
      sending := some (ident, data, p, q, item), fromSleep := (s.chan c).link == .sleep }).say
        (.wakeFrames c (s.elem 0x0601 c) ident data)
  | none => (s.modWake c fun w => { w with upItem := some (p, q, item) }).arrive c .search 1

/-- CHANNEL_UP: a quarantined channel refuses it (R432); one that is not in OFF or SLEEP keeps its state. -/
def execChannelUp (p : Port) (q : Fin 512) (s : State) : Host.Outcome State Fault Refusal :=
  .next (s.onItem p q fun i b =>
    match b with
    | .up c wake => s.channelItem p q i c fun t =>
      if (t.chan c).quarantined then some (t.result p q i.index 2 0 0)
      else
        let t1 := t.modQuiet c fun x => { x with mode := false }
        if (t.chan c).down then some (t1.bringChannelUp c wake p q i.index) else some (t1.result p q i.index 7 0 0)
    | _ => none)

/-- CHANNEL_DOWN: an item that finds another one under way on its channel waits for it. -/
def execChannelDown (p : Port) (q : Fin 512) (s : State) : Host.Outcome State Fault Refusal :=
  .next (s.onItem p q fun i b =>
    match b with
    | .down c => s.channelItem p q i c fun t =>
      let x := t.chan c
      if x.wake.downItem.isSome then none
      else if x.stands .off && x.wake.sending.isNone then some (t.result p q i.index 7 0 0)
      else
        let t1 := ((t.stopSending c).modQuiet c fun y => { y with mode := false }).modWake c fun w =>
          { w with downItem := some (p, q, i.index), falseSince := none }
        some (t1.leave c .off 2)
    | _ => none)

/-- CHANNEL_QUIET. -/
def execChannelQuiet (p : Port) (q : Fin 512) (s : State) : Host.Outcome State Fault Refusal :=
  .next (s.onItem p q fun i b =>
    match b with
    | .quiet c => s.channelItem p q i c fun t =>
      let x := t.chan c
      if x.link = .off || x.link = .quarantine then some (t.result p q i.index 2 0 0)
      else if x.quiet.mode then some (t.result p q i.index 7 0 0)
      else some ((t.modQuiet c fun y => { y with mode := true }).result p q i.index 0 0 0)
    | _ => none)

/-- A sleep item takes effect (R261). -/
def State.sleepChannel (s : State) (c : ChanId) : State :=
  let x := s.chan c
  if x.stands .data || x.stands .quiet then s.leaveNoticed c sleepNotice .sleep 0x20
  else if x.stands .fast then s
  else s.move c .sleep 0x20

/-- CHANNEL_SLEEP: an item that finds another one under way on its channel waits for it. -/
def execChannelSleep (p : Port) (q : Fin 512) (s : State) : Host.Outcome State Fault Refusal :=
  .next (s.onItem p q fun i b =>
    match b with
    | .sleep c => s.channelItem p q i c fun t =>
      let x := t.chan c
      if x.wake.sleepItem.isSome then none
      else if x.link = .hold || x.link = .quarantine then some (t.result p q i.index 2 0 0)
      else if x.stands .sleep && x.wake.sending.isNone then some (t.result p q i.index 7 0 0)
      else
        let t1 := (t.stopSending c).modWake c fun w => { w with sleepItem := some (p, q, i.index), falseSince := none }
        some (t1.sleepChannel c)
    | _ => none)

/-- MARGIN_OVERRIDE (R470). -/
def execMarginOverride (p : Port) (q : Fin 512) (s : State) : Host.Outcome State Fault Refusal :=
  .next (s.onItem p q fun i b =>
    match b with
    | .margin c m => s.channelItem p q i c fun t =>
      let set := fun (v : Option Nat) =>
        some ((t.modChan c fun x => { x with load := { x.load with override := v } }).result p q i.index 0 0 0)
      if m = 0xFFFF then set none
      else if t.elem 0x0308 c ≤ m && m ≤ t.elem 0x0309 c then set (some m)
      else some (t.result p q i.index 3 0 0)
    | _ => none)

/-! ### Injection (R328, R439) -/

/-- The port or channel field that a checker uses (Table 14.10). -/
def injectField (checker port chan : Nat) : Nat :=
  if checker = 2 then port else if checker = 3 || checker = 4 then chan else 0

/-- INJECT_CHECK_INVERSION: a second item for a checker waits until the first completes. -/
def execInjectCheckInversion (p : Port) (q : Fin 512) (s : State) : Host.Outcome State Fault Refusal :=
  .next (s.onItem p q fun i b =>
    match b with
    | .inject k port chan =>
      let t := s.startItem p q i.index
      if s.par 0x0A5E != 1 then some (t.result p q i.index 4 0 0)
      else if s.faults.armed.any fun a => a.1 == k then none
      else some { t with faults := { t.faults with
        armed := t.faults.armed ++ [(k, injectField k port chan, p, q, i.index, s.clock.sf)] } }
    | _ => none)

/-- INJECTION_LIMIT_EXPIRY: 65,536 superframes without a check of the checker. -/
def execInjectionLimitExpiry (checker : Fin 8) (s : State) : Host.Outcome State Fault Refusal :=
  match s.faults.armed.find? fun a => a.1 == checker.val with
  | some (_, _, p, q, item, t) =>
    if s.runs && s.passedSf t 65536 then
      let rest := s.faults.armed.filter fun a => !(a.1 == checker.val)
      .next ({ s with faults := { s.faults with armed := rest } }.result p q item 5 0 0)
    else .next s
  | none => .next s

/-! ### Dormant entry: acceptance (R271) -/

/-- Every channel is in SLEEP or OFF. -/
def State.asleep (s : State) : Bool :=
  allChans.all fun c => (s.chan c).link == .sleep || (s.chan c).link == .off

/-- ENTER_DORMANT. -/
def execEnterDormant (p : Port) (q : Fin 512) (s : State) : Host.Outcome State Fault Refusal :=
  .next (s.onItem p q fun i b =>
    match b with
    | .dormant k =>
      let t := s.startItem p q i.index
      if s.asleep && s.entry.isNone then
        some { t with entry := some { kind := k, queue := (p, q), item := i.index, written := false, acked := none } }
      else some (t.result p q i.index 2 0 0)
    | _ => none)

end Sys2Proof.Machine
end

