-- ==== Sys2Proof/Machine/Sfdp.lean ====
section
/-! DEFINITION. SFDP discovery (R146 step 1, R148, Table 7.8): the features of a flash device, read from the bytes of its SFDP
address space. The spec names JESD216 for the tables' layout and does not repeat it; the layout here is that standard's
(PRESUMED; assumption 66). -/

namespace Sys2Proof.Machine

/-- The signature "SFDP" at address 0. -/
def sfdpSignature : Bytes := [0x53, 0x46, 0x44, 0x50]

/-- A parameter header: its table's identifier, minor and major revision, length in 32-bit words, and first address. -/
structure SfdpHeader where
  ident : Nat
  minor : Nat
  major : Nat
  words : Nat
  addr : Nat
  deriving DecidableEq, Repr

/-- Parameter header i; the first follows the 8-byte SFDP header. -/
def sfdpHeader (b : Bytes) (i : Nat) : SfdpHeader :=
  let o := 8 + 8 * i
  { ident := field b o 1 + 256 * field b (o + 7) 1, minor := field b (o + 1) 1, major := field b (o + 2) 1,
    words := field b (o + 3) 1, addr := field b (o + 4) 3 }

/-- The parameter headers: byte 6 of the SFDP header is their number less one. -/
def sfdpHeaders (b : Bytes) : List SfdpHeader :=
  (List.range (field b 6 1 + 1)).map (sfdpHeader b)

/-- The header of a table, that of the latest revision where several carry its identifier, when the table lies within the bytes read. -/
def sfdpTable (b : Bytes) (ident : Nat) : Option SfdpHeader :=
  let l := (sfdpHeaders b).filter fun h => h.ident == ident && decide (h.addr + 4 * h.words ≤ b.length)
  l.find? fun h => l.all fun k => decide (k.major < h.major) || (k.major == h.major && decide (k.minor ≤ h.minor))

/-- 32-bit word n, counted from 1, of a table; 0 beyond its end. -/
def SfdpHeader.word (b : Bytes) (h : SfdpHeader) (n : Nat) : Nat :=
  if n ≤ h.words then field b (h.addr + 4 * (n - 1)) 4 else 0

/-- The Basic Flash Parameter Table and the 4-Byte Address Instruction Table. -/
def bfptIdent : Nat := 0xFF00
def fourByteIdent : Nat := 0xFF84

/-- The table is of JESD216 revision B or later. -/
def SfdpHeader.revisionB (h : SfdpHeader) : Bool :=
  h.major == 1 && decide (6 ≤ h.minor)

/-- The density in bits (second word): a count less one, or above 2 Gbit a power of two. -/
def sfdpDensity (w : Nat) : Nat :=
  if w.testBit 31 then 2 ^ (w % 2 ^ 31) else w + 1

/-- Which of the four erase types (eighth and ninth words) erases 4 KiB. -/
def erase4KiB (b : Bytes) (h : SfdpHeader) (k : Nat) : Bool :=
  bits (h.word b (8 + k / 2)) (16 * (k % 2) + 7) (16 * (k % 2)) == 12

/-- The features of the Basic Flash Parameter Table that Table 7.8 marks "discovered": density, the command 0x6B, 256-byte pages,
uniform 4 KiB sectors. -/
def basicFeatures (b : Bytes) (h : SfdpHeader) : Bool :=
  decide (2 ^ 28 ≤ sfdpDensity (h.word b 2)) && (h.word b 1).testBit 22 && bits (h.word b 3) 31 24 == 0x6B &&
  bits (h.word b 11) 7 4 == 8 && bits (h.word b 1) 1 0 == 1

/-- The features of the 4-Byte Address Instruction Table: 0x6C, 0x12, and 0x21 for the erase type of 4 KiB. -/
def fourByteFeatures (b : Bytes) (basic h : SfdpHeader) : Bool :=
  let w := h.word b 1
  w.testBit 4 && w.testBit 6 &&
  (List.range 4).any fun k => erase4KiB b basic k && w.testBit (9 + k) && bits (h.word b 2) (8 * k + 7) (8 * k) == 0x21

/-- The result of discovery: 0x02 without a valid signature or a Basic Flash Parameter Table, 0x03 without one of the other
features, 0 when the device is usable. -/
def sfdpResult (b : Bytes) : Nat :=
  if !(decide (8 ≤ b.length) && slice b 0 4 == sfdpSignature) then 2
  else
    match sfdpTable b bfptIdent with
    | none => 2
    | some basic =>
      match sfdpTable b fourByteIdent with
      | none => 3
      | some four =>
        if basic.revisionB && basicFeatures b basic && fourByteFeatures b basic four then 0 else 3

end Sys2Proof.Machine
end

