-- ==== Sys2Proof/Machine/Coefficients.lean ====
section
/-! DEFINITION. Coefficient copies and the coefficient payload (R151, R152, R460), and the trims and selections they give at a
temperature (R446 to R449). -/

namespace Sys2Proof.Machine

/-- The five temperature points, in 0.1 °C (R102). -/
def pointTemp (p : Nat) : Int :=
  nth 0 [-100, 200, 500, 800, 1100] p

def allPoints : List Nat := [0, 1, 2, 3, 4]

/-! ### The payload (Tables 19.3 to 19.5) -/

/-- Ones among the n low bits. -/
def onesIn (n v : Nat) : Nat :=
  ((toBits n v).filter id).length

/-- A signed code within −32 to +31. -/
def code6 (b : Bytes) (off : Nat) : Bool :=
  decide (-32 ≤ fieldInt b off 2) && decide (fieldInt b off 2 ≤ 31)

def chanBlock (b : Bytes) (c : Nat) : Bytes := slice b (0x640 + 600 * c) 600

def laneBlock (b : Bytes) (i : Nat) : Bytes := slice b (0x140 + 40 * i) 40

/-- Does a channel of the device lie in the group of channel c? -/
def State.sameGroup (s : State) (c d : ChanId) : Bool :=
  c.val / s.groupSize c == d.val / s.groupSize c

/-- The neighbour below, or above, that a channel cancels NEXT toward. -/
def State.hasBelow (s : State) (c : ChanId) : Bool :=
  decide (0 < c.val) && s.sameGroup c (c - 1)

def State.hasAbove (s : State) (c : ChanId) : Bool :=
  decide (c.val < 63) && s.sameGroup c (c + 1)

/-- A channel block meets Table 19.4. -/
def State.chanBlockOk (s : State) (b : Bytes) (c : ChanId) : Bool :=
  field b 0 1 == c.val && decide (field b 1 1 < 32) && zeroAt b 2 2 && onesIn 288 (field b 4 36) == 256 &&
  code6 b 0x2C && code6 b 0x2E && code6 b 0x30 &&
  decide (field b 0x34 3 < 2 ^ 18) && onesIn 18 (field b 0x34 3) == 16 && zeroAt b 0x37 1 &&
  ((List.range 18).all fun j => decide (field b (0x3E + 8 * j) 1 ≤ 3) && zeroAt b (0x3F + 8 * j) 1) &&
  (s.hasBelow c || zeroAt b 0x1C8 64) && (s.hasAbove c || zeroAt b 0x208 64) && zeroAt b 0x248 16

/-- The stems of a lane selection: data, edge, error high, error low. -/
def stemsOf (v : Nat) : List Nat :=
  [bits v 2 0, bits v 5 3, bits v 8 6, bits v 11 9]

def distinct : List Nat → Bool
  | [] => true
  | x :: t => !t.contains x && distinct t

/-- A lane block meets Table 19.5. -/
def laneBlockOk (b : Bytes) (i : Nat) : Bool :=
  field b 0 1 == i && decide (field b 1 1 < 4) && decide (field b 2 2 < 4096) && distinct (stemsOf (field b 2 2)) &&
  code6 b 0x14 && zeroAt b 0x16 18

/-- A payload of a point meets R460. -/
def State.payloadOk (s : State) (p : Nat) (b : Bytes) : Bool :=
  b.length == 40000 && field b 0 1 == 1 && field b 1 1 == p && (field b 2 2 == 0xB1 || field b 2 2 == 0xB0) &&
  (field b 0x10 1 == 1 || field b 0x10 1 == 2) && zeroAt b 0x11 15 && zeroAt b 0x24 4 && zeroAt b 0x68 216 &&
  ((List.range 32).all fun i => laneBlockOk (laneBlock b i) i) &&
  allChans.all fun c => s.chanBlockOk (chanBlock b c.val) c

/-! ### Copies in flash (R151, R152) -/

/-- The body of a copy. -/
def copyBody (b : Bytes) : Bytes := slice b 32 (field b 0xC 4)

/-- A copy of point p is valid. -/
def State.copyOk (s : State) (p : Nat) (b : Bytes) : Bool :=
  slice b 0 4 == [0x43, 0x53, 0x45, 0x54] && field b 4 1 == 1 && field b 5 1 == p && decide (1 ≤ field b 8 4) &&
  decide (field b 8 4 ≤ 0xFFFFFFFE) && field b 0xC 4 == 40000 && zeroAt b 0x14 8 &&
  crc32c (slice b 0 0x1C) == field b 0x1C 4 && crc32c (copyBody b) == field b 0x10 4 && s.payloadOk p (copyBody b)

/-- The copy taken of the two of a point: the valid one with the higher sequence, copy 0 when they are equal. -/
def State.chooseCopy (s : State) (p : Nat) (b0 b1 : Bytes) : Option (Nat × Bytes) :=
  match s.copyOk p b0, s.copyOk p b1 with
  | true, true => if field b0 8 4 < field b1 8 4 then some (1, b1) else some (0, b0)
  | true, false => some (0, b0)
  | false, true => some (1, b1)
  | false, false => none

/-- The result of the discovery that lets a flash device's coefficient area be read (R102): that of its image copy where this
start read it, else one made now. -/
def State.discovered (s : State) (d : FlashDev) (r : CoeffRead) : Nat :=
  let image := match d with | .primary => s.start.primary.toNat | .mirror => s.start.mirror.toNat
  if image = 0 then sfdpResult r.sfdp else if image = 2 || image = 3 then image else 0

/-- May a flash device's coefficient area be read? -/
def State.usable (s : State) (d : FlashDev) (r : CoeffRead) : Bool :=
  s.discovered d r == 0

/-- What a flash device holds of a point: nothing unless its discovery succeeded. -/
def State.readPoint (s : State) (d : FlashDev) (r : CoeffRead) (p : Nat) : Option (Nat × Bytes) :=
  if s.usable d r then s.chooseCopy p (nth [] r.copies (2 * p)) (nth [] r.copies (2 * p + 1)) else none

/-- A copy's bytes: set header and body (R151). -/
def copyBytes (p : Nat) (t : Int) (seq : Nat) (payload : Bytes) : Bytes :=
  let h := [0x43, 0x53, 0x45, 0x54] ++ le 1 1 ++ le 1 p ++ leInt 2 t ++ le 4 seq ++ le 4 payload.length ++
    le 4 (crc32c payload) ++ zeros 8
  h ++ le 4 (crc32c h) ++ payload

/-! ### Trims of a payload -/

/-- n signed 16-bit values from an offset. -/
def ints (b : Bytes) (off n : Nat) : List Int :=
  (List.range n).map fun i => fieldInt b (off + 2 * i) 2

/-- The 253 trims of a channel: DAC gain and offset, driver termination, both corners, receive gain, wake threshold,
sub-converters, echo seed, NEXT seeds. -/
def chanTrims (payload : Bytes) (c : Nat) : List Int :=
  let b := chanBlock payload c
  ints b 0x28 6 ++ [fieldInt payload (0x28 + c) 1] ++ ((List.range 18).flatMap fun j => ints b (0x38 + 8 * j) 3) ++
  ints b 0xC8 192

/-- The 9 trims of a host lane. -/
def laneTrims (payload : Bytes) (i : Nat) : List Int :=
  ints (laneBlock payload i) 4 9

def commonTrims (payload : Bytes) : List Int :=
  [(field payload 0x20 2 : Int), fieldInt payload 0x22 2]

/-! ### Interpolation (R447) -/

/-- Values between two points at temperature t. -/
def between (ta : Int) (a : List Int) (tb : Int) (b : List Int) (t : Int) : List Int :=
  (a.zip b).map fun v => roundDiv (v.1 * (tb - ta) + (v.2 - v.1) * (t - ta)) (tb - ta).toNat

/-- Trims at temperature t from the sets in ascending order of point. -/
def interpolate (t : Int) : List (Int × List Int) → List Int
  | [] => []
  | [(_, v)] => v
  | (ta, a) :: (tb, b) :: r =>
    if t ≤ ta then a else if t ≤ tb then between ta a tb b t else interpolate t ((tb, b) :: r)

/-- The in-use sets, as one trim list each. -/
def State.trimsAt (s : State) (f : Bytes → List Int) (nominal : List Int) : List Int :=
  match s.calib.sets with
  | [] => nominal
  | l => interpolate s.calib.t (l.map fun e => (pointTemp e.1, f e.2))

/-! ### The stem point (R448) -/

/-- The point nearest t among some, the colder one among equals. -/
def nearest (t : Int) : List Nat → Option Nat
  | [] => none
  | p :: r =>
    match nearest t r with
    | none => some p
    | some q => if (t - pointTemp p).natAbs ≤ (t - pointTemp q).natAbs then some p else some q

/-- The stem point after a reading: it moves only to a point at least 2 °C nearer. -/
def State.nextStem (s : State) : Option Nat :=
  let k := s.calib
  match nearest k.t (k.sets.map (·.1)), k.stemPoint with
  | none, _ => none
  | some q, none => some q
  | some q, some p =>
    if !(k.sets.any fun e => e.1 == p) then some q
    else if (k.t - pointTemp q).natAbs + 20 ≤ (k.t - pointTemp p).natAbs then some q else some p

/-- The payload whose selections are in use. -/
def State.stemSet (s : State) : Option Bytes :=
  s.calib.stemPoint.bind fun p => (s.calib.sets.find? fun e => e.1 == p).map (·.2)

/-! ### What is wanted, and the steps toward it (R449) -/

/-- The trims and selections a channel should have. -/
def State.wantChan (s : State) (c : ChanId) : ChanUse :=
  let trims := s.trimsAt (fun b => chanTrims b c.val) ChanUse.reset.trims
  match s.stemSet with
  | none => { ChanUse.reset with trims := trims }
  | some b =>
    let k := chanBlock b c.val
    { trims := trims, dac := BitVec.ofNat 288 (field k 4 36), adc := BitVec.ofNat 18 (field k 0x34 3),
      comparators := (List.range 18).map fun j => field k (0x3E + 8 * j) 1 }

def State.wantLane (s : State) (i : Nat) : LaneUse :=
  let trims := s.trimsAt (fun b => laneTrims b i) LaneUse.reset.trims
  match s.stemSet with
  | none => { LaneUse.reset with trims := trims }
  | some b => { trims := trims, stems := stemsOf (field (laneBlock b i) 2 2) }

/-- One code toward a value. -/
def towards (have' want : Int) : Int :=
  if have' < want then have' + 1 else if want < have' then have' - 1 else have'

def towardsAll (have' want : List Int) : List Int :=
  (have'.zip want).map fun v => towards v.1 v.2

/-- The lowest index set in one mask and clear in the other, below n. -/
def firstIn (n : Nat) (a b : Nat) : Option Nat :=
  (List.range n).find? fun i => a.testBit i && !b.testBit i

/-- Swap one stem of a selection toward the wanted one. -/
def swapOne {n : Nat} (have' want : BitVec n) : BitVec n :=
  match firstIn n have'.toNat want.toNat, firstIn n want.toNat have'.toNat with
  | some i, some j => have' ^^^ BitVec.ofNat n (2 ^ i) ^^^ BitVec.ofNat n (2 ^ j)
  | _, _ => have'

/-- One stem of the four of a lane toward the wanted order; a stem that serves elsewhere changes places. -/
def swapStem (have' want : List Nat) : List Nat :=
  match (List.range 4).find? fun i => nth 0 have' i != nth 0 want i with
  | none => have'
  | some i =>
    let w := nth 0 want i
    let old := nth 0 have' i
    setNth (have'.map fun x => if x = w then old else x) i w

/-- A superframe's change on a channel; at once in OFF. -/
def State.stepChan (s : State) (c : ChanId) : State :=
  let x := Tab.get ChanUse.reset s.calib.channels c.val
  let w := s.wantChan c
  let y := if (s.chan c).link = .off then w
    else { trims := towardsAll x.trims w.trims, dac := swapOne x.dac w.dac, adc := swapOne x.adc w.adc,
           comparators := w.comparators }
  if x = w then s else { s with calib := { s.calib with channels := Tab.set s.calib.channels c.val y } }

/-- A superframe's change on a host lane; at once on a lane that is not trained. -/
def State.stepLane (s : State) (i : Nat) : State :=
  let x := Tab.get LaneUse.reset s.calib.lanes i
  let w := s.wantLane i
  let p : Port := if i < 16 then .a else .b
  let y := if (s.link p).phase = .up && decide (i % 16 < s.lanes p) then
      { trims := towardsAll x.trims w.trims, stems := swapStem x.stems w.stems } else w
  if x = w then s else { s with calib := { s.calib with lanes := Tab.set s.calib.lanes i y } }

def stepChans : List ChanId → State → State
  | [], s => s
  | c :: t, s => stepChans t (s.stepChan c)

def stepLanes : List Nat → State → State
  | [], s => s
  | i :: t, s => stepLanes t (s.stepLane i)

/-- One superframe of gradual changes; common trims change at once. -/
def State.stepTrims (s : State) : State :=
  if s.calib.sets.isEmpty then s
  else
    let s1 := stepLanes (List.range 32) (stepChans allChans s)
    { s1 with calib := { s1.calib with common := s1.trimsAt commonTrims [0, 0] } }

/-- A reading of the temperature: the stem point follows it (R446, R448). -/
def State.newTemp (s : State) (t : Int) : State :=
  let s1 := { s with calib := { s.calib with t := t } }
  { s1 with calib := { s1.calib with stemPoint := s1.nextStem } }

/-- The points whose in-use set there is (Table 5.4, 0x1B). -/
def Calib.setMask (k : Calib) : BitVec 5 :=
  BitVec.ofNat 5 (ofBits (allPoints.map fun p => k.sets.any fun e => e.1 == p))

/-- A set takes its point's place; if it is the stem point's, or there is no stem point, the stem point becomes the nearest (R448). For
another point's set the stem point moves at a reading only (R446). -/
def State.adoptSet (s : State) (p : Nat) (payload : Bytes) : State :=
  let k := s.calib
  let sets := Tab.set k.sets p payload
  let stem := match k.stemPoint with
    | some q => if q = p then nearest k.t (sets.map (·.1)) else some q
    | none => nearest k.t (sets.map (·.1))
  { s with calib := { k with
    sets := sets, stemPoint := stem, mirrored := k.mirrored &&& ~~~(BitVec.ofNat 5 (2 ^ p)) } }

end Sys2Proof.Machine
end

