-- ==== Sys2Proof/Machine/Tasks.lean ====
section
/-! DEFINITION. Background tasks (R130): the calibrate and sound-cable items, CAL_N, the start of a task, and the end of
soundings and noise-floor measurements (R240 to R252, R450 to R452). -/

namespace Sys2Proof.Machine

def State.modCalib (s : State) (f : Calib → Calib) : State :=
  { s with calib := f s.calib }

def Task.isCal (t : Task) : Bool :=
  match t.kind with | .calibration .. => true | .sounding .. => false

/-- A task that has just been commanded. -/
def newTask (k : TaskKind) (o : Origin) (now : Sf) : Task :=
  { kind := k, origin := o, accepted := now, started := none, state := .off, heat := 0, waited := false, broken := 0, ended := false }

/-- The item completes that ordered a task. -/
def State.endTask (s : State) (t : Task) (result status : Nat) : State :=
  match t.origin.item with
  | some (p, q, item, _) => s.result p q item result status 0
  | none => s

/-! ### The items -/

/-- The origin of a task ordered by an item. -/
def itemOrigin (p : Port) (q : Fin 512) (i : Item) : Origin :=
  ⟨some (p, q, i.index, BitVec.ofNat 32 (field i.raw 4 4)), p⟩

/-- CALIBRATE. -/
def execCalibrate (p : Port) (q : Fin 512) (s : State) : Host.Outcome State Fault Refusal :=
  .next (s.onItem p q fun i b =>
    match b with
    | .calibrate point store channels ports =>
      let t := newTask (.calibration point store channels ports) (itemOrigin p q i) s.clock.sf
      some { s.startItem p q i.index with tasks := s.tasks ++ [t] }
    | _ => none)

/-- SOUND_CABLE. -/
def execSoundCable (p : Port) (q : Fin 512) (s : State) : Host.Outcome State Fault Refusal :=
  .next (s.onItem p q fun i b =>
    match b with
    | .sound c mode => s.channelItem p q i c fun t =>
      some { t with tasks := t.tasks ++ [newTask (.sounding c mode) (itemOrigin p q i) t.clock.sf] }
    | _ => none)

/-! ### CAL_N (R450, R451) -/

/-- CAL_N is watched while the schedule runs or stands in a source switch; in a dormant state it is ignored. -/
def State.watchesCal (s : State) : Bool :=
  s.start.stage == .running || s.start.stage == .switching

/-- A calibration that CAL_N commanded is queued or running. -/
def State.pinTask (s : State) : Bool :=
  s.tasks.any fun t => t.isCal && t.origin.item.isNone

/-- What CAL_N commands: the point nearest t, every channel, every enabled port. -/
def State.commandByPin (s : State) : State :=
  let point := (nearest s.calib.t allPoints).getD 0
  let k := TaskKind.calibration point (s.par 0x0B00 == 1) (BitVec.allOnes 64) (BitVec.allOnes 2)
  { s with tasks := s.tasks ++ [newTask k ⟨none, .a⟩ s.clock.sf] }

/-- CAL_N_FALLING. -/
def execCalNFalling (s : State) : Host.Outcome State Fault Refusal :=
  let s1 := { s with pins := { s.pins with calN := false } }
  if s.pins.calN && s.watchesCal then
    let s2 := s1.modCalib fun k => { k with armed := false, highSince := none }
    if s.calib.armed && !s.pinTask then .next s2.commandByPin else .next s2
  else .next s1

/-- CAL_N_RISING. -/
def execCalNRising (s : State) : Host.Outcome State Fault Refusal :=
  let s1 := { s with pins := { s.pins with calN := true } }
  if !s.pins.calN && s.watchesCal then .next (s1.modCalib fun k => { k with highSince := some s.clock.symbols })
  else .next s1

/-- CAL_N_ARMED. -/
def execCalNArmed (s : State) : Host.Outcome State Fault Refusal :=
  match s.calib.highSince with
  | some t =>
    if s.runs && s.pins.calN && s.passedFrom t 814 then .next (s.modCalib fun k => { k with armed := true, highSince := none })
    else .next s
  | none => .next s

/-! ### The calibration record: the summary (Table 19.6) -/

/-- The port that gets a calibration's records (R459). -/
def State.calPort (s : State) (o : Origin) : Port :=
  match o.item with
  | some _ => o.port
  | none => if s.ringsA.anchor.isSome then .a else .b

/-- The lanes a port mask asks for: those in use on enabled ports; bit 16p + n. -/
def State.laneMask (s : State) (ports : BitVec 2) : Nat :=
  (if ports.getLsbD 0 && s.enabled .a then 2 ^ s.lanes .a - 1 else 0) +
  2 ^ 16 * (if ports.getLsbD 1 && s.enabled .b then 2 ^ s.lanes .b - 1 else 0)

/-- What a summary record says beside its task. -/
structure Summary where
  outcome : Nat
  heat : Int
  seq : Nat
  store : Nat
  duration : Nat
  unmeasured : Nat
  payload : Bytes
  deriving DecidableEq, Repr

/-- Channels measured whose block flags an exhausted coppice. -/
def exhaustedChans (payload : Bytes) : Nat :=
  ofBits ((List.range 64).map fun c => (field payload 4 8).testBit c && decide (4 ≤ field (chanBlock payload c) 1 1))

/-- Lanes measured whose block flags an exhausted coppice. -/
def exhaustedLanes (payload : Bytes) : Nat :=
  ofBits ((List.range 32).map fun i => (field payload 12 4).testBit i && decide (2 ≤ field (laneBlock payload i) 1 1))

/-- A summary record's bytes after its header. -/
def summaryBody (t : Task) (x : Summary) : Bytes :=
  let k := match t.kind with | .calibration p _ c _ => (p, c) | .sounding _ _ => (0, 0)
  let adopted := x.outcome == 0
  le 1 1 ++ le 1 (if t.origin.item.isSome then 1 else 2) ++ le 1 k.1 ++ le 1 x.outcome ++ leInt 2 t.heat ++
  leInt 2 x.heat ++ le 4 (match t.origin.item with | some (_, _, _, tag) => tag.toNat | none => 0) ++ le 4 x.seq ++
  le 1 x.store ++ le 1 0 ++ le 2 (if adopted then 179 else 0) ++ le 4 x.duration ++ le 8 k.2.toNat ++
  le 8 x.unmeasured ++ le 8 (exhaustedChans x.payload) ++ le 4 (field x.payload 12 4) ++
  le 4 (exhaustedLanes x.payload) ++ le 4 (if adopted then crc32c x.payload else 0) ++ zeros 60

def State.summary (s : State) (t : Task) (x : Summary) : State :=
  s.record (s.calPort t.origin) 8 (summaryBody t x)

/-- The store flag of a calibration. -/
def Task.stores (t : Task) : Bool :=
  match t.kind with | .calibration _ f _ _ => f | .sounding .. => false

/-- A calibration ends without adopting (Table 19.7): its record, its item's result 0x06 with the outcome as status. -/
def State.failCalibration (s : State) (t : Task) (outcome : Nat) (heat : Int) (duration unmeasured : Nat) : State :=
  let s1 := s.summary t ⟨outcome, heat, 0, bit t.stores, duration, unmeasured, []⟩
  ({ s1 with tasks := s1.tasks.filter fun x => !(x == t) }).endTask t 6 outcome

/-- A calibration that has started. -/
def State.calibrating (s : State) : Option Task :=
  s.tasks.find? fun t => t.isCal && t.started.isSome

/-- A calibration in its measure phase is abandoned with an outcome (R456). -/
def State.abandonCalibration (s : State) (outcome : Nat) : State :=
  match s.calibrating, s.calib.adopted with
  | some t, none =>
    s.failCalibration t outcome 0 (match t.started with | some x => s.since x | none => 0) 0
  | _, _ => s

/-! ### Sounding records (Tables 11.2, 11.5) -/

/-- A reflection at its distance in steps of 5 cm. -/
structure Located where
  distance : Nat
  positive : Bool
  level : Int
  deriving DecidableEq, Repr

/-- The distance of a return at a velocity factor in 0.001: v × 299,792,458 m/s × τ / 2 (R247). -/
def Reflection.locate (v : Nat) (r : Reflection) : Located :=
  ⟨(roundDiv ((v * 299792458 * r.delay : Nat) : Int) (10 ^ 14)).toNat, r.positive, r.level⟩

/-- The corrected amplitude of R248 in units of 0.001 dB. -/
def corrected (alpha : Nat) (r : Located) : Int :=
  100 * r.level + r.distance * alpha

/-- Does the device report a reflection (R247, R248)? -/
def reported (alpha : Nat) (noise : Int) (r : Located) : Bool :=
  decide (10 ≤ r.distance) && decide (r.distance ≤ 2000) && decide (-40000 ≤ corrected alpha r) &&
  decide (noise + 100 ≤ r.level)

/-- Put a reflection before the first one that is less by a measure. -/
def insertBy (f : Located → Int) (r : Located) : List Located → List Located
  | [] => [r]
  | x :: t => if f x < f r then r :: x :: t else x :: insertBy f r t

/-- The eight with the largest corrected amplitude, in ascending order of distance. -/
def chosen (alpha : Nat) (noise : Int) (l : List Located) : List Located :=
  let best := ((l.filter (reported alpha noise)).foldr (insertBy (corrected alpha)) []).take 8
  best.foldr (insertBy fun r => -(r.distance : Int)) []

/-- Open 1, short 2, mismatch 3. -/
def classOf (alpha : Nat) (r : Located) : Nat :=
  if -3000 ≤ corrected alpha r then (if r.positive then 1 else 2) else 3

/-- An entry of Table 11.5. DESIGN CHOICE: the corrected amplitude is rounded to the nearest 0.1 dB, half away from zero; see
assumption 96. -/
def reflectionBytes (alpha : Nat) (r : Located) : Bytes :=
  le 2 r.distance ++ leInt 2 r.level ++ leInt 2 (roundDiv (corrected alpha r) 100) ++ le 1 (classOf alpha r) ++ le 1 0

/-- Do the reported reflections of two halves differ by more than 10 cm or 3 dB (R250)? -/
def halvesDiffer : List Located → List Located → Bool
  | [], [] => false
  | a :: s, b :: t =>
    decide (2 < ((a.distance : Int) - b.distance).natAbs) || decide (30 < (a.level - b.level).natAbs) || halvesDiffer s t
  | _, _ => true

/-- Is a measurement changed (R250)? -/
def measuredChange (m : SoundingMeasured) (v alpha : Nat) : Bool :=
  let half := fun (l : List Reflection) => chosen alpha m.noiseLevel (l.map (Reflection.locate v))
  decide (-300 < m.difference) || m.call || halvesDiffer (half m.first) (half m.last)

/-- The insertion loss of each data carrier in 0.5 dB (R249): half the farthest return's magnitude, or the partner's −15.0 dBm less the
level received. -/
def lossBytes (mode : Nat) (levels : List Int) : Bytes :=
  levels.map fun x => BitVec.ofNat 8 (min 254 ((if mode = 2 then roundDiv (-150 - x) 5 else roundDiv (x.natAbs : Int) 10).toNat))

/-- The source of the insertion loss (R249). -/
def lossSource (mode alpha : Nat) (l : List Located) (m : SoundingMeasured) : Nat :=
  if m.levels.isEmpty then 0
  else if mode = 2 then 2
  else match l.getLast? with | some r => if classOf alpha r = 3 then 0 else 1 | none => 0

/-- A sounding record's bytes after its header. -/
def State.soundingBody (s : State) (c : ChanId) (mode result : Nat) (state : LinkState) (m : SoundingMeasured) : Bytes :=
  let alpha := s.elem 0x0C01 c
  let l := chosen alpha m.noiseLevel (m.found.map (Reflection.locate (s.elem 0x0C00 c)))
  let shown := if result = 1 then [] else l
  let source := lossSource mode alpha l m
  le 1 c.val ++ le 1 mode ++ le 1 result ++ le 1 state.code ++ le 2 (s.elem 0x0C00 c) ++ le 1 shown.length ++
  le 1 source ++ le 2 m.bursts ++ le 2 alpha ++ zeros 4 ++
  fit 64 (shown.flatMap (reflectionBytes alpha)) ++
  (if source = 0 then List.replicate 59 0xFF else (lossBytes mode m.levels ++ List.replicate 59 0xFF).take 59) ++ zeros 13

/-- Nothing measured. -/
def noSounding : SoundingMeasured := ⟨[], [], [], 0, -32768, false, [], 0⟩

/-- A sounding or noise-floor record waits in a port's buffer. -/
def State.keepsSounding (s : State) (p : Port) : Bool :=
  ((s.rings p).buffer ++ (s.rings p).outside).any fun r => r.kind == 4 || r.kind == 5

/-- The port that gets a sounding's record. -/
def State.soundPort (s : State) (t : Task) : Port :=
  match t.kind with | .sounding c _ => s.portOf c | .calibration .. => t.origin.port

/-- A sounding that has ended completes its item once its record is written (R252). -/
def State.settleTask (s : State) (t : Task) : State :=
  if s.keepsSounding (s.soundPort t) then s
  else ({ s with tasks := s.tasks.filter fun x => !(x == t) }).endTask t 0 0

def settleEach : List Task → State → State
  | [], s => s
  | t :: r, s => settleEach r (s.settleTask t)

/-- Soundings that have ended complete their items. -/
def State.settleSoundings (s : State) : State :=
  settleEach (s.tasks.filter fun t => t.ended) s

/-- End a sounding or noise-floor task with a record, and after it the completion of its item (R252). -/
def State.endSounding (s : State) (t : Task) (record : State → State) : State :=
  let t1 := { t with ended := true }
  let s1 := record { s with tasks := s.tasks.map fun x => if x = t then t1 else x }
  (s1.writeBuffered (s1.soundPort t)).settleTask t1

/-- End a task that measured nothing, with a result. -/
def State.endUnmeasured (s : State) (t : Task) (result : Nat) : State :=
  match t.kind with
  | .sounding c 3 =>
    s.endSounding t fun u => u.record (u.portOf c) 4 (noiseBody c 2 result 0 0 (List.replicate 59 0xFF))
  | .sounding c mode =>
    s.endSounding t fun u => u.record (u.portOf c) 5 (u.soundingBody c mode result t.state noSounding)
  | .calibration .. => s

/-! ### Starting tasks (R130, R245, R452) -/

/-- Replace a task. -/
def State.setTask (s : State) (old new : Task) : State :=
  { s with tasks := s.tasks.map fun x => if x = old then new else x }

/-- May a mode of Table 11.3 run in a state? -/
def modeAllowed (mode : Nat) : LinkState → Bool
  | .off | .quarantine | .sleep => mode == 1 || mode == 3
  | .quiet => mode == 2
  | _ => false

/-- The temperature lies within 4.0 °C of a point. -/
def State.nearPoint (s : State) (point : Nat) : Bool :=
  decide ((s.calib.t - pointTemp point).natAbs ≤ 40)

/-- Start a task: its first check, and the measurement. -/
def State.startTask (s : State) (t : Task) : State :=
  match t.kind with
  | .calibration point _ _ _ =>
    let t1 := { t with started := some s.clock.sf, heat := s.calib.t }
    let s1 := (s.setTask t t1).modCalib fun k => { k with spareSeen := 0, cornerSeen := 0 }
    if s.nearPoint point then s1 else s1.failCalibration t1 1 0 0 0
  | .sounding c mode =>
    let t1 := { t with started := some s.clock.sf, state := (s.chan c).link }
    let s1 := s.setTask t t1
    if !modeAllowed mode (s.chan c).link then s1.endUnmeasured t1 2
    else s1.modChan c fun x => if mode = 3 then { x with air := { x.air with noise := NoiseSum.reset } } else x

/-- The first task of a class, when none of it runs and it was accepted before this boundary. -/
def State.nextTask (s : State) (cal : Bool) : Option Task :=
  if s.tasks.any fun t => t.isCal == cal && t.started.isSome then none
  else match s.tasks.find? fun t => t.isCal == cal with
    | some t => if s.passedSf t.accepted 1 then some t else none
    | none => none

/-- Tasks start but in a dormant entry, unless its item's completion waits for an earlier item of its queue (R324). -/
def State.startsTasks (s : State) : Bool :=
  match s.entry with
  | none => true
  | some e => e.written && (s.findItem e.queue.1 e.queue.2 e.item).isSome

/-- A scrub pass begins unless one is in progress (R130). -/
def State.beginScrub (s : State) : State :=
  if s.sched.scrub.isNone then { s with sched := { s.sched with scrub := some 0 } } else s

/-- BACKGROUND_TASK_START: calibration and diagnostics take their next task, telemetry writes the wake records that are
held, and a scrub pass begins unless one is in progress. -/
def execBackgroundTaskStart (k : BgClass) (s : State) : Host.Outcome State Fault Refusal :=
  if !s.atBoundary || !s.startsTasks then .next s
  else
    match k with
    | .calibration => .next ((s.nextTask true).elim s s.startTask)
    | .diagnostics => .next ((s.nextTask false).elim s s.startTask)
    | .telemetry => .next ((s.wakeRecords .a).wakeRecords .b)
    | .scrub => .next s.beginScrub

/-! ### The end of soundings (R243, R246, R250 to R252) -/

/-- The running sounding of some modes, with its channel and mode. -/
def State.sounding (s : State) (modes : List Nat) : Option (Task × ChanId × Nat) :=
  match s.tasks.find? fun t => !t.isCal && t.started.isSome && !t.ended with
  | some t =>
    match t.kind with
    | .sounding c mode => if modes.contains mode then some (t, c, mode) else none
    | _ => none
  | none => none

/-- Superframes that a complete measurement takes at least: 64 bursts after a superframe of waiting, 64 quiet periods,
64 superframes. -/
def measureTime (mode : Nat) : Nat :=
  if mode = 1 then 9 else if mode = 2 then 63 * 81 else 64

/-- A measurement may end: it has run its time, or is abandoned. -/
def State.mayEnd (s : State) (t : Task) (mode : Nat) : Bool :=
  s.runs && s.mayRun 85 2 && (t.broken != 0 ||
    match t.started with | some x => s.passedSf x (measureTime mode) | none => false)

/-- A sounding ends with a result; one that is abandoned has averaged fewer than 64 bursts. -/
def State.soundingEnds (s : State) (t : Task) (c : ChanId) (mode result : Nat) (m : SoundingMeasured) : State :=
  let m1 := { m with bursts := if result ≤ 1 then 64 else min m.bursts 63 }
  s.endSounding t fun u => u.record (u.portOf c) 5 (u.soundingBody c mode result t.state m1)

/-- A commanded noise-floor measurement ends with a result: with what came symbol by symbol, else with what the command brings. -/
def State.noiseEnds (s : State) (t : Task) (c : ChanId) (result symbols : Nat) (noise : Bytes) : State :=
  let m := (s.chan c).air.noise
  let n := if m.symbols = 0 then symbols else m.symbols
  let b := if m.symbols = 0 then noise else m.bytes (s.chan c).rx.gain
  s.endSounding t fun u => u.record (u.portOf c) 4 (noiseBody c 2 result 0 n b)

/-- SOUNDING_END: complete or changed, or abandoned. -/
def execSoundingEnd (m : SoundingMeasured) (s : State) : Host.Outcome State Fault Refusal :=
  match s.sounding [1, 2] with
  | some (t, c, mode) =>
    if s.mayEnd t mode then
      .next (s.soundingEnds t c mode (if t.broken != 0 then t.broken else bit (measuredChange m (s.elem 0x0C00 c) (s.elem 0x0C01 c))) m)
    else .next s
  | none => .next s

/-- NOISE_FLOOR_MEASUREMENT_END: call energy that appeared or disappeared makes it changed (R250). -/
def execNoiseFloorMeasurementEnd (symbols : Nat) (noise : Bytes) (call : Bool) (s : State) :
    Host.Outcome State Fault Refusal :=
  match s.sounding [3] with
  | some (t, c, mode) =>
    if s.mayEnd t mode then .next (s.noiseEnds t c (if t.broken != 0 then t.broken else bit call) symbols noise)
    else .next s
  | none => .next s

end Sys2Proof.Machine
end

