-- ==== Sys2Proof/Machine/Calibration.lean ====
section
/-! DEFINITION. A calibration from the end of its measure phase (R454 to R459): the adopted payload, the store in flash (R153 to
R155), and the records posted to the host. -/

namespace Sys2Proof.Machine

/-! ### Selecting stems (R444, R445) -/

/-- The place of stem i in ascending order of a key, the lower index first among equals. -/
def rankOf (keys : List Int) (i : Nat) : Nat :=
  let k := nth 0 keys i
  (keys.zip (List.range keys.length)).countP fun e => decide (e.1 < k) || (e.1 == k && decide (e.2 < i))

/-- The n stems of the smallest keys, as a mask. -/
def selected (n : Nat) (keys : List Int) : Nat :=
  ofBits ((List.range keys.length).map fun i => decide (rankOf keys i < n))

/-- The stem of the smallest key. -/
def bestStem (keys : List Int) : Nat :=
  ((List.range keys.length).find? fun i => rankOf keys i == 0).getD 0

def absKeys (l : List Int) : List Int :=
  l.map fun v => (v.natAbs : Int)

/-- 288 times the deviation of each cell from the mean. -/
def deviations (cells : List Int) : List Int :=
  cells.map fun x => 288 * x - cells.sum

/-- Fewer than n cells lie within 3.0 % of the mean. -/
def dacExhausted (cells : List Int) : Bool :=
  decide (((deviations cells).countP fun d => decide (100 * d.natAbs ≤ 3 * cells.sum.natAbs)) < 256)

/-- Fewer than 16 sub-converters reach 52 dB with trims in range. -/
def adcExhausted (x : StemsMeasured) : Bool :=
  decide (((x.ratios.zip x.inRange).countP fun e => decide (5200 ≤ e.1) && e.2) < 16)

/-- A comparator coppice has fewer than n stems within 20 mV. -/
def fewGood (n : Nat) (offsets : List Int) : Bool :=
  decide ((offsets.countP fun v => decide (v.natAbs ≤ 200)) < n)

/-- A channel block with its selections and exhausted flags. -/
def selectChan (b : Bytes) (x : StemsMeasured) : Bytes :=
  let flags := 4 * bit (dacExhausted x.cells) + 8 * bit (adcExhausted x) + 16 * bit (x.offsets.any (fewGood 1))
  le 1 (field b 0 1) ++ le 1 (field b 1 1 % 4 + flags) ++ slice b 2 2 ++ le 36 (selected 256 (absKeys (deviations x.cells))) ++
  slice b 0x28 12 ++ le 3 (selected 16 (x.ratios.map fun v => -v)) ++ slice b 0x37 1 ++
  ((List.range 18).flatMap fun j =>
    slice b (0x38 + 8 * j) 6 ++ le 1 (bestStem (absKeys (nth [] x.offsets j))) ++ slice b (0x3F + 8 * j) 1) ++
  slice b 0xC8 400

/-- The four stems of a host lane with the smallest absolute offsets, in ascending order of offset (DEDUCED: of the signed value; see
assumption 100). -/
def laneStems (offsets : List Int) : List Nat :=
  let chosen := (List.range offsets.length).filter fun i => decide (rankOf (absKeys offsets) i < 4)
  let keys := chosen.map fun i => nth 0 offsets i
  (List.range 4).map fun k => nth 0 chosen (((List.range chosen.length).find? fun i => rankOf keys i == k).getD 0)

/-- A lane block with its selection and exhausted flag, from the offsets it holds. -/
def selectLane (b : Bytes) : Bytes :=
  let offsets := ints b 4 8
  let v := laneStems offsets
  le 1 (field b 0 1) ++ le 1 (field b 1 1 % 2 + 2 * bit (fewGood 4 offsets)) ++
  le 2 (nth 0 v 0 + 8 * nth 0 v 1 + 64 * nth 0 v 2 + 512 * nth 0 v 3) ++ slice b 4 36

def noStems : StemsMeasured := ⟨[], [], [], []⟩

/-! ### The adopted payload (R457) -/

/-- The block of a channel that has never been measured. -/
def nominalChan (c : Nat) : Bytes :=
  le 1 c ++ zeros 3 ++ List.replicate 32 0xFF ++ zeros 16 ++ [0xFF, 0xFF] ++ zeros 546

/-- The block of a lane that has never been measured. -/
def nominalLane (i : Nat) : Bytes :=
  le 1 i ++ zeros 1 ++ le 2 0x0688 ++ zeros 36

/-- The channel block adopted for channel c: measured values where there are any, else the block before, with the flags
of what was measured in this calibration. -/
def mixChan (c : Nat) (inMask noSpare corners : Bool) (old new : Bytes) : Bytes :=
  if !inMask then le 1 c ++ le 1 (field old 1 1 &&& 0x1C) ++ slice old 2 598
  else
    let spare := if noSpare then new else old
    let corner := if noSpare || corners then new else old
    le 1 c ++ le 1 ((field new 1 1 &&& 0x1C) + 1 + 2 * bit noSpare) ++ zeros 2 ++ slice new 4 40 ++ slice spare 0x2C 2 ++
    slice corner 0x2E 6 ++ slice new 0x34 148 ++ slice spare 0xC8 384 ++ zeros 16

def mixLane (i : Nat) (measured : Bool) (old new : Bytes) : Bytes :=
  if measured then le 1 i ++ le 1 ((field new 1 1 &&& 2) + 1) ++ slice new 2 38
  else le 1 i ++ le 1 (field old 1 1 &&& 2) ++ slice old 2 38

/-- The payload of a calibration, on top of the point's set before it. -/
def mixPayload (point origin : Nat) (channels : BitVec 64) (lanes : Nat) (old : Option Bytes) (m : CalMeasured) :
    Bytes :=
  let oldWake := fun c => match old with | some b => byteAt b (0x28 + c) | none => 0
  let oldChan := fun c => match old with | some b => chanBlock b c | none => nominalChan c
  let oldLane := fun i => match old with | some b => laneBlock b i | none => nominalLane i
  let spare := fun c => channels.getLsbD c && m.noSpare.getLsbD c
  le 1 1 ++ le 1 point ++ le 2 Config.stepping ++ le 8 channels.toNat ++ le 4 lanes ++ le 1 origin ++ zeros 15 ++
  slice m.payload 0x20 4 ++ zeros 4 ++
  ((List.range 64).map fun c => if spare c then byteAt m.payload (0x28 + c) else oldWake c) ++ zeros 216 ++
  ((List.range 32).flatMap fun i => mixLane i (lanes.testBit i) (oldLane i) (selectLane (laneBlock m.payload i))) ++
  ((List.range 64).flatMap fun c =>
    mixChan c (channels.getLsbD c) (spare c) (m.corners.getLsbD c) (oldChan c)
      (selectChan (chanBlock m.payload c) (Tab.get noStems m.stems c)))

/-! ### The post phase (R459) -/

def State.modAdopted (s : State) (f : Adopted → Adopted) : State :=
  s.modCalib fun k => { k with adopted := k.adopted.map f }

/-- The calibration has ended: its item completes with result 0x00. -/
def State.finishCalibration (s : State) (a : Adopted) : State :=
  ({ s with tasks := s.tasks.filter fun x => !(x == a.task) }.modCalib fun k => { k with adopted := none }).endTask
    a.task 0 0

/-- The post phase begins with the summary record; without an anchor at its port it ends at once. -/
def State.beginPost (s : State) : State :=
  match s.calib.adopted with
  | none => s
  | some a =>
    let s1 := s.summary a.task ⟨0, a.heat, a.seq, a.stored, a.duration, a.unmeasured.toNat, a.payload⟩
    if (s.rings (s.calPort a.task.origin)).anchor.isSome then s1.modAdopted fun x => { x with posted := some 0 }
    else s1.finishCalibration a

/-- A coefficient part's bytes after its header (Table 19.8). -/
def partBody (point part : Nat) (payload : Bytes) : Bytes :=
  le 1 2 ++ le 1 point ++ le 2 part ++ le 2 (if part = 178 then 128 else 224) ++ zeros 2 ++
  fit 224 (slice payload (224 * part) 224) ++ zeros 16

def Task.point (t : Task) : Nat :=
  match t.kind with | .calibration p _ _ _ => p | .sounding .. => 0

/-- One slot of the post phase: a part when the record buffer has room for it; the end once the last one is written. -/
def State.postTick (s : State) : State :=
  match s.calib.adopted with
  | none => s
  | some a =>
    match a.posted with
    | none => s
    | some n =>
      let p := s.calPort a.task.origin
      let r := s.rings p
      if 179 ≤ n then
        if r.buffer.any fun x => x.kind == 8 then s else s.finishCalibration a
      else if r.outside.isEmpty && bufferUnits r.buffer + 8 ≤ 64 then
        (s.record p 8 (partBody a.task.point n a.payload)).modAdopted fun x => { x with posted := some (n + 1) }
      else s

/-! ### The flash (R149, R153, R155) -/

/-- Driving a chip select. -/
def State.select (s : State) (d : FlashDev) (on : Bool) : State :=
  match d with
  | .primary => { s with pins := { s.pins with flSelA := on } }
  | .mirror => { s with pins := { s.pins with flSelB := on } }

/-- 0 primary, 1 mirror. -/
def flashNum : FlashDev → Nat
  | .primary => 0
  | .mirror => 1

/-- The first address of a copy (Table 7.10). -/
def copyAddr (point copy : Nat) : Nat :=
  0x01000000 + (2 * point + copy) * 0x10000

def Store.copyAddr (x : Store) : Nat :=
  Machine.copyAddr x.point (match x.dev with | .primary => x.copyA | .mirror => x.copyB)

/-- The last-start entry that a store writes. -/
def State.lastEntry (s : State) (x : Store) : Bytes :=
  let b := fit 128 s.start.record ++ le 4 x.entry ++ le 4 x.seq ++ le 1 x.point ++ zeros 115
  b ++ le 4 (crc32c b)

/-- Issue the flash command of a store's step. -/
def State.storeCommand (s : State) (x : Store) : State :=
  let wren := s.say (.flash x.dev 0x06 0 [])
  match x.step with
  | .erase k => wren.say (.flash x.dev 0x21 (x.copyAddr + 4096 * k) [])
  | .program k => wren.say (.flash x.dev 0x12 (x.copyAddr + 256 * k) (slice x.bytes (256 * k) 256))
  | .readback => (s.select x.dev true).say (.flash x.dev 0x6C x.copyAddr [])
  | .lastRead => (s.select x.dev true).say (.flash x.dev 0x6C 0x010A0000 [])
  | .lastErase k _ => wren.say (.flash x.dev 0x21 (0x010A0000 + 4096 * k) [])
  | .lastProgram => wren.say (.flash x.dev 0x12 (0x010A0000 + 256 * x.position) (s.lastEntry x))

/-- Go on to a step. -/
def State.storeStep (s : State) (x : Store) : State :=
  (s.modCalib fun k => { k with store := some x }).storeCommand x

def State.flashAbsent (s : State) : FlashDev → Bool
  | .primary => s.calib.absent.1
  | .mirror => s.calib.absent.2

/-- The store has ended: FL_WP_N low, its outcome into the summary, and the post phase. -/
def State.endStore (s : State) (x : Store) : State :=
  let s1 := { s with pins := { s.pins with flWp := false } }
  ((s1.modCalib fun k => { k with store := none }).modAdopted fun a => { a with
    seq := if x.okA || x.okB then x.seq else 0
    stored := a.stored + 2 * bit x.okA + 4 * bit x.okB }).beginPost

/-- Step 7 on the mirror, where its part has succeeded. -/
def State.lastMirror (s : State) (x : Store) : State :=
  if x.okB then s.storeStep { x with dev := .mirror, step := .lastRead } else s.endStore x

/-- Step 7 of R153: the last-start entries. -/
def State.lastPhase (s : State) (x : Store) : State :=
  if x.okA then s.storeStep { x with dev := .primary, step := .lastRead } else s.lastMirror x

/-- Step 6: the mirror, unless it is not fitted. -/
def State.mirrorPhase (s : State) (x : Store) : State :=
  if s.flashAbsent .mirror then s.lastPhase x else s.storeStep { x with dev := .mirror, step := .erase 0 }

/-- A device's part of the copy has ended. -/
def State.copyEnded (s : State) (x : Store) : State :=
  match x.dev with
  | .primary => s.mirrorPhase x
  | .mirror => s.lastPhase x

/-- A device's last-start entry has been dealt with. -/
def State.lastEnded (s : State) (x : Store) : State :=
  match x.dev with
  | .primary => s.lastMirror x
  | .mirror => s.endStore x

/-- A device's part of the store fails: kind 29 with its cause (Table 18.6, class F), then the other device. DESIGN CHOICE: a copy whose
read-back failed does not count for the next store, though an injected failure leaves its bytes intact; see assumption 99. -/
def State.storeFailed (s : State) (x : Store) (cause : Nat) : State :=
  let n := flashNum x.dev
  let x1 := match x.dev with
    | .primary => { x with okA := false }
    | .mirror => { x with okB := false }
  let s1 := ((s.select x.dev false).modCalib fun k => { k with store := some x1 }).occur (0x399 + n) (some .device)
    (le 1 n ++ le 1 cause ++ le 1 x.point)
  match x.step with
  | .erase _ | .program _ | .readback => s1.copyEnded x1
  | .lastRead | .lastErase _ _ | .lastProgram => s1.lastEnded x1

/-- The highest valid sequence of a point in either device. -/
def State.highestSeq (s : State) (point : Nat) : Nat :=
  max (Tab.get (0, 1) s.calib.seqs point).1 (Tab.get (0, 1) s.calib.seqs (5 + point)).1

/-- The store phase (R153): refused when the sequence is exhausted. -/
def State.beginStore (s : State) (point : Nat) (heat : Int) (payload : Bytes) : State :=
  let seq := s.highestSeq point + 1
  if 0xFFFFFFFF ≤ seq then (s.modAdopted fun a => { a with stored := a.stored + 8 }).beginPost
  else
    let x : Store :=
      { dev := .primary, point := point, copyA := 1 - (Tab.get (0, 1) s.calib.seqs point).2,
        copyB := 1 - (Tab.get (0, 1) s.calib.seqs (5 + point)).2, seq := seq, bytes := copyBytes point heat seq payload,
        step := .erase 0, okA := false, okB := false, entry := 0, position := 0 }
    let s1 := { s with pins := { s.pins with flWp := true } }
    if s.flashAbsent .primary then s1.mirrorPhase x else s1.storeStep x

/-! ### CALIBRATION_WAIT_LIMIT and MEASURE_PHASE_END -/

/-- CALIBRATION_WAIT_LIMIT. -/
def execCalibrationWaitLimit (s : State) : Host.Outcome State Fault Refusal :=
  match s.calibrating with
  | some t =>
    match t.started with
    | some x =>
      if s.runs && s.calib.adopted.isNone && s.passedSf x (s.par 0x0B01) then
        .next (s.setTask t { t with waited := true })
      else .next s
    | none => .next s
  | none => .next s

/-- Count a channel's exhausted coppices, each once (R445). -/
def State.countExhausted (s : State) (payload : Bytes) (c : ChanId) : State :=
  if (field payload 4 8).testBit c.val then
    State.occurN (onesIn 3 (field (chanBlock payload c.val) 1 1 / 4)) (chanSource 12 c) (some (.channel c))
      (s.addrLink c 0) s
  else s

/-- Adopt a payload and go on to the store phase, or to the post phase. -/
def State.adopt (s : State) (t : Task) (point : Nat) (payload : Bytes) (unmeasured : BitVec 64) (duration : Nat) :
    State :=
  let a : Adopted :=
    { task := t, heat := s.calib.t, payload := payload, unmeasured := unmeasured, duration := duration,
      seq := 0, stored := bit t.stores, posted := none }
  let s1 := eachChan (fun u c => u.countExhausted payload c) allChans
    ((s.adoptSet point payload).modCalib fun k => { k with adopted := some a })
  if t.stores then s1.beginStore point s.calib.t payload else s1.beginPost

/-- Channels whose state lets an element be measured (R454). -/
def State.allows (s : State) (f : LinkState → Bool) : BitVec 64 :=
  BitVec.ofNat 64 (ofBits (allChans.map fun c => f (s.chan c).link))

def LinkState.spareAllowed : LinkState → Bool
  | .off | .quarantine => true
  | _ => false

def LinkState.cornersAllowed : LinkState → Bool
  | .off | .quarantine | .quiet => true
  | _ => false

/-- One slot of a measure phase: which channels have been in a state that allows their no-spare elements to be measured. -/
def State.calTick (s : State) : State :=
  if s.calibrating.isSome && s.calib.adopted.isNone then
    s.modCalib fun k => { k with
      spareSeen := k.spareSeen ||| s.allows LinkState.spareAllowed
      cornerSeen := k.cornerSeen ||| s.allows LinkState.cornersAllowed }
  else s

/-- The timing capacitor in 0.001 pF: 20.000 pF times the ratio of the measured count to the factory's (R463). DESIGN CHOICE: rounded to
nearest, half up; see assumption 112. -/
def State.timingCap (s : State) (count : Nat) : Nat :=
  let f := s.tap.factory.toNat
  if f = 0 then Config.blankCap count else (40000 * count + f) / (2 * f)

/-- What the measure phase could measure of what the command says it measured, with the timing capacitor's value in its place. -/
def State.allowedOf (s : State) (m : CalMeasured) : CalMeasured :=
  { m with
    payload := fit 0x20 m.payload ++ le 2 (s.timingCap m.cap) ++ m.payload.drop 0x22
    noSpare := m.noSpare &&& (s.calib.spareSeen ||| s.allows LinkState.spareAllowed)
    corners := m.corners &&& (s.calib.cornerSeen ||| s.allows LinkState.cornersAllowed) }

/-- MEASURE_PHASE_END: once the stems are done and every no-spare element is measured or has passed the wait limit. -/
def execMeasurePhaseEnd (m : CalMeasured) (s : State) : Host.Outcome State Fault Refusal :=
  match s.calibrating with
  | some t =>
    match t.kind, t.started, s.calib.adopted with
    | .calibration point _ channels ports, some x, none =>
      let m := s.allowedOf m
      let unmeasured := channels &&& ~~~m.noSpare
      let old := (s.calib.sets.find? fun e => e.1 == point).map (·.2)
      let payload := mixPayload point (if t.origin.item.isSome then 1 else 2) channels (s.laneMask ports) old m
      if s.runs && s.mayRun 84 1 && (unmeasured == 0 || t.waited) && s.payloadOk point payload then
        if s.nearPoint point then .next (s.adopt t point payload unmeasured (s.since x))
        else .next (s.failCalibration t 2 s.calib.t (s.since x) unmeasured.toNat)
      else .next s
    | _, _, _ => .next s
  | none => .next s

/-! ### FLASH_STATUS_POLL, FLASH_BUSY_LIMIT, STORE_READBACK_DONE -/

/-- A valid last-start entry's sequence (R155). -/
def entrySeq (e : Bytes) : Option Nat :=
  let n := field e 0x80 4
  if e.length == 256 && crc32c (slice e 0 0xFC) == field e 0xFC 4 && decide (1 ≤ n) && decide (n ≤ 0xFFFFFFFE) then some n
  else none

/-- The valid entry with the highest sequence: sequence and position. DESIGN CHOICE: the lower position among equals; see assumption
98. -/
def latestEntry (area : Bytes) : Nat → Option (Nat × Nat)
  | 0 => none
  | n + 1 =>
    match entrySeq (slice area (256 * n) 256), latestEntry area n with
    | some q, some r => if r.1 < q then some (q, n) else some r
    | some q, none => some (q, n)
    | none, r => r

/-- Program a position, after the erase of its sector where that is needed. -/
def State.placeAt (s : State) (x : Store) (area : Bytes) : State :=
  if (slice area (256 * x.position) 256).all (· == 0xFF) then s.storeStep { x with step := .lastProgram }
  else s.storeStep { x with step := .lastErase (x.position / 16) false }

/-- Place the next entry in the area, erasing first where the bytes are not all 0xFF (R155). -/
def State.placeEntry (s : State) (x : Store) (area : Bytes) : State :=
  match latestEntry area 256 with
  | some (seq, pos) =>
    if seq = 0xFFFFFFFE then s.storeStep { x with entry := 1, position := 0, step := .lastErase 0 true }
    else s.placeAt { x with entry := seq + 1, position := (pos + 1) % 256 } area
  | none => s.placeAt { x with entry := 1, position := 0 } area

/-- The operation of a store's step has finished. -/
def State.storeAdvance (s : State) (x : Store) : State :=
  match x.step with
  | .erase k => s.storeStep { x with step := if k < 15 then .erase (k + 1) else .program 1 }
  | .program k =>
    s.storeStep { x with step :=
      if k = 0 then .readback else if k + 1 < ceilDiv x.bytes.length 256 then .program (k + 1) else .program 0 }
  | .lastErase k all => s.storeStep { x with step := if all && decide (k < 15) then .lastErase (k + 1) true else .lastProgram }
  | .lastProgram => s.lastEnded x
  | .readback | .lastRead => s

/-- FLASH_STATUS_POLL: a finished erase or program passes to the next operation; while the last-start area is being
read, its bytes come with the poll. -/
def execFlashStatusPoll (busy : Bool) (area : Bytes) (s : State) : Host.Outcome State Fault Refusal :=
  match s.calib.store with
  | none => .next s
  | some x =>
    if !s.runs then .next s
    else
      match x.step with
      | .readback => .next s
      | .lastRead => .next ((s.select x.dev false).placeEntry x area)
      | _ =>
        let s1 := s.say (.flash x.dev 0x05 0 [])
        if busy then .next s1 else .next (s1.storeAdvance x)

/-- FLASH_BUSY_LIMIT. -/
def execFlashBusyLimit (s : State) : Host.Outcome State Fault Refusal :=
  match s.calib.store with
  | none => .next s
  | some x =>
    if !s.runs then .next s
    else
      match x.step with
      | .erase _ | .lastErase _ _ => .next (s.storeFailed x 1)
      | .program _ | .lastProgram => .next (s.storeFailed x 2)
      | .readback | .lastRead => .next s

/-- The copy is stored: its device's sequence and chosen copy. -/
def State.copyStored (s : State) (x : Store) : State :=
  let copy := match x.dev with | .primary => x.copyA | .mirror => x.copyB
  let x1 := match x.dev with
    | .primary => { x with okA := true }
    | .mirror => { x with okB := true }
  (s.modCalib fun k => { k with
    store := some x1, seqs := Tab.set k.seqs (5 * flashNum x.dev + x.point) (x.seq, copy) }).copyEnded x1

/-- STORE_READBACK_DONE: the copy read back is checked; an armed flash-read inversion makes the check fail (R154). -/
def execStoreReadbackDone (copy : Bytes) (s : State) : Host.Outcome State Fault Refusal :=
  match s.calib.store with
  | none => .next s
  | some x =>
    if s.runs && x.step == .readback then
      let s1 := s.select x.dev false
      if (s.armedFor 6 0).isSome then .next ((s1.storeFailed x 3).injected 6 0 (0x399 + flashNum x.dev))
      else if s.copyOk x.point copy && field copy 8 4 == x.seq then .next (s1.copyStored x)
      else .next (s1.storeFailed x 3)
    else .next s

end Sys2Proof.Machine
end

