-- ==== Sys2Proof/Machine/Dormant.lean ====
section
/-! DEFINITION. Dormant entry and exit (R107, R108, R271 to R274, Tables 5.7, 5.8, 12.5). -/

namespace Sys2Proof.Machine

/-! ### Entry: background, work, records (Table 12.5, steps 3 to 5) -/

/-- A diagnostics task ends with result 0x03, one that runs with what it has measured so far. -/
def State.dropSounding (s : State) (t : Task) (m : SoundingMeasured) (symbols : Nat) (noise : Bytes) : State :=
  match t.kind, t.started with
  | .sounding _ _, none => s.endUnmeasured t 3
  | .sounding c 3, some _ => if t.ended then s else s.noiseEnds t c (if t.broken = 4 then 4 else 3) symbols noise
  | .sounding c mode, some _ => if t.ended then s else s.soundingEnds t c mode (if t.broken = 4 then 4 else 3) m
  | .calibration .., _ => s

def dropSoundings (m : SoundingMeasured) (symbols : Nat) (noise : Bytes) : List Task → State → State
  | [], s => s
  | t :: r, s => dropSoundings m symbols noise r (s.dropSounding t m symbols noise)

/-- A calibration in its post phase ends at once, its parts not yet produced left out (corner after R459). -/
def State.cutPost (s : State) : State :=
  match s.calib.adopted with
  | some a => s.finishCalibration a
  | none => s

/-- Dormant-deep discards a queue's outstanding work with a record; the enter-dormant item itself still completes. -/
def State.discardDeep (s : State) (e : Entry) (k : Nat) : State :=
  let pq := keyQueue k
  let x := s.queue pq.1 pq.2
  let keep := x.items.filter fun i => pq == e.queue && i.index == e.item
  if keep.length = x.items.length then s
  else
    let s1 := (s.discardQueue pq.1 pq.2 3 0x8000).modQueue pq.1 pq.2 fun y => { y with items := keep }
    match (s1.rings pq.1).anchor with
    | none => s1
    | some a =>
      let n := descRing (a.desc pq.2)
      s1.modRings pq.1 fun r => r.setCompletion n
        { r.completionRing n with reserved := (r.completionRing n).reserved + keep.length }

def discardAllDeep (e : Entry) : List Nat → State → State
  | [], s => s
  | k :: t, s => discardAllDeep e t (s.discardDeep e k)

/-- 1 retain, 2 deep: the device state and start kind codes. -/
def DormantKind.code : DormantKind → Nat
  | .retain => 1
  | .deep => 2

/-- The wake record of dormant entry, to each enabled port. -/
def State.enteredRecord (s : State) (k : DormantKind) (p : Port) : State :=
  if s.enabled p then s.record p 6 (s.wakeBody none 3 k.code 0 [] 0) else s

/-- Steps 3 to 5. -/
def State.enterDormant (s : State) (e : Entry) (m : SoundingMeasured) (symbols : Nat) (noise : Bytes) : State :=
  let s1 := (s.abandonCalibration 4).cutPost
  let s2 : State := dropSoundings m symbols noise (s1.tasks.filter fun t => !t.isCal) s1
  let s3 : State := match e.kind with
    | .retain => s2
    | .deep => discardAllDeep e (s2.queues.map (·.1)) s2
  let s4 := ((((s3.enteredRecord e.kind .a).enteredRecord e.kind .b).writeBuffered .a).writeBuffered .b).settleSoundings
  { s4.result e.queue.1 e.queue.2 e.item 0 0 0 with entry := some { e with written := true } }

/-- DORMANT_ENTRY_AFTER_STORE: with what a running measurement has measured so far. -/
def execDormantEntryAfterStore (m : SoundingMeasured) (symbols : Nat) (noise : Bytes) (s : State) :
    Host.Outcome State Fault Refusal :=
  match s.entry with
  | some e =>
    if s.runs && !e.written && s.calib.store.isNone then .next (s.enterDormant e m symbols noise) else .next s
  | none => .next s

/-! ### Entry: the line domain stops (step 6) -/

/-- The completion of the enter-dormant item has been written and acknowledged. -/
def State.entryAcked (s : State) (e : Entry) : Bool :=
  let l := s.link e.queue.1
  e.written && (s.findItem e.queue.1 e.queue.2 e.item).isNone && l.replay.isEmpty && l.waiting.isEmpty

/-- The schedule sees the acknowledgement. -/
def State.noteAck (s : State) : State :=
  match s.entry with
  | some e => if s.entryAcked e && e.acked.isNone then { s with entry := some { e with acked := some s.clock.symbols } } else s
  | none => s

/-- One superframe has passed since (Table 12.5). -/
def State.entryOver (s : State) (e : Entry) : Bool :=
  match e.acked with
  | some t => s.passedFrom t 1
  | none => false

/-- Lanes in electrical idle, received data ignored (R32): the link is down, and it trains afresh after a new count (R77, R309). -/
def HostLink.idle (l : HostLink) : HostLink :=
  { l with phase := .down, counted := false, trained := false }

/-- Any woken channel has not been restored yet. -/
def State.anyRestoring (s : State) : Bool :=
  allChans.any fun c => (s.chan c).wake.restoring

/-- Step 6. A channel that has left SLEEP or OFF since the acceptance is held, as at every stop of the line domain. -/
def State.lineStop (s : State) (e : Entry) : State :=
  let s1 := ((s.holdLinks).modLink .a HostLink.idle).modLink .b HostLink.idle
  { s1 with
    start := { s1.start with stage := .dormant e.kind }
    image := { s1.image with loaded := s1.image.loaded && e.kind == .retain }
    clock := { s1.clock with slot := 255, dormantEntries := s1.clock.dormantEntries + 1 }
    entry := none
    exitHeld := s1.exitHeld || s1.anyRestoring }

/-- DORMANT_LINE_STOP. -/
def execDormantLineStop (s : State) : Host.Outcome State Fault Refusal :=
  match s.entry with
  | some e => if s.runs && s.entryOver e then .next (s.lineStop e) else .next s
  | none => .next s

/-! ### Exit -/

/-- EXIT_SIGNAL: while the port's HCK runs. -/
def execExitSignal (p : Port) (s : State) : Host.Outcome State Fault Refusal :=
  match s.start.stage with
  | .dormant _ => if s.enabled p && !(s.link p).clockStopped then .next { s with exitHeld := true } else .next s
  | _ => .next s

/-- What an exit from dormant-deep forgets of the fault side (R434, R438): halts, quiesce and queue-scope timers, and
source 0x398. -/
def State.forgetFaults (s : State) : State :=
  let keep := fun (r : Reaction) =>
    match r.scope with
    | .channel _ => true
    | .queue _ _ => false
    | .device => !r.escalated
  let mine := fun (a : Scope × List Nat) => match a.1 with | .queue _ _ => false | _ => true
  let f := s.faults
  let s1 := { s with faults := { f with
    quiesced := false, armed := [], reactions := f.reactions.filter keep
    acknowledged := f.acknowledged.filter mine } }
  let s2 := s1.setSource 0x398 { s1.source 0x398 with sticky := false, severe := false, count := 0, total := 0 }
  (unholdAll 0x398 s2.faults.reactions s2).releaseErr

/-- A channel's references to items that no queue holds any more. -/
def Wake.forgetItems (w : Wake) : Wake :=
  { w with sending := none, sleepItem := none, upItem := none, downItem := none }

/-- The retain area is empty (Table 5.8), and no packet of forgotten work is left in the byte stream. -/
def Retry.forget (r : Retry) : Retry :=
  { r with retain := [], resend := [], kept := [], history := [], packets := [] }

def State.forgetChan (s : State) (c : ChanId) : State :=
  (s.modWake c Wake.forgetItems).modRetry c Retry.forget

/-- What an exit from dormant-deep forgets (Table 5.8): anchors, rings, queues, transport, and both INT pins. -/
def State.forgetHost (s : State) : State :=
  let s1 := eachChan State.forgetChan allChans s.forgetFaults
  { s1 with
    ringsA := PortRings.reset, ringsB := PortRings.reset, queues := [], transport := Transport.reset
    linkA := { s1.linkA with reads := [], heldTags := [], waiting := [], held := [], stream := [] }
    linkB := { s1.linkB with reads := [], heldTags := [], waiting := [], held := [], stream := [] }
    tasks := s1.tasks.filter fun t => t.origin.item.isNone
    pins := { s1.pins with intALow := false, intBLow := false } }

/-- A port counts its clock again and trains afresh (R77, R298). -/
def HostLink.recount (l : HostLink) : HostLink :=
  { l with counted := false, trained := false }

/-- Step 1 of Table 5.7, on the source that TSEL selects (R87). -/
def State.exitBegin (s : State) (k : DormantKind) : State :=
  let s1 := match k with | .retain => s | .deep => s.forgetHost
  let s2 := (s1.modLink .a HostLink.recount).modLink .b HostLink.recount
  { s2 with
    start := { s2.start with
      stage := .warm k, recount := none, kind := k.code, primary := 0, mirror := 0, switches := 0
      sets := match k with | .retain => s2.calib.setMask | .deep => 0
      setsMirror := match k with | .retain => s2.calib.mirrored &&& s2.calib.setMask | .deep => 0 }
    clock := { s2.clock with source := s2.pins.tsel }
    exitHeld := false }

/-- DORMANT_EXIT_BEGIN: at an edge of the selected HCK. -/
def execDormantExitBegin (s : State) : Host.Outcome State Fault Refusal :=
  match s.start.stage with
  | .dormant k =>
    if s.exitHeld && !(s.link (if s.pins.tsel then .b else .a)).clockStopped then .next (s.exitBegin k) else .next s
  | _ => .next s

/-! ### The schedule resumes -/

/-- A channel's Table 5.5 code as it leaves dormant. -/
def State.leaveCode (s : State) (c : ChanId) : Nat :=
  let x := s.chan c
  if x.wake.held.isSome || x.wake.restoring then 0
  else if x.link = .sleep then 1
  else if x.link = .off then (if s.enabled (s.portOf c) then 2 else 3)
  else 0

/-- A channel woken while the device was dormant begins to restore as the schedule resumes. -/
def State.resumeWoken (s : State) (c : ChanId) : State :=
  let x := s.chan c
  if x.wake.due && x.link == .sleep then s.restoreWoken c else s

/-- A start duration, saturating (Table 5.4). -/
def durationField (n : Nat) : BitVec 32 :=
  BitVec.ofNat 32 (min n (2 ^ 32 - 1))

/-- The counts of an exit from dormant-retain have ended: the first slot tick is next, and start records are owed. -/
def State.warmRun (s : State) (duration : Nat) : State :=
  let s1 := { s with start := { s.start with stage := .ready, duration := durationField duration } }
  let owed := fun (p : Port) (r : PortRings) => { r with startPending := s.enabled p }
  (s1.modRings .a (owed .a)).modRings .b (owed .b)

/-- The first address of the image slot (Table 7.10). -/
def State.slotAddr (s : State) : Nat :=
  0x400000 * (s.start.straps.toNat % 4)

/-- The flash command that an image load begins with: discovery (R146, R149). -/
def State.loadCommands (s : State) (d : FlashDev) : State :=
  (s.select d true).say (.flash d 0x5A 0 [])

/-- Command k of an image load: discovery, the header, the rest. -/
def State.loadCommand (s : State) (d : FlashDev) (k : Nat) : State :=
  if k = 0 then s.loadCommands d
  else (s.select d true).say (.flash d 0x6B (s.slotAddr + if k = 1 then 0 else 256) [])

/-- Begin to load the image copy of a flash device (R99). -/
def State.beginLoad (s : State) (d : FlashDev) : State :=
  { s with start := { s.start with stage := .imageLoad d, copy := [] } }.loadCommands d

/-- WARM_COUNT_DONE: the first slot tick is next after dormant-retain; dormant-deep loads its image. -/
def execWarmCountDone (duration : Nat) (s : State) : Host.Outcome State Fault Refusal :=
  match s.start.stage with
  | .warm k =>
    if s.start.recount.isSome || s.clock.interrupted then .next s
    else
      match k with
      | .retain => .next (s.warmRun duration)
      | .deep => .next (s.beginLoad .primary)
  | _ => .next s

end Sys2Proof.Machine
end

