-- ==== Sys2Proof/Machine/Clocks.lean ====
section
/-! DEFINITION. The selected clock: source switches, TSEL changes by stage of start-up, and interruptions (R80 to R94). -/

namespace Sys2Proof.Machine

/-- The line side takes its reference from a source, whose clock may stand still (corner after R85). -/
def State.takeSource (s : State) (level : Bool) : State :=
  { s with clock := { s.clock with
    source := level, interrupted := (s.link (if level then .b else .a)).clockStopped, pendingTsel := false } }

/-- Both chip selects driven high. -/
def State.deselect (s : State) : State :=
  (s.select .primary false).select .mirror false

/-- Running soundings end with a result of Table 11.4, unless they already end with one. -/
def State.breakAll (s : State) (result : Nat) : State :=
  { s with tasks := s.tasks.map fun t =>
    if !t.isCal && t.started.isSome && t.broken == 0 then { t with broken := result } else t }

/-- Steps 1 and 2 of Table 4.4. -/
def State.beginSwitch (s : State) (level : Bool) : State :=
  let s1 := (((s.abandonCalibration 3).breakAll 4).holdLinks).deselect
  { s1 with start := { s1.start with stage := .switching } }.takeSource level

/-- A TSEL change counted in the start record (R86, R87). -/
def State.countSwitch (s : State) (recount : Option Stage) : State :=
  { s with start := { s.start with switches := s.start.switches + 1, recount := recount } }

/-- A recognised TSEL level, by stage (Tables 4.4, 4.5; R87). DESIGN CHOICE: in the two refused states, which Table 4.5 does not
name, only the pin's level is kept; see assumption 82. -/
def State.tselChanged (s : State) (level : Bool) : State :=
  match s.start.stage with
  | .reset | .strapRefusal | .imageRefusal | .dormant _ => s
  | .stability | .warm _ => (s.countSwitch none).takeSource level
  | .strapStep | .imageLoad _ | .imageCheck _ | .coefficients | .ready =>
    ((s.countSwitch (some s.start.stage)).deselect).takeSource level
  | .running =>
    if s.clock.interrupted then { s with clock := { s.clock with pendingTsel := true } }
    else s.beginSwitch level
  | .switching => s.takeSource level

/-- TSEL_CHANGE. -/
def execTselChange (level : Bool) (s : State) : Host.Outcome State Fault Refusal :=
  if s.pins.tsel = level then .next s
  else .next ({ s with pins := { s.pins with tsel := level } }.tselChanged level)

/-- The command of the store's step is issued again from its beginning; an erase or program goes on in the flash and is
polled (corner after R85). -/
def State.reissueStore (s : State) : State :=
  match s.calib.store with
  | none => s
  | some x => match x.step with
    | .readback | .lastRead => s.storeCommand x
    | _ => s.say (.flash x.dev 0x05 0 [])

/-- Step 4 of Table 4.4: the next slot tick is symbol 0 of the superframe after the abandoned one, whose remaining lists are not run
(R126). -/
def State.endSwitch (s : State) : State :=
  { s with
    start := { s.start with stage := .running }
    clock := { s.clock with slot := 255, switches := s.clock.switches + 1 }
    sched := { s.sched with behind := [], unmeasured := true } }.reissueStore

/-- SOURCE_SWITCH_DONE. -/
def execSourceSwitchDone (s : State) : Host.Outcome State Fault Refusal :=
  if s.start.stage = .switching && !s.clock.interrupted then .next s.endSwitch else .next s

/-- Read k of the coefficient load, in the order of its two passes: ten copies of the primary, ten of the mirror (R102). -/
def State.coefficientRead (s : State) (k : Nat) : State :=
  s.say (.flash (if k < 10 then .primary else .mirror) 0x6C (copyAddr (k % 10 / 2) (k % 2)) [])

/-- STARTUP_SWITCH_COUNT_DONE: the stage starts again, or goes on with the flash command that the change had interrupted, by its number
in its stage; before the first tick the start has lasted the cycles given (Table 4.5). -/
def execStartupSwitchCountDone (command : Fin 20) (duration : Nat) (s : State) : Host.Outcome State Fault Refusal :=
  if s.start.recount.isSome && !s.clock.interrupted then
    let s1 := { s with start := { s.start with recount := none } }
    match s.start.stage with
    | .imageLoad d => .next (s1.loadCommand d command.val)
    | .coefficients => .next (s1.coefficientRead command.val)
    | .ready => .next { s1 with start := { s1.start with duration := durationField duration } }
    | _ => .next s1
  else .next s

/-- HCK_INTERRUPTION: outside the dormant states everything timed from the clock stands still; what is measured is void,
slack too (R126). -/
def execHckInterruption (s : State) : Host.Outcome State Fault Refusal :=
  let s1 := s.modLink s.sourcePort fun l => { l with clockStopped := true }
  match s.start.stage with
  | .dormant _ => .next s1
  | _ => .next ({ s1 with
      clock := { s1.clock with interrupted := true }
      sched := { s1.sched with unmeasured := s1.sched.unmeasured || s.start.stage == Stage.running } }.breakAll 4)

/-- HCK_RETURN: slot pacing continues; a switch recognised meanwhile is carried out (corners after R94). -/
def execHckReturn (s : State) : Host.Outcome State Fault Refusal :=
  let p := s.sourcePort
  if (s.link p).clockStopped then
    let s1 := { s with clock := { s.clock with interrupted := false, pendingTsel := false } }
    let s2 := s1.portClockBack p
    if s.start.stage == .running && s.clock.pendingTsel && s.pins.tsel != s.clock.source then
      .next (s2.beginSwitch s.pins.tsel)
    else .next s2
  else .next s

end Sys2Proof.Machine
end

