-- ==== Sys2Proof/Machine/Target.lean ====
section
/-! DEFINITION. The target's side of Hunoub requests on windows (R347 to R365, R373, R375, R379, R380): the checks in
order, walks and the translation cache, paging, reads, writes, atomics and flushes. -/

namespace Sys2Proof.Machine

/-! ### Windows (R351, R352) -/

/-- A window descriptor (Table 15.5). -/
def readWin (b : Bytes) : Win :=
  let f := field b 0 1
  { valid := f.testBit 0, readable := f.testBit 1, writable := f.testBit 2, atomics := f.testBit 3,
    resend := f.testBit 4, code := field b 1 1, domain := field b 2 1, partition := field b 4 2,
    gen := BitVec.ofNat 16 (field b 6 2), length := field b 8 8, map := BitVec.ofNat 64 (field b 0x10 8),
    opened := field b 0x18 1 == 1,
    clean := decide (f < 32) && decide (field b 1 1 ≤ 2) && zeroAt b 3 1 && decide (field b 4 2 < 4096) &&
      decide (1 ≤ field b 8 8) && decide (field b 8 8 ≤ 2 ^ 40) && field b 0x10 8 % 64 == 0 &&
      decide (field b 0x18 1 ≤ 1) && zeroAt b 0x19 7 }

/-- Page size of a code (Table 15.6). -/
def pageSize (code : Nat) : Nat :=
  if code = 0 then 4096 else if code = 1 then 65536 else 2097152

def keyWindow (h : Head) : Nat := bits h.target.toNat 15 0
def keyGen (h : Head) : BitVec 16 := BitVec.ofNat 16 (bits h.target.toNat 31 16)

/-- Bytes a request acts on: its length, 8 for an atomic. -/
def Head.acts (h : Head) : Nat :=
  if h.kind = 5 then 8 else h.length

/-- The pages a request touches, at most two. -/
def touched (w : Win) (h : Head) : List Nat :=
  let n := pageSize w.code
  let a := h.offset.toNat / n
  let b := (h.offset.toNat + h.acts - 1) / n
  if a = b then [a] else [a, b]

def descAddr (a : Anchor) (w : Nat) : BitVec 64 :=
  a.windowBase + BitVec.ofNat 64 (32 * w)

/-! ### Answers -/

/-- The response kind to a request kind (Table 15.2): a refused write or message is answered by a status packet. -/
def answerKind (kind : Nat) : Nat :=
  if kind = 2 then 3 else if kind = 5 then 6 else if kind = 7 then 8 else 9

def State.refuse (s : State) (c : ChanId) (h : Head) (status : Nat) : State :=
  s.respond c h (answerKind h.kind) status [] 0

/-- Refuse with the fault kind of the check that failed (R350). -/
def State.refuseCount (s : State) (c : ChanId) (h : Head) (status kind : Nat) : State :=
  (s.refuse c h status).occurChan kind c (addrPacket h status)

/-- Domain or partition, by the channel's protection mode (R347). -/
def State.protected (s : State) (c : ChanId) (h : Head) (domain partition : Nat) : Bool :=
  if s.elem 0x0704 c = 1 then h.partition == partition else h.domain == domain

/-- Checks 5 to 9 against a descriptor: the status and fault kind of the first that fails; a reserved field in the
descriptor of the window the key names is status 0x0B (assumption 38). -/
def State.windowCheck (s : State) (c : ChanId) (h : Head) (w : Win) : Option (Nat × Option Nat) :=
  if !w.valid || w.gen == 0 then some (1, some 5)
  else if !s.protected c h w.domain w.partition then some (1, some 4)
  else if !w.opened || w.gen != keyGen h then some (2, some 5)
  else if !w.clean then some (0xB, none)
  else if !(if h.kind = 2 then w.readable else if h.kind = 1 then w.writable else w.atomics) then some (3, some 5)
  else if w.length < h.offset.toNat + h.acts then some (4, some 5)
  else none

/-! ### Requests in progress -/

def State.req (s : State) (n : Nat) : Option Req :=
  s.transport.reqs.find? fun r => r.ident == n

def State.modReq (s : State) (n : Nat) (f : Req → Req) : State :=
  s.modTransport fun t => { t with reqs := updateIf (fun r => r.ident == n) f t.reqs }

/-- An in-flight use: a request past check 7 whose host reads and writes are under way, or whose page entry is being read (R356). -/
def Req.inUse (r : Req) : Bool :=
  match r.stage with | .moving _ | .waiting => true | .walking => r.win.isSome | _ => false

/-- A revoke of a window is in progress. -/
def State.revoking (s : State) (p : Port) (w : Nat) : Bool :=
  s.transport.drains.any fun d => d.port == p && d.window == w && d.page.isNone

/-- Issue the fence of a drain whose uses have ended (R356 step 5, R365 step 5). -/
def fenceDrains : List Drain → State → State
  | [], s => s
  | d :: t, s =>
    if d.fence = 0 && d.uses.isEmpty then
      fenceDrains t ((s.modTransport fun x => { x with
        drains := updateIf (fun e => e == d) (fun e => { e with fence := 1 }) x.drains }).fence d.port
          (match d.page with | none => .revokeFence d.queue d.item | some _ => .readyFence d.queue d.item))
    else fenceDrains t s

/-- A flush request may be answered once no earlier request of its queue and link remains: its fence read is issued
(R373). -/
def fenceFlushes : List Req → State → State
  | [], s => s
  | r :: t, s =>
    let h := readHead r.pkt.header
    let earlier := s.transport.reqs.any fun x =>
      decide (x.ident < r.ident) && s.owner x.chan == s.owner r.chan &&
      (readHead x.pkt.header).txn.toNat % 1024 == h.txn.toNat % 1024
    if r.stage == .flushing && !earlier then
      fenceFlushes t ((s.modReq r.ident fun x => { x with stage := .moving 1 }).fence r.port (.flushFence r.ident))
    else fenceFlushes t s

/-- What waits on requests that have ended goes on. -/
def State.afterReq (s : State) : State :=
  let s1 := fenceDrains s.transport.drains s
  fenceFlushes s1.transport.reqs s1

/-- Nothing that drains waits for a request any longer. -/
def State.endUse (s : State) (n : Nat) : State :=
  (s.modTransport fun t => { t with
    drains := t.drains.map fun d => { d with uses := d.uses.filter fun u => u != n } }).afterReq

/-- A request is carried out or refused. -/
def State.endReq (s : State) (n : Nat) : State :=
  (s.modTransport fun t => { t with reqs := t.reqs.filter fun r => r.ident != n }).endUse n

/-- Refuse a request in progress, with the fault kind of the failed check if it has one. -/
def State.refuseReq (s : State) (r : Req) (status : Nat) (kind : Option Nat) : State :=
  let h := readHead r.pkt.header
  let s1 := match kind with
    | some k => s.refuseCount r.chan h status k
    | none => s.refuse r.chan h status
  s1.endReq r.ident

/-! ### The translation cache (R358 to R360) -/

def State.modCache (s : State) (f : Tab CacheEntry → Tab CacheEntry) : State :=
  s.modTransport fun t => { t with cache := f t.cache }

/-- The entry of a page of a window under a key. -/
def State.lookup (s : State) (p : Port) (h : Head) (last : Bool) : Option (Nat × CacheEntry) :=
  s.transport.cache.find? fun e =>
    e.2.port == p && e.2.window == keyWindow h && e.2.gen == keyGen h &&
    e.2.page == (if last then h.offset.toNat + h.acts - 1 else h.offset.toNat) / pageSize e.2.win.code

/-- A hit sets the age to 0 (R359). -/
def State.touch (s : State) (i : Nat) (e : CacheEntry) : State :=
  s.modCache fun t => Tab.set t i { e with age := 0 }

/-- The lowest-numbered index from i that the cache does not hold; n bounds the search. -/
def freeIndex (t : Tab CacheEntry) : Nat → Nat → Option Nat
  | 0, _ => none
  | n + 1, i => if t.any fun e => e.1 == i then freeIndex t n (i + 1) else some i

/-- The entry of the highest age, lowest index among equals. -/
def oldest : Tab CacheEntry → Option (Nat × Nat)
  | [] => none
  | e :: t =>
    match oldest t with
    | some f => if f.2 ≤ e.2.age then some (e.1, e.2.age) else some f
    | none => some (e.1, e.2.age)

/-- Install an entry (R360). -/
def State.install (s : State) (e : CacheEntry) : State :=
  let t := s.transport.cache
  match freeIndex t 4096 0 with
  | some i => s.modCache fun x => Tab.set x i e
  | none => match oldest t with | some o => s.modCache fun x => Tab.set x o.1 e | none => s

/-- Invalidate a window's entries, or one page's. -/
def State.invalidate (s : State) (p : Port) (w : Nat) (page : Option Nat) : State :=
  s.modCache fun t => t.filter fun e =>
    !(e.2.port == p && e.2.window == w && (match page with | some k => e.2.page == k | none => true))

/-- TRANSLATION_AGED_OUT: an entry that a sweep found at age 3 is invalidated (R359). -/
def execTranslationAgedOut (entry : Fin 4096) (s : State) : Host.Outcome State Fault Refusal :=
  if s.transport.cache.any fun e => e.1 == entry.val && e.2.age == 4 then
    .next (s.modCache fun t => Tab.erase t entry.val)
  else .next s

/-- Age the entries of a sweep of n entries from an index (R359). -/
def agedEntry (first n : Nat) (e : Nat × CacheEntry) : Nat × CacheEntry :=
  if (e.1 + 4096 - first) % 4096 < n then (e.1, { e.2 with age := min 4 (e.2.age + 1) }) else e

def State.sweepCache (s : State) (n : Nat) : State :=
  s.modTransport fun t => { t with
    cache := t.cache.map (agedEntry t.sweep n), sweep := (t.sweep + n) % 4096 }

/-! ### Deduplication (R380) -/

def State.dedupTable (s : State) (h : Head) : List Dedup :=
  Tab.get [] s.transport.dedup (h.txn.toNat % 1024)

def State.setDedup (s : State) (h : Head) (l : List Dedup) : State :=
  s.modTransport fun t => { t with
    dedup := if l.isEmpty then Tab.erase t.dedup (h.txn.toNat % 1024) else Tab.set t.dedup (h.txn.toNat % 1024) l }

/-- The nonce of an atomic request. -/
def nonceOf (pkt : Packet) : BitVec 64 :=
  BitVec.ofNat 64 (field pkt.payload 16 8)

def Dedup.same (h : Head) (nonce : BitVec 64) (d : Dedup) : Bool :=
  d.source == h.source && d.nonce == nonce

/-- Take the oldest entry, the one not hit for longest, out of a full table (R380). -/
def Dedup.evict (l : List Dedup) : List Dedup :=
  let oldest := (l.map (·.since)).min?
  eraseFirst (fun d => oldest == some d.since) l

/-- DEDUP_ENTRY_EXPIRED: an entry not hit for the hold TP.008 is removed (R380). -/
def execDedupEntryExpired (table : Fin 1024) (nonce : BitVec 64) (s : State) : Host.Outcome State Fault Refusal :=
  let l := Tab.get [] s.transport.dedup table.val
  let keep := l.filter fun d => !(d.nonce == nonce && d.prior.isSome && s.passedFrom d.since (s.par 0x0708))
  if s.runs && keep.length != l.length then
    .next (s.modTransport fun t => { t with
      dedup := if keep.isEmpty then Tab.erase t.dedup table.val else Tab.set t.dedup table.val keep })
  else .next s

/-- The failed atomic of a request leaves the deduplication table (assumption 39); its duplicates are refused with it. -/
def State.dropDedup (s : State) (r : Req) : State :=
  let h := readHead r.pkt.header
  if h.kind = 5 then
    s.setDedup h ((s.dedupTable h).filter fun d => !(d.same h (nonceOf r.pkt) && d.prior.isNone))
  else s

/-- Refuse a request whose walk, read or fence failed, with the duplicates that wait for it. -/
def State.failReq (s : State) (r : Req) (status : Nat) (kind : Option Nat) : State :=
  let h := readHead r.pkt.header
  let dups := s.transport.reqs.filter fun x =>
    x.stage == .duplicate && h.kind == 5 && r.stage != .duplicate && nonceOf x.pkt == nonceOf r.pkt &&
    (readHead x.pkt.header).source == h.source && (readHead x.pkt.header).txn.toNat % 1024 == h.txn.toNat % 1024
  dups.foldl (fun t x => t.refuseReq x status none) ((s.dropDedup r).refuseReq r status kind)

/-! ### Paging (R361 to R364) -/

/-- Entries of the held list in use: held requests, and report marks of resend mode (R362). -/
def State.heldCount (s : State) : Nat :=
  (s.transport.reqs.filter fun r => match r.stage with | .held _ _ => true | _ => false).length +
  (s.transport.reports.filter fun r => r.resend && !s.passedFrom r.since (s.par 0x0800)).length

/-- Address of class W: the page's first offset. -/
def addrWindow (w : Nat) (gen : BitVec 16) (offset : Nat) : Bytes :=
  le 2 w ++ le 2 gen.toNat ++ zeros 4 ++ le 8 offset

/-- Report an absent page once (R361). -/
def State.reportPage (s : State) (p : Port) (h : Head) (w : Win) (page : Nat) : State :=
  let same := fun (r : PageReport) => r.port == p && r.window == keyWindow h && r.gen == keyGen h && r.page == page
  let marked := s.transport.reports.any fun r => same r && !s.passedFrom r.since (s.par 0x0800)
  if marked then s
  else
    let room := !w.resend || decide (s.heldCount < 256)
    let s1 := s.modTransport fun t => { t with reports :=
      (t.reports.filter fun r => !same r && !s.passedFrom r.since (s.par 0x0800)) ++
        (if room then [⟨p, keyWindow h, keyGen h, page, w.resend, s.clock.symbols⟩] else []) }
    s1.occur (queueSource 20 p) none (addrWindow (keyWindow h) (keyGen h) (page * pageSize w.code))

/-- Hold a request on a page, under the stall limit that began at a moment; nothing waits for its use meanwhile. -/
def State.hold (s : State) (r : Req) (page since : Nat) : State :=
  (s.modReq r.ident fun x => { x with stage := .held page since, heldSince := some (page, since) }).endUse r.ident

/-- A page of a request is absent: held in stall mode, or answered 0x05 (R363, R364). One held again keeps its stall limit, and makes no
new report of the page it was held on (R365). -/
def State.pageAbsent (s : State) (r : Req) (w : Win) (page : Nat) : State :=
  let h := readHead r.pkt.header
  match r.heldSince with
  | some (k, t) => (if k = page then s else s.reportPage r.port h w page).hold r page t
  | none =>
    let full := decide (256 ≤ s.heldCount)
    let s1 := s.reportPage r.port h w page
    if w.resend || full then s1.failReq r 5 none else s1.hold r page s.clock.symbols

/-! ### Carrying out (R349 checks 12 and 13, R379) -/

/-- Host address ranges of a request's bytes over its translated pages. -/
def Req.ranges (r : Req) (w : Win) : List (BitVec 64 × Nat) :=
  let h := readHead r.pkt.header
  let n := pageSize w.code
  (touched w h).flatMap fun k =>
    let lo := max h.offset.toNat (k * n)
    let hi := min (h.offset.toNat + h.acts) ((k + 1) * n)
    pieces 3 (Tab.get 0 r.pages k + BitVec.ofNat 64 (lo - k * n)) (hi - lo)

/-- Does another atomic act on the same 8 bytes of the port? -/
def State.atomicBusy (s : State) (r : Req) (addr : BitVec 64) : Bool :=
  s.transport.reqs.any fun x =>
    x.ident != r.ident && x.port == r.port && (match x.stage with | .moving _ => true | _ => false) &&
    (readHead x.pkt.header).kind == 5 &&
    (match x.win with | some w => (x.ranges w).any fun e => e.1 == addr | none => false)

/-- Carry a request out: every page it touches is translated. -/
def State.perform (s : State) (r : Req) (w : Win) : State :=
  let h := readHead r.pkt.header
  let rs := r.ranges w
  if h.kind = 1 then
    let f := s.checkFixity r.chan h 9 r.pkt.payload r.pkt.trailer.toNat r.pkt.trailer.toNat
    if f.1 then (writePieces r.port rs r.pkt.payload f.2).endReq r.ident
    else f.2.refuseReq r 9 none
  else if h.kind = 2 then
    readPieces r.port (.targetData r.ident) 0 rs (s.modReq r.ident fun x => { x with stage := .moving rs.length, parts := [] })
  else
    match rs with
    | [] => s.refuseReq r 0xB none
    | e :: _ =>
      if s.atomicBusy r e.1 then s.modReq r.ident fun x => { x with stage := .waiting }
      else (s.modReq r.ident fun x => { x with stage := .moving 1 }).hostRead r.port e.1 8 (.atomicPrior r.ident)

/-- The next page of a request that is not translated. -/
def Req.missing (r : Req) (w : Win) : Option Nat :=
  (touched w (readHead r.pkt.header)).find? fun k => !(r.pages.any fun e => e.1 == k)

/-- Read the page entry a request still needs, or carry it out. -/
def State.translate (s : State) (n : Nat) : State :=
  match s.req n with
  | none => s
  | some r =>
    match r.win with
    | none => s
    | some w =>
      match r.missing w with
      | none => s.perform r w
      | some k =>
        (s.modReq n fun x => { x with stage := .walking }).hostRead r.port (w.map + BitVec.ofNat 64 (8 * k)) 8 (.walkEntry n k)

/-- A request has passed checks 1 to 9: an atomic with a nonce is looked up first (R380). -/
def State.passed (s : State) (n : Nat) (w : Win) : State :=
  match s.req n with
  | none => s
  | some r =>
    let h := readHead r.pkt.header
    let nonce := nonceOf r.pkt
    let s1 := s.modReq n fun x => { x with win := some w }
    if h.kind = 5 && nonce != 0 then
      let l := s.dedupTable h
      match l.find? (Dedup.same h nonce) with
      | some d =>
        let s2 := s1.setDedup h (updateIf (Dedup.same h nonce) (fun x => { x with since := s.clock.symbols }) l)
        match d.prior with
        | some v => (s2.respond r.chan h 6 0 (le 8 v.toNat) 0).endReq n
        | none => s2.modReq n fun x => { x with stage := .duplicate }
      | none =>
        (s1.setDedup h ((if 64 ≤ l.length then Dedup.evict l else l) ++
          [⟨h.source, nonce, h.target, h.offset, none, s.clock.symbols⟩])).translate n
    else s1.translate n

/-- Read the descriptor of a request's window (R360). -/
def State.walk (s : State) (n : Nat) : State :=
  match s.req n with
  | none => s
  | some r =>
    match (s.rings r.port).anchor with
    | none => s.refuseReq r 1 (some 5)
    | some a =>
      (s.modReq n fun x => { x with stage := .walking, win := none, pages := [], stale := false }).hostRead r.port
        (descAddr a (keyWindow (readHead r.pkt.header))) 32 (.walkDesc n)

/-- The descriptor of a walk has been read; what a stale walk read is discarded, and the request walks again (R360). -/
def State.walkedDesc (s : State) (n : Nat) (data : Bytes) : State :=
  match s.req n with
  | none => s
  | some r =>
    let h := readHead r.pkt.header
    if r.stale then s.walk n
    else
      let w := readWin data
      match s.windowCheck r.chan h w with
      | some e => s.failReq r e.1 e.2
      | none => s.passed n w

/-- The page entry of a walk has been read. -/
def State.walkedEntry (s : State) (n page : Nat) (data : Bytes) : State :=
  match s.req n with
  | none => s
  | some r =>
    match r.win with
    | none => s
    | some w =>
      let h := readHead r.pkt.header
      let v := field data 0 8
      if r.stale then s.walk n
      else if !v.testBit 0 then s.pageAbsent r w page
      else if bits v 11 1 != 0 || (v - v % 4096) % pageSize w.code != 0 then s.failReq r 0xB none
      else
        let a := BitVec.ofNat 64 (v - v % 4096)
        let s1 := s.install ⟨r.port, keyWindow h, keyGen h, page, a, w, 0⟩
        (s1.modReq n fun x => { x with pages := x.pages ++ [(page, a)] }).translate n

/-- A part of a read's data has arrived; with the last, the response goes out with its trailer computed here (R368). -/
def State.readPart (s : State) (n k : Nat) (data : Bytes) : State :=
  match s.req n with
  | none => s
  | some r =>
    let parts := Tab.set r.parts k data
    match r.stage with
    | .moving left =>
      if left ≤ 1 then
        let payload := joinParts parts.length parts
        (s.respond r.chan (readHead r.pkt.header) 3 0 payload (BitVec.ofNat 64 (crc64 payload))).endReq n
      else s.modReq n fun x => { x with stage := .moving (left - 1), parts := parts }
    | _ => s

/-- The prior value of an atomic has been read: the new one is written where the operation stores, and the fence follows
(R379). -/
def State.atomicRead (s : State) (n : Nat) (data : Bytes) : State :=
  match s.req n with
  | none => s
  | some r =>
    match r.win with
    | none => s
    | some w =>
      let h := readHead r.pkt.header
      let prior := BitVec.ofNat 64 (field data 0 8)
      let op0 := BitVec.ofNat 64 (field r.pkt.payload 0 8)
      let op1 := BitVec.ofNat 64 (field r.pkt.payload 8 8)
      let new := if h.flags = 0 then some (prior + op0) else if prior = op0 then some op1 else none
      let s1 := s.modReq n fun x => { x with prior := prior }
      let s2 := match new, r.ranges w with
        | some v, e :: _ => s1.hostWrite r.port e.1 (le 8 v.toNat)
        | _, _ => s1
      s2.fence r.port (.atomicFence n)

/-- Atomics that waited for the same bytes try again. -/
def wakeAtomics : List Req → State → State
  | [], s => s
  | r :: t, s =>
    match r.stage, r.win with
    | .waiting, some w => wakeAtomics t (s.perform r w)
    | _, _ => wakeAtomics t s

/-- A host read or fence of a request failed (check 13); an atomic that waited for the same bytes tries again. -/
def State.reqReadFailed (s : State) (n : Nat) : State :=
  match s.req n with
  | none => s
  | some r =>
    let s1 := s.failReq r 8 none
    wakeAtomics s1.transport.reqs s1

/-- The fence of an atomic has completed: it and its duplicates are answered with the prior value. -/
def State.atomicFenced (s : State) (n : Nat) : State :=
  match s.req n with
  | none => s
  | some r =>
    let h := readHead r.pkt.header
    let nonce := nonceOf r.pkt
    let s1 := if nonce != 0 then
        s.setDedup h (updateIf (Dedup.same h nonce) (fun x => { x with prior := some r.prior, since := s.clock.symbols })
          (s.dedupTable h)) else s
    let dups := s.transport.reqs.filter fun x =>
      x.stage == .duplicate && nonceOf x.pkt == nonce && (readHead x.pkt.header).source == h.source &&
      (readHead x.pkt.header).txn.toNat % 1024 == h.txn.toNat % 1024
    let answer := fun (t : State) (x : Req) => (t.respond x.chan (readHead x.pkt.header) 6 0 (le 8 r.prior.toNat) 0).endReq x.ident
    let s2 := dups.foldl answer (answer s1 r)
    wakeAtomics s2.transport.reqs s2

/-- A flush's fence has completed or failed (R373). -/
def State.flushFenced (s : State) (n : Nat) (ok : Bool) : State :=
  match s.req n with
  | none => s
  | some r => (s.respond r.chan (readHead r.pkt.header) 8 (if ok then 0 else 8) [] 0).endReq n

/-! ### Arrival (checks 2 to 9) -/

/-- Check 3 of Table 15.3, by kind. -/
def headFieldsOk (h : Head) : Bool :=
  decide (h.partition < 4096) && h.status == 0 &&
  (match h.kind with
   | 1 => h.flags == 0 && decide (1 ≤ h.length) && decide (h.length ≤ 4096)
   | 2 => h.flags == 0 && decide (1 ≤ h.length) && decide (h.length ≤ 4096)
   | 4 => decide (h.flags < 4) && decide (1 ≤ h.length) && decide (h.length ≤ 4096) && decide (h.target.toNat < 512)
   | 5 => decide (h.flags < 2) && h.length == 24 && h.offset.toNat % 8 == 0
   | 7 => h.flags == 0 && h.length == 0
   | _ => true)

/-- A request that arrives: checks 2 to 4, and quiesce (R433); what passes is acted on. -/
def State.onRequest (s : State) (c : ChanId) (pkt : Packet) (kind : Nat) (act : Head → State → State) : State :=
  match s.takePacket c pkt kind with
  | none => s
  | some (_, false, s1) => s1
  | some (h, true, s1) =>
    if !headFieldsOk h then s1.refuse c h 0xB
    else if h.dest.toNat != s1.node then s1.refuse c h 0xA
    else if s1.faults.quiesced then s1.refuse c h 8
    else act h s1

/-- A request joins those in progress. -/
def State.addReq (s : State) (c : ChanId) (pkt : Packet) (stage : ReqStage) : State :=
  let r : Req :=
    { ident := s.transport.nextReq, chan := c, port := s.portOf c, pkt := pkt, stage := stage, pages := [], win := none,
      stale := false, heldSince := none, parts := [], prior := 0 }
  s.modTransport fun t => { t with nextReq := t.nextReq + 1, reqs := t.reqs ++ [r] }

/-- A request on a window: check 5's anchor and index, then the cache, else a walk (R349, R358, R360). -/
def State.windowRequest (s : State) (c : ChanId) (pkt : Packet) (h : Head) : State :=
  let p := s.portOf c
  match (s.rings p).anchor with
  | none => s.refuseCount c h 1 5
  | some a =>
    if a.windowSlots ≤ keyWindow h then s.refuseCount c h 1 5
    else
      let n := s.transport.nextReq
      let s1 := s.addReq c pkt .walking
      match s.lookup p h false with
      | none => s1.walk n
      | some e =>
        let w := e.2.win
        let s2 := s1.touch e.1 e.2
        match s.windowCheck c h w with
        | some f =>
          match s2.req n with
          | some r => s2.refuseReq r f.1 f.2
          | none => s2
        | none =>
          let s3 := s2.modReq n fun x => { x with pages := [(e.2.page, e.2.addr)] }
          match s.lookup p h true with
          | some g =>
            let s4 := if g.1 = e.1 then s3 else
              (s3.touch g.1 g.2).modReq n fun x => { x with pages := x.pages ++ [(g.2.page, g.2.addr)] }
            s4.passed n w
          | none => s3.passed n w

/-- WRITE_PACKET. -/
def execWritePacket (c : ChanId) (pkt : Packet) (s : State) : Host.Outcome State Fault Refusal :=
  .next (s.onRequest c pkt 1 fun h t => t.windowRequest c pkt h)

/-- READ_REQUEST. -/
def execReadRequest (c : ChanId) (pkt : Packet) (s : State) : Host.Outcome State Fault Refusal :=
  .next (s.onRequest c pkt 2 fun h t => t.windowRequest c pkt h)

/-- ATOMIC_REQUEST. -/
def execAtomicRequest (c : ChanId) (pkt : Packet) (s : State) : Host.Outcome State Fault Refusal :=
  .next (s.onRequest c pkt 5 fun h t => t.windowRequest c pkt h)

/-- FLUSH_REQUEST (R373). -/
def execFlushRequest (c : ChanId) (pkt : Packet) (s : State) : Host.Outcome State Fault Refusal :=
  .next (s.onRequest c pkt 7 fun _ t => (t.addReq c pkt .flushing).afterReq)

/-- STALL_LIMIT_EXPIRY (R363). -/
def execStallLimitExpiry (req : Nat) (s : State) : Host.Outcome State Fault Refusal :=
  match s.req req with
  | none => .next s
  | some r =>
    match r.stage with
    | .held _ t => if s.runs && s.passedFrom t (s.par 0x0800) then .next (s.failReq r 6 none) else .next s
    | _ => .next s

end Sys2Proof.Machine
end

