-- ==== Sys2Proof/Machine/Messages.lean ====
section
/-! DEFINITION. Two-sided messages and stream frames at the target (R376 to R378, R401 to R412). -/

namespace Sys2Proof.Machine

/-- Address of class M (Table 18.6). -/
def addrMessage (h : Head) (c : ChanId) : Bytes :=
  le 2 h.source.toNat ++ le 1 c.val ++ le 1 0 ++ le 4 h.txn.toNat ++ le 8 h.offset.toNat

/-- Receiver not ready (check 11): status 0x07 and kind 19. -/
def State.notReady (s : State) (c : ChanId) (h : Head) (p : Port) (q : Fin 512) : State :=
  (s.refuse c h 7).occurQueue 19 p q (addrMessage h c)

/-- The buffer of an item on offer to messages: a started receive item, or a started stream buffer item. -/
def bufferOf (r : QueueRole) (i : Item) : Option (BitVec 64 × Nat) :=
  match i.phase with
  | .started =>
    match decodeItem r i.raw with
    | some (.receive a n _) => some (a, n)
    | some (.streamBuffer a n) => some (a, n)
    | _ => none
  | _ => none

/-- The oldest item of a queue on offer that nothing has claimed (R377). -/
def State.offer (s : State) (p : Port) (q : Fin 512) : Option (Item × BitVec 64 × Nat) :=
  let x := s.queue p q
  let free := x.items.filter fun i => (bufferOf (s.role p q) i).isSome && !(x.claims.any fun c => c.1 == i.index)
  match free with
  | [] => none
  | i :: _ => (bufferOf (s.role p q) i).map fun b => (i, b)

/-- With nothing on offer the queue's next item starts, when it is a buffer: a fetched item is taken whether or not it has started
(R377, R409). -/
def State.withOffer (s : State) (p : Port) (q : Fin 512) : State :=
  if (s.offer p q).isSome then s
  else
    match s.nextItem p q with
    | some (i, some (.receive _ _ _)) => s.startItem p q i.index
    | _ => s.takeBuffer p q

def State.claim (s : State) (p : Port) (q : Fin 512) (item txn : BitVec 32) : State :=
  s.modQueue p q fun x => { x with claims := x.claims ++ [(item, txn)] }

def State.unclaim (s : State) (p : Port) (q : Fin 512) (item : BitVec 32) : State :=
  s.modQueue p q fun x => { x with claims := x.claims.filter fun c => !(c.1 == item) }

/-- Messages in reception on a port. -/
def State.receiving (s : State) (p : Port) : Nat :=
  (s.transport.messages.filter fun m => m.port == p && !m.dropped).length

def State.modMessage (s : State) (m : Message) (f : Message → Message) : State :=
  s.modTransport fun t => { t with messages := updateIf (fun x => x == m) f t.messages }

def State.dropMessage (s : State) (m : Message) : State :=
  s.modTransport fun t => { t with messages := t.messages.filter fun x => !(x == m) }

/-- The message a packet belongs to: same link, source and transaction (R376). -/
def State.messageOf (s : State) (c : ChanId) (h : Head) : Option Message :=
  s.transport.messages.find? fun m => s.owner m.chan == s.owner c && m.source == h.source && m.txn == h.txn

/-! ### Messages to receive queues and feed streams -/

/-- A chunk of a claimed buffer: placed after its fixity check, at the buffer address plus its offset (R378). The last
one calls for the fence. -/
def State.placeChunk (s : State) (c : ChanId) (h : Head) (pkt : Packet) (m : Message) (off : Nat) : State :=
  let f := s.checkFixity c h 9 pkt.payload pkt.trailer.toNat pkt.trailer.toNat
  let stream := (s.role m.port m.queue).stream
  if !f.1 || m.total < off + pkt.payload.length then
    let s1 := (f.2.refuse c h 9).dropMessage m
    let s2 := if stream = 1 then s1.signal c 6 9 m.txn 0 m.queue else s1
    match m.item with
    | some i =>
      if stream = 1 && (s.queue m.port m.queue).stream.running then s2
      else (s2.unclaim m.port m.queue i).complete m.port m.queue i 0x0B 0 (some c)
    | none => s2
  else
    let s1 := f.2.hostWrite m.port (m.addr + BitVec.ofNat 64 off) pkt.payload
    let placed := m.placed + pkt.payload.length
    let s2 := s1.modMessage m fun x => { x with placed := placed, fencing := decide (m.total ≤ placed) }
    if m.total ≤ placed then
      match m.item with | some i => s2.fence m.port (.receiveFence m.queue i) | none => s2
    else s2

/-- The fence behind a message has completed: its item completes with the message length; a feed stream tells the sender
that the frame is placed (R378, R401, R413). -/
def State.messageFenced (s : State) (p : Port) (q : Fin 512) (item : BitVec 32) (ok : Bool) : State :=
  match s.transport.messages.find? fun m => m.port == p && m.queue == q && m.item == some item && m.fencing with
  | none => s
  | some m =>
    if m.dropped then s.dropMessage m
    else
      let s1 := ((s.dropMessage m).unclaim p q item).complete p q item (if ok then 0x00 else 0x0A)
        (BitVec.ofNat 32 (if ok then m.total else 0)) (some m.chan)
      if (s.role p q).stream = 1 then s1.signal m.chan (if ok then 1 else 6) (if ok then 0 else 8) m.txn 0 q else s1

/-! ### Drain streams (R409 to R412) -/

/-- The completion detail of a drain item (R409). -/
def drainDetail (bytes : Nat) (begins ends continues : Bool) : BitVec 32 :=
  BitVec.ofNat 32 (bytes + 2 ^ 21 * bit begins + 2 ^ 22 * bit ends + 2 ^ 23 * bit continues)

/-- The item of a drain frame in use completes. -/
def State.closeItem (s : State) (m : Message) (code : Byte) (ends continues : Bool) : State :=
  match m.item with
  | none => s
  | some i =>
    (s.unclaim m.port m.queue i).complete m.port m.queue i code
      (if code = 0 then drainDetail m.inItem m.beganHere ends continues else BitVec.ofNat 32 m.inItem) (some m.chan)

/-- A drain frame ends: a frame that used the reserve writes its event (R411). -/
def State.drainEvent (s : State) (m : Message) (event : Nat) : State :=
  s.streamRecord m.port m.queue
    ⟨event, m.chan.val, m.frame, m.txn, if event = 3 then m.placed else 0, m.reserveAt, m.reserve, 0, 0⟩

/-- A frame is truncated at the bytes it has placed (R410). -/
def State.truncate (s : State) (m : Message) : State :=
  let s1 := s.closeItem m 0x00 true false
  let s2 := (s1.drainEvent m 3).signal m.chan 3 0 m.txn m.placed m.queue
  let s3 := s2.occurQueue 21 m.port m.queue (addrItem ((m.item.getD 0).toNat) 0 0 (some m.chan))
  s3.modMessage m fun x => { x with dropped := true, item := none, inItem := 0 }

/-- Where the next chunk of a drain frame goes. -/
inductive Place where
  | item (addr : BitVec 64) (m : Message)
  | reserve
  | none
  deriving DecidableEq, Repr

/-- Room for a chunk: the rest of the item in use, the next item on offer, or the reserve; and the state after the full
item has completed. -/
def State.drainRoom (s : State) (m : Message) (n : Nat) : Place × State :=
  let x := (s.queue m.port m.queue).stream
  let full := if x.reservePos + n ≤ s.reserveSize m.port m.queue && x.running then Place.reserve else Place.none
  if 0 < m.reserve then (full, s)
  else
    let here := (m.item.bind fun i => s.findItem m.port m.queue i).bind (bufferOf (s.role m.port m.queue))
    match here with
    | some b =>
      if m.inItem + n ≤ b.2 then (.item (b.1 + BitVec.ofNat 64 m.inItem) m, s)
      else
        match s.offer m.port m.queue with
        | some o =>
          (.item o.2.1 { m with item := some o.1.index, inItem := 0, beganHere := false },
            (s.closeItem m 0x00 false false).claim m.port m.queue o.1.index m.txn)
        | none => (full, s)
    | none =>
      match s.offer m.port m.queue with
      | some o =>
        (.item o.2.1 { m with item := some o.1.index, inItem := 0, beganHere := m.placed == 0 },
          s.claim m.port m.queue o.1.index m.txn)
      | none => (full, s)

/-- The last chunk of a drain frame is placed: its item completes, its event is written if it used the reserve, and the
sender is told (R409, R411, R413). -/
def State.drainEnd (s : State) (m : Message) : State :=
  let s1 := (s.closeItem m 0x00 true false).dropMessage m
  let s2 := if 0 < m.reserve then s1.drainEvent m 4 else s1
  s2.signal m.chan 1 0 m.txn 0 m.queue

/-- Replace a message by its next state, and end the frame with its last chunk. -/
def State.drainNext (s : State) (old m : Message) (last : Bool) : State :=
  let s1 := s.modMessage old fun _ => m
  if last then s1.drainEnd m else s1

/-- Place a chunk of a drain frame (R409, R410). -/
def State.drainChunk (s : State) (c : ChanId) (h : Head) (pkt : Packet) (m : Message) : State :=
  let n := pkt.payload.length
  let last := h.flags.testBit 1
  let f := s.checkFixity c h 9 pkt.payload pkt.trailer.toNat pkt.trailer.toNat
  if !f.1 then
    (((f.2.refuse c h 9).closeItem m 0x0B true false).dropMessage m).signal c 6 9 m.txn 0 m.queue
  else
    let r := (f.2.withOffer m.port m.queue).drainRoom m n
    match r.1 with
    | .item a m1 =>
      (r.2.hostWrite m.port a pkt.payload).drainNext m
        { m1 with placed := m1.placed + n, inItem := m1.inItem + n } last
    | .reserve =>
      let x := (s.queue m.port m.queue).stream
      let opens := !x.episodeOpen
      let s1 := if 0 < m.reserve then r.2 else r.2.closeItem m 0x00 false true
      let s2 := (s1.hostWrite m.port (x.reserveAddr + BitVec.ofNat 64 x.reservePos) pkt.payload).modStream m.port m.queue
        fun y => { y with reservePos := y.reservePos + 4096, episodeOpen := true }
      let s3 := if opens then
          (s2.signal m.chan 2 0 0 0 m.queue).streamRecord m.port m.queue
            ⟨2, m.chan.val, m.frame, m.txn, 0, 0, 0, 0, 0⟩
        else s2
      s3.drainNext m { m with
        placed := m.placed + n, reserve := m.reserve + n,
        reserveAt := (if 0 < m.reserve then m.reserveAt else x.reservePos), item := none, inItem := 0 } last
    | .none => r.2.truncate m

/-! ### MESSAGE_PACKET -/

/-- A message with nothing placed. -/
def newMessage (p : Port) (c : ChanId) (h : Head) (q : Fin 512) (item : Option (BitVec 32)) (addr : BitVec 64)
    (frame : Nat) (slot : Option Nat) : Message :=
  { port := p, chan := c, txn := h.txn, source := h.source, queue := q, item := item, addr := addr,
    total := h.offset.toNat, placed := 0, fencing := false, slot := slot, inItem := 0, beganHere := false, reserve := 0,
    reserveAt := 0, frame := frame, dropped := false }

/-- The first packet of a message: checks 5, 6 and 11 (R349, R376, R377, R409). -/
def State.firstPacket (s : State) (c : ChanId) (pkt : Packet) (h : Head) : State :=
  let p := s.portOf c
  let q : Fin 512 := Fin.ofNat 512 h.target.toNat
  let r := s.role p q
  let enabled := match (s.rings p).anchor with | some a => descEnabled (a.desc q) | none => false
  if !enabled || !(r.receive || r.stream == 1 || r.stream == 2) then s.refuseCount c h 1 5
  else if !s.protected c h (s.elem 0x0701 (queueKey p q)) (s.queuePartition p q) then s.refuseCount c h 1 4
  else if s.queueHalted p q || 256 ≤ s.receiving p then s.notReady c h p q
  else if r.stream = 2 then
    let m := newMessage p c h q none 0 (s.queue p q).stream.frames none
    let s1 := (s.modTransport fun t => { t with messages := t.messages ++ [m] }).modStream p q fun x =>
      { x with frames := x.frames + 1, chan := some c }
    s1.drainChunk c h pkt m
  else
    let s := s.withOffer p q
    match s.offer p q with
    | none => s.notReady c h p q
    | some o =>
      if o.2.2 < h.offset.toNat then s.notReady c h p q
      else
        let slot := ((s.queue p q).stream.slots.find? fun e => e.2 == o.1.index).map (·.1)
        let m := newMessage p c h q (some o.1.index) o.2.1 0 slot
        let s1 := ((s.claim p q o.1.index h.txn).modTransport fun t => { t with messages := t.messages ++ [m] }).modStream
          p q fun x => if r.stream = 1 then { x with chan := some c } else x
        s1.placeChunk c h pkt m 0

/-- MESSAGE_PACKET. A later packet of a message that is not in reception is dropped without answer. -/
def execMessagePacket (c : ChanId) (pkt : Packet) (s : State) : Host.Outcome State Fault Refusal :=
  .next (s.onRequest c pkt 4 fun h t =>
    if h.flags.testBit 0 then t.firstPacket c pkt h
    else
      match t.messageOf c h with
      | none => t
      | some m =>
        if m.dropped then (if h.flags.testBit 1 then t.dropMessage m else t)
        else if (t.role m.port m.queue).stream = 2 then t.drainChunk c h pkt m
        else t.placeChunk c h pkt m h.offset.toNat)

end Sys2Proof.Machine
end

