-- ==== Sys2Proof/Machine/Windows.lean ====
section
/-! DEFINITION. The window items: open, revoke, page ready, and the completion of what they drain (R355, R356, R365). -/

namespace Sys2Proof.Machine

/-- A window item is refused by its chapter with a status (Table 15.7). -/
def State.windowRefused (s : State) (p : Port) (q : Fin 512) (item : BitVec 32) (status : Nat) : State :=
  s.result p q item 6 status 0

/-- Read a window's descriptor for an item, or refuse it: the index, then a revoke in progress. -/
def State.windowItem (s : State) (p : Port) (q : Fin 512) (item : BitVec 32) (w : Nat) (why : Purpose) : State :=
  match (s.rings p).anchor with
  | none => s.windowRefused p q item 1
  | some a =>
    if a.windowSlots ≤ w then s.windowRefused p q item 1
    else if s.revoking p w then s.windowRefused p q item 3
    else s.hostRead p (descAddr a w) 32 why

/-- What a port's reads are for: those in flight, and those that wait to be sent. -/
def HostLink.purposes (l : HostLink) : List Purpose :=
  l.reads.map (·.purpose) ++ l.waiting.filterMap fun w => match w with | .read _ _ why => some why | _ => none

/-- The window whose descriptor a read is for. -/
def Purpose.window : Purpose → Option Nat
  | .openDesc _ _ w | .revokeDesc _ _ w _ | .readyDesc _ _ w _ _ _ => some w
  | _ => none

/-- An item on a window waits for its descriptor read; a later one waits for it (corner after R357; see assumption 111). -/
def State.windowBusy (s : State) (p : Port) (w : Nat) : Bool :=
  (s.link p).purposes.any fun y => y.window == some w

/-- An open of a window waits for its descriptor read. -/
def State.opening (s : State) (p : Port) (w : Nat) : Bool :=
  (s.link p).purposes.any fun y => match y with | .openDesc _ _ v => v == w | _ => false

/-- WINDOW_OPEN. -/
def execWindowOpen (p : Port) (q : Fin 512) (s : State) : Host.Outcome State Fault Refusal :=
  .next (s.onItem p q fun i b =>
    match b with
    | .windowOpen w =>
      if s.windowBusy p w then none
      else some ((s.startItem p q i.index).windowItem p q i.index w (.openDesc q i.index w))
    | _ => none)

/-- WINDOW_REVOKE: it gives result 0x07 while an open of the window waits for its read (corner after R357). -/
def execWindowRevoke (p : Port) (q : Fin 512) (s : State) : Host.Outcome State Fault Refusal :=
  .next (s.onItem p q fun i b =>
    match b with
    | .windowRevoke w g =>
      if s.opening p w then some ((s.startItem p q i.index).result p q i.index 7 0 0)
      else if s.windowBusy p w then none
      else some ((s.startItem p q i.index).windowItem p q i.index w (.revokeDesc q i.index w g))
    | _ => none)

/-- PAGE_READY. -/
def execPageReady (p : Port) (q : Fin 512) (s : State) : Host.Outcome State Fault Refusal :=
  .next (s.onItem p q fun i b =>
    match b with
    | .pageReady w g off code =>
      if s.windowBusy p w then none
      else some ((s.startItem p q i.index).windowItem p q i.index w (.readyDesc q i.index w g off code))
    | _ => none)

/-- The generation after one (R355): 0xFFFF is followed by 0x0001. -/
def nextGen (g : BitVec 16) : BitVec 16 :=
  if g = 0xFFFF then 1 else g + 1

/-- Write a descriptor's generation, then its state (R355, R356). -/
def State.writeWindow (s : State) (p : Port) (w : Nat) (g : BitVec 16) (state : Nat) : State :=
  match (s.rings p).anchor with
  | none => s
  | some a =>
    (s.hostWrite p (descAddr a w + 6) (le 2 g.toNat)).hostWrite p (descAddr a w + 0x18) (le 1 state)

/-- The descriptor of a window open has been read (R355, Table 15.7). -/
def State.openRead (s : State) (p : Port) (q : Fin 512) (item : BitVec 32) (w : Nat) (data : Bytes) : State :=
  let x := readWin data
  if s.revoking p w then s.windowRefused p q item 3
  else if !x.valid || !x.clean then s.windowRefused p q item 2
  else if x.opened then s.result p q item 7 0 (65536 * x.gen.toNat)
  else
    let g := nextGen x.gen
    (s.writeWindow p w g 1).complete p q item 0x00 (BitVec.ofNat 32 (w + 65536 * g.toNat)) none

/-- Requests on a window. -/
def Req.onWindow (r : Req) (p : Port) (w : Nat) : Bool :=
  r.port == p && keyWindow (readHead r.pkt.header) == w && (readHead r.pkt.header).kind != 7

def refuseAll (status : Nat) : List Req → State → State
  | [], s => s
  | r :: t, s => refuseAll status t (s.failReq r status none)

/-- Mark what the walks of some requests read as stale. -/
def State.stales (s : State) (k : Req → Bool) : State :=
  s.modTransport fun t => { t with reqs := updateIf (fun r => r.stage == .walking && k r) (fun r => { r with stale := true }) t.reqs }

/-- Put a draining item to wait, and issue its fence if nothing is in flight. -/
def State.drain (s : State) (d : Drain) : State :=
  (s.modTransport fun t => { t with drains := t.drains ++ [d] }).afterReq

/-- A revoke's descriptor has been read: the revoke is accepted, or refused (R356). -/
def State.revokeRead (s : State) (p : Port) (q : Fin 512) (item : BitVec 32) (w gen : Nat) (data : Bytes) : State :=
  let x := readWin data
  if s.revoking p w then s.windowRefused p q item 3
  else if !x.opened then s.result p q item 7 0 0
  else if x.gen.toNat != gen then s.windowRefused p q item 5
  else
    let here := s.transport.reqs.filter fun r => r.onWindow p w
    let uses := (here.filter Req.inUse).map (·.ident)
    let held := here.filter fun r => match r.stage with | .held _ _ => true | _ => false
    let s1 := ((s.writeWindow p w (nextGen x.gen) 0).invalidate p w none).stales fun r => r.onWindow p w
    let s2 := s1.drain ⟨p, q, item, w, x.gen, none, uses, 0⟩
    refuseAll 2 held s2

/-- Walk a page again for the requests held on it (R365 step 2). -/
def rewalk (page : Nat) : List Req → State → State
  | [], s => s
  | r :: t, s =>
    match r.stage with
    | .held k _ => rewalk page t (if k = page then s.translate r.ident else s)
    | _ => rewalk page t s

/-- A request is held on a page. -/
def Req.heldOn (r : Req) (page : Nat) : Bool :=
  match r.stage with | .held k _ => k == page | _ => false

/-- A request held on another page forgets the page's address. -/
def Req.forgetPage (page : Nat) (r : Req) : Req :=
  match r.stage with
  | .held _ _ => { r with pages := r.pages.filter fun e => e.1 != page }
  | _ => r

/-- A page ready's descriptor has been read (R365): the page's cache entry and report mark go, its in-flight uses and the requests held
on it are waited for, a walk of it under way is made again, and the held requests walk it. -/
def State.readyRead (s : State) (p : Port) (q : Fin 512) (item : BitVec 32) (w gen off code : Nat) (data : Bytes) : State :=
  let x := readWin data
  if s.revoking p w then s.windowRefused p q item 3
  else if x.gen.toNat != gen then s.windowRefused p q item 5
  else if !x.opened then s.windowRefused p q item 6
  else if x.length ≤ off || x.code != code then s.windowRefused p q item 7
  else
    let page := off / pageSize x.code
    let here := s.transport.reqs.filter fun r => r.onWindow p w
    let onPage := fun (r : Req) => r.onWindow p w && (touched x (readHead r.pkt.header)).contains page
    let uses := (here.filter fun r => onPage r && (r.inUse || r.heldOn page)).map (·.ident)
    let s1 := ((s.invalidate p w (some page)).modTransport fun t => { t with
      reqs := updateIf onPage (Req.forgetPage page) t.reqs
      reports := t.reports.filter fun r => !(r.port == p && r.window == w && r.page == page) }).stales fun r =>
        onPage r && r.win.isSome
    rewalk page here (s1.drain ⟨p, q, item, w, x.gen, some page, uses, 0⟩)

/-- The fence behind a draining item is done, completed or failed. -/
def State.drainFenced (s : State) (p : Port) (q : Fin 512) (item : BitVec 32) : State :=
  s.modTransport fun t => { t with
    drains := updateIf (fun d => d.port == p && d.queue == q && d.item == item) (fun d => { d with fence := 2 }) t.drains }

/-- Complete the oldest drained item of a queue of one form. -/
def State.drained (s : State) (p : Port) (q : Fin 512) (page : Bool) : State :=
  match s.transport.drains.find? fun d =>
    s.runs && d.port == p && d.queue == q && d.page.isSome == page && d.fence == 2 with
  | none => s
  | some d =>
    (s.modTransport fun t => { t with drains := t.drains.filter fun e => !(e == d) }).result p q d.item 0 0 0

/-- REVOKE_DRAINED. -/
def execRevokeDrained (p : Port) (q : Fin 512) (s : State) : Host.Outcome State Fault Refusal :=
  .next (s.drained p q false)

/-- PAGE_READY_DRAINED. -/
def execPageReadyDrained (p : Port) (q : Fin 512) (s : State) : Host.Outcome State Fault Refusal :=
  .next (s.drained p q true)

end Sys2Proof.Machine
end

