-- ==== Sys2Proof/Machine/Completion.lean ====
section
/-! DEFINITION. Read completions and timeouts (R300): what each host read's end does, the acceptance of an anchor, and the frames
held while the line domain stood (R80). -/

namespace Sys2Proof.Machine

/-! ### The anchor is accepted or refused (Table 13.18 steps 3 to 5, R315) -/

/-- A channel leaves its start state once its port has an anchor (R105): search at the next epoch boundary with reason 0x00, Sleep
with the wake detector armed. -/
def State.leaveStart (s : State) (c : ChanId) : State :=
  match s.startCode c with
  | 0 => s.modChan c fun x => { x with bring := { x.bring with toSearch := some 0 } }
  | 1 => s.modChan c fun x => { x with wake := { x.wake with armed := true } }
  | _ => s

/-- A port's channels leave their start states; after a dormant state they stand as they left it (R106). DESIGN CHOICE: a channel whose
port first accepts an anchor only then stays where it stands; see assumption 97. -/
def State.startChannels (s : State) (p : Port) : State :=
  if s.start.kind = 0 then eachChan State.leaveStart (allChans.filter fun c => s.portOf c == p) s else s

/-- The consumed-index block's part that is zeroed (R315). -/
def indexZeros : Nat := 0x920

/-- The anchor block has been read: a port with an accepted anchor keeps it (R104). -/
def State.anchorRead (s : State) (p : Port) (addr : BitVec 64) (b : Bytes) : State :=
  let code := anchorCode p b
  if (s.rings p).anchor.isSome then s.sendReply p 4 0 addr
  else if code = 0 then
    let a := readAnchor addr b
    let s1 := s.modRings p fun r => { r with anchor := some a, anchorReading := false }
    (((s1.hostWrite p a.indexBlock (zeros indexZeros)).sendReply p 0 0 addr).writeStart p).startChannels p
  else (s.modRings p fun r => { r with anchorReading := false }).sendReply p 3 code addr

/-- Its read failed. -/
def State.anchorFailed (s : State) (p : Port) (addr : BitVec 64) : State :=
  (s.modRings p fun r => { r with anchorReading := false }).sendReply p 2 0 addr

/-! ### A read's end by its purpose -/

/-- A read has its data. -/
def State.delivered (s : State) (p : Port) (data : Bytes) : Purpose → State
  | .anchor addr => s.anchorRead p addr data
  | .fetch q first n => s.fetchDone p q first n data
  | .intFence => s.assertInt p
  | .openDesc q item w => s.openRead p q item w data
  | .revokeDesc q item w g => s.revokeRead p q item w g data
  | .revokeFence q item => s.drainFenced p q item
  | .readyDesc q item w g off code => s.readyRead p q item w g off code data
  | .readyFence q item => s.drainFenced p q item
  | .walkDesc n => s.walkedDesc n data
  | .walkEntry n page => s.walkedEntry n page data
  | .targetData n k => s.readPart n k data
  | .atomicPrior n => s.atomicRead n data
  | .atomicFence n => s.atomicFenced n
  | .flushFence n => s.flushFenced n true
  | .receiveFence q item => s.messageFenced p q item true
  | .firebreakFence q item k => s.firebreakDone p q item k
  | .sourceData txn i k => s.chunkPart txn i fun x => { x with parts := Tab.set x.parts k data }
  | .fixityEntry txn i => s.chunkPart txn i fun x => { x with entry := some (BitVec.ofNat 64 (field data 0 8)) }

/-- A read has failed, counted before it (Tables 14.7, 15.3, 15.7, 16.3; R323, R335, R373, R378). A fence that a drain or a
firebreak waits for is not repeated. -/
def State.undelivered (s : State) (p : Port) : Purpose → State
  | .anchor addr => s.anchorFailed p addr
  | .fetch q first n => s.fetchFailed p q first n
  | .intFence => s.assertInt p
  | .openDesc q item _ | .revokeDesc q item _ _ | .readyDesc q item _ _ _ _ => s.windowRefused p q item 4
  | .revokeFence q item | .readyFence q item => s.drainFenced p q item
  | .walkDesc n | .walkEntry n _ | .targetData n _ | .atomicPrior n | .atomicFence n => s.reqReadFailed n
  | .flushFence n => s.flushFenced n false
  | .receiveFence q item => s.messageFenced p q item false
  | .firebreakFence q item k => s.firebreakDone p q item k
  | .sourceData txn i _ | .fixityEntry txn i => s.chunkReadFailed txn i

/-- A port's read in flight under a tag. -/
def State.readOf (s : State) (p : Port) (tag : BitVec 16) : Option HostRead :=
  (s.link p).reads.find? fun r => r.tag == tag

def HostLink.dropRead (tag : BitVec 16) (l : HostLink) : HostLink :=
  { l with reads := l.reads.filter fun r => !(r.tag == tag) }

/-- A failed read: counted, then its purpose. -/
def State.readFailed (s : State) (p : Port) (why : Purpose) : State :=
  ((s.hostLinkError p 3 1).undelivered p why).pump p

/-- Act on a completion: discarded and counted where no such read is in flight or the length disagrees (R300). -/
def State.actCompletion (s : State) (p : Port) (tag : BitVec 16) (status : Byte) (data : Bytes) : State :=
  match s.readOf p tag with
  | none => s.hostLinkError p 2 2
  | some r =>
    if data.length != (if status = 0 then r.length else 0) then s.hostLinkError p 2 2
    else
      let s1 := s.modLink p (HostLink.dropRead tag)
      if status = 0 then (s1.delivered p data r.purpose).pump p else s1.readFailed p r.purpose

/-- READ_COMPLETION. -/
def execReadCompletion (p : Port) (seq : BitVec 12) (tag : BitVec 16) (status : Byte) (data : Bytes) (s : State) :
    Host.Outcome State Fault Refusal :=
  .next (s.onFrame p 2 seq fun t =>
    if t.runs && (t.link p).held.isEmpty then t.actCompletion p tag status data
    else t.modLink p fun l => { l with held := l.held ++ [.completion tag status data] })

/-- READ_COMPLETION_TIMEOUT: the tag is held (R300). -/
def execReadCompletionTimeout (p : Port) (tag : BitVec 16) (s : State) : Host.Outcome State Fault Refusal :=
  match s.readOf p tag with
  | none => .next s
  | some r =>
    if s.runs && s.passedFrom r.issued (s.hostTimeout p) then
      let s1 := s.modLink p fun l => { l.dropRead tag with heldTags := l.heldTags ++ [(tag, s.clock.symbols)] }
      .next (s1.readFailed p r.purpose)
    else .next s

/-! ### Frames held while the line domain stood -/

/-- Act on a held frame. -/
def State.actHeld (s : State) (p : Port) : Held → State
  | .completion tag status data => s.actCompletion p tag status data
  | .workDoorbell target index => (s.actWorkDoorbell p target index).returnCredit p
  | .consumedDoorbell target index => (s.actConsumedDoorbell p target index).returnCredit p
  | .anchor body => (s.actAnchor p body).returnCredit p
  | .ignored kind => s.ignoreFrame p kind

def actHeldList (p : Port) : List Held → State → State
  | [], s => s
  | h :: t, s => actHeldList p t (s.actHeld p h)

/-- The schedule runs again: a port's held frames are acted on in order. -/
def State.actAllHeld (s : State) (p : Port) : State :=
  match (s.link p).held with
  | [] => s
  | l => actHeldList p l (s.modLink p fun x => { x with held := [] })

end Sys2Proof.Machine
end

