-- ==== Sys2Proof/Machine/Transmit.lean ====
section
/-! DEFINITION. What each channel sends in a slot (R158 to R163, R209, R214, R222, R223, R246, R256): the tones of its symbol, the
samples on the line, and the call frames. What a slot sends is fixed by the state at the slot's end: commands of slot 0 choose what its
symbol carries. -/

namespace Sys2Proof.Machine

/-! ### The symbol of a slot -/

/-- A symbol of a training superframe: form S in symbol 0, else a training symbol with its Walsh chip (R222). -/
def trainingSymbol (k : Nat) (walsh : Option (Nat × Nat)) : List Tone :=
  if k = 0 then syncTones Table.empty false 0 else trainingTones k walsh

/-- A symbol of a codeword stream: in symbol 0 the sync symbol in its form, else the data symbol with its bits (R159). A symbol in which
the stream has ended carries the bits that were left. -/
def Chan.streamSymbol (x : Chan) (k : Nat) : List Tone :=
  if k = 0 then (if x.streams then syncTones x.txTab x.air.minus 0 else [])
  else if x.streams || !x.air.bits.isEmpty then dataTones x.txTab x.air.bits k
  else []

/-- A symbol of DATA or QUIET: an alert's, a refresh's, the stream's, or silence (R256, "Leaving Quiet"). -/
def Chan.dataSymbol (x : Chan) (k : Nat) : List Tone :=
  let alert := match x.quiet.alert with | some n => decide (1 ≤ n) && decide (n ≤ 8) | none => false
  if alert then syncTones x.load.txTable false k
  else if x.link = .quiet && x.quiet.refreshing then
    (if k = 0 then syncTones x.load.txTable false 0 else trainingTones k none)
  else x.streamSymbol k

/-- A symbol of search, exchange or assembly: the frame in course, sixteen symbols a bit, else a caller's lead-in (R209, R210, R214). -/
def Chan.callSymbol (x : Chan) (sf k : Nat) : List Tone :=
  match x.air.call with
  | some points => [callTone (if x.bring.caller then 1 else 3) (nth false points ((sf % 8 * 256 + k) / 16))]
  | none => if x.link = .search && x.bring.caller then [callTone 1 false] else []

/-- A channel's sounding that runs: its mode and start. -/
def State.soundingOn (s : State) (c : ChanId) : Option (Nat × Sf) :=
  match s.sounding [1, 2, 3] with
  | some (t, d, mode) => if d = c && t.broken == 0 then t.started.map fun x => (mode, x) else none
  | none => none

/-- The superframe of a refresh interval, counted from the own refresh, in which a quiet sounding sends its burst: it keeps clear of both
ends' refreshes (R246). DESIGN CHOICE; see assumption 101. -/
def burstFrame (phase : Nat) : Nat :=
  if 1 ≤ phase && phase ≤ 3 then 5 else 2

/-- A symbol of a sounding burst (R246): 64 bursts back to back from the superframe after the start, or one in each of 64 quiet
periods. -/
def State.burstSymbol (s : State) (c : ChanId) : List Tone :=
  let k := s.clock.slot.toNat
  match s.soundingOn c with
  | some (1, t) => if 1 ≤ s.since t && s.since t ≤ 8 then burstTones (k % 32) else []
  | some (2, t) =>
    if k < 32 && 1 ≤ s.since t && s.since t ≤ 64 * 81 && s.clock.sf.toNat % 81 == burstFrame (s.chan c).quiet.phase then
      burstTones k
    else []
  | _ => []

/-- The tones that a channel sends in the present slot; none: a silent symbol (R159). A late symbol is silent (R123), and so is a channel
on its way to SEARCH (R213) and one in HOLD. -/
def State.symbolTones (s : State) (c : ChanId) : List Tone :=
  let x := s.chan c
  let k := s.clock.slot.toNat
  if x.air.late || x.bring.toSearch.isSome then []
  else
    match x.link with
    | .search | .exchange | .assemble => x.callSymbol s.clock.sf.toNat k
    | .train1 => if x.train.secondHalf != x.bring.caller then trainingSymbol k none else []
    | .train2 | .train4 => trainingSymbol k none
    | .train3 => trainingSymbol k (if x.partner.group = 1 then some (s.pairOffset c, s.groupSize c) else none)
    | .fast => if x.train.fast = .f3 then x.streamSymbol k else trainingSymbol k none
    | .train5 | .data => x.dataSymbol k
    | .quiet => let l := x.dataSymbol k; if l.isEmpty then s.burstSymbol c else l
    | .off | .quarantine | .sleep => s.burstSymbol c
    | .hold => []

/-! ### The line -/

/-- The samples that a channel sends in the present slot: of wake frames in course (R262, R266), else of its symbol. -/
def State.lineSamples (s : State) (c : ChanId) : List Int :=
  let x := s.chan c
  match x.wake.sending with
  | some (ident, data, _) =>
    let chips := wakeChips ident data
    (List.range 144).map fun i => wakeAt Config.wakePhase chips (s.elem 0x0601 c) (x.air.waked + i)
  | none => symbolSamples (s.symbolTones c)

/-- Samples kept of what was sent: the present symbol's and the 384 before them, which the echo canceller works on (R192). -/
def lineKept : Nat := 528

/-- Put the present slot's samples on the line. -/
def State.sendLine (s : State) (c : ChanId) : State :=
  let v := s.lineSamples c
  s.modChan c fun x =>
    let l := x.air.line ++ v
    { x with air := { x.air with
        line := l.drop (l.length - lineKept), waked := if x.wake.sending.isSome then x.air.waked + 144 else 0 } }

/-- At a frame boundary a call frame begins, its first bit relative to the last point of the frame before it, or to the reference point
after silence or a lead-in (R209, R210). -/
def State.beginCall (s : State) (c : ChanId) : State :=
  if s.clock.slot = 0 && s.clock.sf.toNat % 8 == 0 then
    let x := s.chan c
    match s.callOut c with
    | some f =>
      let l := callPoints (x.air.call.isSome && x.air.callRef) (toBits 128 f.toNat)
      (s.modChan c fun y => { y with air := { y.air with call := some l, callRef := nth false l 127 } }).say
        (.call c (if x.bring.caller then 1 else 3) f)
    | none => s.modChan c fun y => { y with air := { y.air with call := none, callRef := false } }
  else s

/-- What a channel sends in the slot that ends. -/
def State.sendSlot (s : State) (c : ChanId) : State :=
  (s.beginCall c).sendLine c

end Sys2Proof.Machine
end

