-- ==== Sys2Proof/Machine/Reception.lean ====
section
/-! DEFINITION. The receive path on the symbols that come one by one (R180 to R207, R241): cancellation, filter, interpolation,
transform, equaliser, soft values, and what each symbol adds to the measurements. Filter taps and coefficients are in units of 2^-30
line volts-to-steps (echo, NEXT), 2^-15 (pre-equaliser, kernel) and 2^-24 (equaliser). -/

namespace Sys2Proof.Machine

/-! ### Stages 4 to 7 -/

/-- The sum of taps over samples that end at position i of a list's last 144: tap j meets the sample j before. -/
def convolve (taps line : List Int) (i : Nat) : Int :=
  let n := line.length + i
  (taps.zipIdx.map fun e => if e.2 + 144 ≤ n then e.1 * nth 0 line (n - 144 - e.2) else 0).sum

/-- What the own transmitter and the group's others put on received sample i (R192, R194): an aggressor that is silent adds zeros. -/
def State.leakage (s : State) (c : ChanId) (i : Nat) : Int :=
  let x := s.chan c
  let others := (s.members c).filter fun d => d != c
  let next := others.zipIdx.map fun e => convolve ((x.rx.next.drop (128 * e.2)).take 128) (s.chan e.1).air.line i
  roundDiv (convolve x.rx.echo x.air.line i + next.sum) (2 ^ 30)

/-- Samples without echo and NEXT (stage 4). -/
def State.cancelled (s : State) (c : ChanId) (v : List Int) : List Int :=
  v.zipIdx.map fun e => e.1 - s.leakage c e.2

/-- The pre-equaliser's output for the last 144 of some samples (stage 5); before training it passes samples on. -/
def preEqualised (taps r : List Int) : List Int :=
  if taps.isEmpty then r.drop (r.length - 144)
  else (List.range 144).map fun i => roundDiv (convolve taps r i) (2 ^ 15)

/-- Sample n of the transform period, by interpolation between the samples about it in steps of 1/64 (stage 6, R188). -/
def resampled (z : List Int) (delay : Int) (n : Nat) : Int :=
  let phase := (delay.fmod 64).toNat
  let first := ((n : Int) + 8 + delay.fdiv 64).toNat
  roundDiv ((List.range 8).map fun t => Config.kernel phase t * nth 0 z (first + t)).sum (2 ^ 15)

/-- The transform of carrier k, in 2^-30 steps (stage 7). -/
def transformOf (y : List Int) (k : Nat) : Int × Int :=
  ((y.zipIdx.map fun e => e.1 * cosAt (k * e.2)).sum, -(y.zipIdx.map fun e => e.1 * sinAt (k * e.2)).sum)

/-- Carriers 4 to 63 of a symbol's samples. -/
def spectrumOf (z : List Int) (delay : Int) : List (Int × Int) :=
  let y := (List.range 128).map (resampled z delay)
  (List.range 60).map fun i => transformOf y (i + 4)

/-- Stages 4 and 5 on a slot's samples. -/
def State.takeSamples (s : State) (c : ChanId) (v : List Int) : State :=
  let r := (s.chan c).air.residual ++ s.cancelled c v
  s.modChan c fun x => { x with air := { x.air with
    residual := r.drop (r.length - 31), samples := x.air.samples ++ preEqualised x.rx.preEq r } }

/-- Stages 6 and 7 on the next symbol, where it is whole. After a move of the window the symbol after it begins a sample later or earlier
(R189): symbols stay whole. -/
def Chan.transformNext (x : Chan) : Chan :=
  if x.air.samples.length < 144 then x
  else { x with air := { x.air with
    spectrum := spectrumOf x.air.samples x.air.delay, ready := true
    samples := x.air.samples.drop (144 + x.air.slip).toNat, slip := 0 } }

/-! ### Stage 8: W(k), the common phase, and timing (R188, R190, R195) -/

def cmul (a b : Int × Int) : Int × Int :=
  (a.1 * b.1 - a.2 * b.2, a.1 * b.2 + a.2 * b.1)

/-- The columns of a member's row of W(k): its own channel alone, or the group's members in order of offset. -/
def State.columns (s : State) (c : ChanId) : List ChanId :=
  if (s.chan c).partner.fext then s.members c else [c]

/-- Carrier i of 60 from the coefficients of every column; a column whose far transmitter is silent brings zero. Before TRAIN3 has set
coefficients a carrier passes on. -/
def State.equalised (s : State) (c : ChanId) (i : Nat) : Int × Int :=
  let m := (s.chan c).rx.matrix
  if m.isEmpty then
    let v := nth (0, 0) (s.chan c).air.spectrum i
    (roundDiv v.1 (2 ^ 30), roundDiv v.2 (2 ^ 30))
  else
    let l := (s.columns c).zipIdx.map fun e =>
      cmul (nth 0 m (2 * (60 * e.2 + i)), nth 0 m (2 * (60 * e.2 + i) + 1))
        (if (s.chan e.1).air.ready then nth (0, 0) (s.chan e.1).air.spectrum i else (0, 0))
    (roundDiv (l.map (·.1)).sum (2 ^ 54), roundDiv (l.map (·.2)).sum (2 ^ 54))

/-- The rotation that the pilot shows: the expected point times the conjugate of the one received. -/
def rotation (p : Int × Int) (s : Nat) : Int × Int :=
  cmul ((pilotPoints (s + 1)).getLastD (0, 0)) (p.1, -p.2)

/-- A value turned by a rotation. -/
def turned (r v : Int × Int) : Int × Int :=
  let n := isqrt (r.1 * r.1 + r.2 * r.2).toNat
  if n = 0 then v else let w := cmul r v; (roundDiv w.1 n, roundDiv w.2 n)

/-- The 60 carriers of a symbol in order 4 to 63 as 59 data carriers and the pilot (carrier 16). -/
def splitPilot {α : Type} (d : α) (l : List α) : List α × α :=
  (l.take 12 ++ l.drop 13, nth d l 12)

/-- The equalised data carriers of a transformed symbol, and the timing loop's next delay and offset from the pilot's phase error (step
EQ2): a marked symbol takes no part in it (R207). -/
def State.equaliseSymbol (s : State) (c : ChanId) : List (Int × Int) × State :=
  let x := s.chan c
  let y := splitPilot (0, 0) ((List.range 60).map (s.equalised c))
  let r := rotation y.2 (if x.air.aligned then x.air.symbol else 0)
  let next := Config.timing r.2 x.air.offset
  (y.1.map (turned r), s.modChan c fun z =>
    if z.rx.isMarked then z
    else { z with air := { z.air with delay := z.air.delay + next.1, offset := max (-12000) (min 12000 next.2) } })

/-! ### Acquisition (R184) -/

/-- Does gain acquisition run: in automatic mode, in a search or the half of TRAIN1 in which the partner sends, until a sync symbol has
been detected? -/
def State.acquires (s : State) (c : ChanId) : Bool :=
  let x := s.chan c
  (s.manualGain c).isNone && !x.rx.frozen && x.bring.toSearch.isNone &&
  (x.link == .search || (x.link == .train1 && x.train.secondHalf == x.bring.caller))

/-- The converter's rms input over a symbol, in 0.01 dB below full scale. -/
def inputLevel (v : List Int) : Int :=
  centiBel (v.map fun a => a * a).sum.toNat (v.length * 2 ^ 30)

/-- A symbol with energy brings the gain by steps of 0.5 dB to −12 dBFS; a step marks two symbols from the next on (Table 9.5). -/
def State.acquireGain (s : State) (c : ChanId) (v : List Int) : State :=
  let power := (v.map fun a => a * a).sum.toNat / v.length
  let off := -1200 - inputLevel v
  if s.acquires c && decide (Config.threshold < power) && decide (100 < off.natAbs) then
    s.modRx c fun r =>
      let g := (max 0 (min 60 ((r.gain : Int) + roundDiv off 50))).toNat
      -- the symbol of the decision itself passes next
      if g = r.gain then r else { r with gain := g }.mark 3
  else s

/-! ### The sync symbol -/

/-- The correlation with the sync sequence over all data carriers: negative for form −S (R207). -/
def syncCorrelation (y : List (Int × Int)) : Int :=
  (List.zipWith (fun p (v : Int × Int) => p.1 * v.1 + p.2 * v.2) (syncPoints false) y).sum

def syncSeen (y : List (Int × Int)) : Bool :=
  decide (Config.syncLevel ≤ (syncCorrelation y).natAbs)

/-- The partner's symbol 0 is expected to be a sync symbol (R163, R225, R256). -/
def State.awaitsSync (s : State) (c : ChanId) : Bool :=
  let x := s.chan c
  if x.link.counts then s.expectsSync c
  else
    match x.link with
    | .train1 => x.train.secondHalf == x.bring.caller
    | .train2 | .train3 | .train4 | .train5 | .fast => true
    | _ => false

/-- A sync symbol was detected: acquisition freezes the gain (R184). -/
def Chan.syncDetected (x : Chan) : Chan :=
  { x with rx := { x.rx with frozen := true }, air := { x.air with misses := 0 } }

/-- An expected sync symbol was not detected (R225, R228, R239). -/
def Chan.syncMissed (x : Chan) : Chan :=
  { x with
    quality := if x.link.counts then
        { x.quality with missed := x.quality.missed + 1, syncS := x.quality.syncS - 1 } else x.quality
    air := { x.air with misses := x.air.misses + 1 } }

/-! ### Measurements (R199, R239) -/

def addAll (a b : List Nat) : List Nat :=
  List.zipWith (· + ·) a b

/-- Errors of a symbol on the carriers that it measures. -/
def SnrSum.add (m : SnrSum) (errors : List Nat) (on : List Bool) : SnrSum :=
  { errors := addAll m.errors (List.zipWith (fun (e : Nat) b => if b then e else 0) errors on)
    symbols := addAll m.symbols (on.map bit) }

/-- Is a training superframe measured: not in the guards of its phase (Table 10.6)? -/
def State.measuresTraining (s : State) (c : ChanId) : Bool :=
  let x := s.chan c
  let n := s.since x.train.phaseStart
  (x.link == .train4 && decide (4 ≤ n) && decide (n < 252)) || (x.link == .fast && x.train.fast == .f2)

/-- What an unmarked symbol of known or decided points adds to the measurement of SNR and EVM. -/
def State.measureSymbol (s : State) (c : ChanId) (k : Nat) (y : List (Int × Int)) : State :=
  let x := s.chan c
  let t := x.load.rxTable
  if x.rx.isMarked then s
  else if s.measuresTraining c then
    if k = 0 then s
    else s.modChan c fun z => { z with air := { z.air with
      snr := z.air.snr.add (knownErrors (trainingPoints k none) y) (List.replicate 59 true) } }
  else if !(x.stands .data && !x.quiet.rxEnded) then s
  else if k = 0 then
    s.modChan c fun z => { z with air := { z.air with
      snr := z.air.snr.add (knownErrors (syncPoints (decide (syncCorrelation y < 0))) y) (t.map fun e => e.1 == 0) } }
  else
    let e := dataErrors t y
    s.modChan c fun z => { z with
      air := { z.air with snr := z.air.snr.add e (t.map fun e => e.1 != 0) }
      quality := { z.quality with
        evmSum := z.quality.evmSum + e.sum, evmCount := z.quality.evmCount + (t.filter fun e => e.1 != 0).length } }

/-! ### Adaptation (R190, R192, R194, R195) -/

/-- The place of a coefficient in its column of 60 carriers is one that a symbol adapts: loaded carriers (and the pilot) on data symbols,
the others on sync symbols. -/
def adapts (t : Table) (k i : Nat) : Bool :=
  let place := i / 2 % 60
  if place = 12 then k != 0
  else ((nth (0, 0) t (if place < 12 then place else place - 1)).1 == 0) == (k == 0)

def adaptTaps (use : Nat) (base : Nat) (l : List Int) : List Int :=
  l.zipIdx.map fun e => e.1 + Config.adapted use (base + e.2)

/-- In data mode an unmarked symbol adapts the equaliser's coefficients, and its own transmitted signal the canceller's taps. -/
def State.adaptSymbol (s : State) (c : ChanId) (k : Nat) : State :=
  let x := s.chan c
  if x.stands .data && !x.quiet.rxEnded && !x.rx.isMarked then
    (s.modRx c fun r => { r with
      matrix := r.matrix.zipIdx.map fun e => if adapts x.load.rxTable k e.2 then e.1 + Config.adapted s.fresh e.2 else e.1
      echo := adaptTaps s.fresh 1000 r.echo, next := adaptTaps s.fresh 2000 r.next }).useFresh
  else s

/-! ### The data symbol -/

/-- The table under which received data symbols stand. -/
def Chan.rxTab (x : Chan) : Table :=
  if x.rxData then x.load.rxTable else trainingTable

/-- The soft values of a received data symbol join the stream; in a marked symbol they are 0 (R191, R207). -/
def Chan.pushSoft (x : Chan) (slot : Nat) (y : List (Int × Int)) : Chan :=
  let t := x.rxTab
  let l := if x.rx.isMarked then List.replicate (tableB t) 0 else symbolSoft t y x.rx.snr
  { x with air := { x.air with soft := x.air.soft ++ [⟨slot, x.air.frame, x.air.symbol, tableB t, l⟩] } }

/-- The stream that is being received, if any. -/
def Chan.receivesStream (x : Chan) : Bool :=
  (x.rxData || x.rxTrains) && !x.quiet.rxEnded

/-- The received symbol passes; after symbol 255 a received superframe ends. -/
def Air.nextSymbol (counted : Bool) (a : Air) : Air :=
  if a.symbol < 255 then { a with symbol := a.symbol + 1 }
  else
    { a with
      symbol := 0, frame := a.frame + 1
      frames := if counted then a.frames + 1 else a.frames
      preEqFrames := if counted then a.preEqFrames + 1 else a.preEqFrames }

/-- A symbol of the aligned superframe, by its index. -/
def State.takeAligned (s : State) (c : ChanId) (y : List (Int × Int)) : State :=
  let k := (s.chan c).air.symbol
  let s1 := if k = 0 && s.awaitsSync c then s.modChan c (if syncSeen y then Chan.syncDetected else Chan.syncMissed) else s
  let s2 := if k != 0 && (s1.chan c).receivesStream then s1.modChan c fun x => x.pushSoft s.clock.slot.toNat y else s1
  let s3 := (s2.measureSymbol c k y).adaptSymbol c k
  s3.modChan c fun x => { x with air := x.air.nextSymbol (x.stands .data) }

/-- The received superframe is found at a sync symbol. -/
def Chan.align (x : Chan) : Chan :=
  { x.syncDetected with air := { x.syncDetected.air with aligned := true, symbol := 1, frame := 0 } }

/-- An equalised symbol of a channel that receives. -/
def State.takeSymbol (s : State) (c : ChanId) (y : List (Int × Int)) : State :=
  if (s.chan c).air.aligned then s.takeAligned c y
  else if s.awaitsSync c && syncSeen y then s.modChan c Chan.align
  else s

/-! ### The noise floor (R241) -/

/-- A noise-floor measurement runs on a channel: in QUIET, or commanded (mode 3). -/
def State.noiseRuns (s : State) (c : ChanId) : Option Bool :=
  if (s.chan c).stands .quiet then some true
  else match s.soundingOn c with | some (3, _) => some false | _ => none

/-- Either end transmits in the present symbol: this end, or the partner as its refreshes and its alert are expected. -/
def State.eitherSends (s : State) (c : ChanId) : Bool :=
  let x := s.chan c
  !(s.symbolTones c).isEmpty || x.quiet.heard.isSome ||
  (x.stands .quiet && s.expectsSync c && (if x.air.aligned then decide (x.air.symbol < 16) else decide (s.clock.slot.toNat < 16)))

/-- A period ends, and the next begins: one that is left out adds nothing. The first two periods after entry to QUIET are left out. -/
def NoiseSum.turn (m : NoiseSum) (quiet : Bool) : NoiseSum :=
  let next := { m with
    nowPower := List.replicate 59 0, nowSymbols := 0, skip := quiet && decide (m.begun + 1 ≤ 2), begun := m.begun + 1 }
  if m.skip then next
  else { next with
    power := addAll m.power m.nowPower, symbols := m.symbols + m.nowSymbols, periods := m.periods + 1 }

/-- Power of the data carriers, and of all carriers 4 to 63. -/
def powers (l : List (Int × Int)) : List Nat :=
  l.map fun v => (v.1 * v.1 + v.2 * v.2).toNat

/-- A symbol of a measurement: one in which an end sends, the two after it, and marked ones are left out; a symbol above −40 dBm leaves
its period out. DEDUCED: a symbol in which either end sends does not make its period loud; see assumption 103. -/
def NoiseSum.add (m : NoiseSum) (gain : Nat) (sends marked : Bool) (spectrum : List (Int × Int)) : NoiseSum :=
  let p := powers spectrum
  let calm := if sends then 0 else m.calm + 1
  let loud := !sends && decide (p.sum ≠ 0) && decide (-4000 < powerAt p.sum 1 gain)
  if calm ≤ 2 || marked then { m with calm := calm, skip := m.skip || loud }
  else { m with
    calm := calm, skip := m.skip || loud
    nowPower := addAll m.nowPower (splitPilot 0 p).1, nowSymbols := m.nowSymbols + 1 }

/-- What a transformed symbol adds to a noise-floor measurement. -/
def State.noiseSymbol (s : State) (c : ChanId) : State :=
  match s.noiseRuns c with
  | some _ => if !(s.chan c).air.ready then s else s.modChan c fun x => { x with air := { x.air with
      noise := x.air.noise.add x.rx.gain (s.eitherSends c) x.rx.isMarked x.air.spectrum } }
  | none => s

/-- A quiet period begins after symbol 15 of an own refresh superframe and ends with the next one; a commanded measurement's periods are
superframes (R241, R256). -/
def State.noiseTurn (s : State) (c : ChanId) : State :=
  let k := s.clock.slot.toNat
  let n := s.clock.sf.toNat % 81
  match s.noiseRuns c with
  | some quiet =>
    if if quiet then n == 0 && k == 15 else k == 255 then
      s.modChan c fun x => { x with air := { x.air with noise := x.air.noise.turn quiet } }
    else s
  | none => s

/-! ### A slot's receptions -/

def eachReception (f : State → ChanId × Reception → State) : List (ChanId × Reception) → State → State
  | [], s => s
  | e :: t, s => eachReception f t (f s e)

/-- Does a channel follow its partner's symbols now? -/
def State.follows (s : State) (c : ChanId) : Bool :=
  (s.chan c).link.receives && (s.chan c).bring.toSearch.isNone

/-- Stages 4 and 5 of a reception. -/
def State.receive (s : State) (e : ChanId × Reception) : State :=
  match e.2 with
  | .samples v => if v.length = 144 then s.takeSamples e.1 v else s
  | .equalised _ => s

/-- The next symbol of a channel whose samples come is transformed. -/
def State.transform (s : State) (e : ChanId × Reception) : State :=
  match e.2 with
  | .samples _ => (s.modChan e.1 Chan.transformNext).noiseSymbol e.1
  | .equalised _ => s

/-- Every member's spectrum is there: a transformed symbol is equalised and taken, once. -/
def State.takeTransformed (s : State) (e : ChanId × Reception) : State :=
  match e.2 with
  | .samples _ =>
    if s.follows e.1 && (s.chan e.1).air.ready then
      let r := s.equaliseSymbol e.1
      r.2.takeSymbol e.1 r.1
    else s
  | .equalised _ => s

/-- A symbol that comes equalised. -/
def State.takeEqualised (s : State) (e : ChanId × Reception) : State :=
  match e.2 with
  | .samples _ => s
  | .equalised y => if s.follows e.1 && y.length = 60 then s.takeSymbol e.1 (y.take 59) else s

/-- A spectrum serves one symbol. -/
def State.endSymbol (s : State) (e : ChanId × Reception) : State :=
  s.modChan e.1 fun x => { x with air := { x.air with ready := false } }

/-- One symbol of every channel that has one: all transforms, then equalisation over the groups. -/
def State.symbolRound (s : State) (l : List (ChanId × Reception)) : State :=
  eachReception State.endSymbol l (eachReception State.takeTransformed l (eachReception State.transform l s))

/-- Gain acquisition after a slot's symbol. -/
def State.acquire (s : State) (e : ChanId × Reception) : State :=
  match e.2 with
  | .samples v => if v.length = 144 then s.acquireGain e.1 v else s
  | .equalised _ => s

/-- A slot's receptions: moves of a window leave a slot without a whole symbol now and then, or with two. -/
def State.receiveAll (s : State) (l : List (ChanId × Reception)) : State :=
  let s1 := ((eachReception State.receive l s).symbolRound l).symbolRound l
  eachReception State.acquire l (eachReception State.takeEqualised l s1)

end Sys2Proof.Machine
end

