-- ==== Sys2Proof/Machine/Lists.lean ====
section
/-! DEFINITION. The unit instances against their compiled lists (R110, R112, R121 to R130): skipped steps, clearing decisions, lists that
end late, are abandoned or are never begun, and what that does to the line. DESIGN CHOICE: list s of a unit serves the symbol that
arrived in slot s − 1 and the symbol that is launched in slot s + 1; see assumption 104. -/

namespace Sys2Proof.Machine

/-! ### Steps and decisions -/

/-- A quiet interval of QUIET: none of the symbols in which an end sends a refresh or an alert (R256). -/
def State.inQuietInterval (s : State) (c : ChanId) : Bool :=
  let x := s.chan c
  x.link == .quiet && x.quiet.txEnded && x.quiet.rxEnded && x.quiet.alert.isNone && x.quiet.heard.isNone &&
  !x.quiet.refreshing && !(s.expectsSync c && decide (s.clock.slot.toNat < 16))

/-- A step that serves a channel in OFF or SLEEP, or in a quiet interval of QUIET, is skipped (R110). -/
def State.skipsStep (s : State) (w : Nat × Nat × Nat) : Bool :=
  if h : w.2.1 < 64 then
    let c : ChanId := ⟨w.2.1, h⟩
    let x := s.chan c
    x.link == .off || x.link == .sleep || s.inQuietInterval c
  else false

/-- Has a background class work for its units (R129, Table 6.6)? -/
def State.classWorks (s : State) : Nat → Bool
  | 1 => s.calibrating.isSome
  | 2 => (s.sounding [1, 2, 3]).isSome
  | 3 => s.sched.scrub.isSome
  | 4 => !(s.ringsA.buffer ++ s.ringsA.outside ++ s.ringsB.buffer ++ s.ringsB.outside).isEmpty
  | _ => false

/-- Has a unit foreground work that waits (R129)? -/
def State.worksPending (s : State) (inst : Nat) : Bool :=
  if inst < 68 then false
  else if inst < 76 then s.queues.any fun e => e.2.producer != e.2.consumed || e.2.items.any fun i => i.phase == .fetched
  else if inst < 80 then !s.transport.reqs.isEmpty
  else if inst < 82 then s.transport.ops.any fun o => o.kind == .relay
  else if inst = 82 then !s.linkA.waiting.isEmpty || !s.linkA.reads.isEmpty
  else if inst = 83 then !s.linkB.waiting.isEmpty || !s.linkB.reads.isEmpty
  else false

/-- The decision at the tick that begins a clearing: background work first, then overflow, else idle (R129). -/
def State.roleOf (s : State) (inst cls : Nat) : Role :=
  if s.classWorks cls then .background else if s.worksPending inst then .overflow else .idle

/-- The decisions of the clearings that begin with a slot. -/
def State.roles (s : State) (slot : Nat) : Tab Role :=
  (List.range 88).filterMap fun i =>
    match s.slotDesc i slot with
    | some d => if d.clearing then some (i, s.roleOf i d.cls) else none
    | none => none

/-- Every instance whose clearing begins with the present slot takes its decision, which stands for the slot. -/
def State.decideAll (s : State) : State :=
  { s with sched := { s.sched with roles := s.roles s.clock.slot.toNat } }

/-- Is a slot of an instance measured (R112, R122)? A host-port scheduler of a disabled port never is, nor a slot whose step words are
all skipped. An idle clearing runs none of the words of its capacity (DEDUCED; see assumption 105). -/
def State.measures (s : State) (slot inst : Nat) : Bool :=
  if (inst == 82 && !s.enabled .a) || (inst == 83 && !s.enabled .b) || decide (88 ≤ inst) then false
  else
    match s.slotDesc inst slot with
    | some d =>
      let l := s.stepWords d
      let run := l.isEmpty || l.any fun w => !s.skipsStep w
      if d.clearing then
        (match Tab.get Role.idle s.sched.roles inst with
         | .background => true
         | .overflow => run
         | .idle => l.isEmpty)
      else run
    | none => true

/-- Executions of a step that a list gives its unit: a foreground list's, or the capacity of a clearing that runs overflow (R129, R137). -/
def State.runsOf (s : State) (inst slot code : Nat) : Nat :=
  match s.slotDesc inst slot with
  | some d =>
    if d.clearing && Tab.get Role.idle s.sched.roles inst != Role.overflow then 0
    else (((s.stepWords d).filter fun w => w.1 == code && !s.skipsStep w).map fun w => w.2.2).sum
  | none => 0

/-! ### Lists that end -/

/-- An ended list: instance, slot, and slack, which is negative exactly where the list ended behind its slot (R122, R123). -/
structure Ended where
  inst : Nat
  slot : Nat
  slack : Int
  deriving DecidableEq, Repr

/-- The lists that an instance has still to end as a slot ends, oldest first. -/
def Sched.queue (x : Sched) (inst slot : Nat) : List Nat :=
  Tab.get [] x.behind inst ++ [slot]

/-- The slacks that an instance reported in a slot, in the order in which its lists ended. -/
def reportsOf (inst : Nat) (slack : List (Nat × Int)) : List Int :=
  (slack.filter fun e => e.1 == inst).map (·.2)

/-- The lists that ended in a slot, by instance. -/
def Sched.ended (x : Sched) (slot : Nat) (slack : List (Nat × Int)) : List Ended :=
  (List.range 88).flatMap fun i =>
    List.zipWith (fun j v => ⟨i, j, if j = slot then max 0 v else min v (-1)⟩) (x.queue i slot) (reportsOf i slack)

/-- The lists of an instance that have not ended with a slot: none of an instance that is not late. -/
def Sched.left (x : Sched) (slot : Nat) (slack : List (Nat × Int)) (late : List Nat) (inst : Nat) : List Nat :=
  if late.contains inst then (x.queue inst slot).drop (reportsOf inst slack).length else []

/-- All of them, by instance. -/
def Sched.leftAll (x : Sched) (slot : Nat) (slack : List (Nat × Int)) (late : List Nat) : Tab (List Nat) :=
  (List.range 88).filterMap fun i =>
    let l := x.left slot slack late i
    if l.isEmpty then none else some (i, l)

/-- At the tick for slot 0 a unit keeps the list it has begun and abandons the others (R124). -/
def abandon (slot : Nat) (l : Tab (List Nat)) : Tab (List Nat) :=
  if slot = 255 then l.map fun e => (e.1, e.2.take 1) else l

/-! ### What late lists do to the line (R123, R124) -/

/-- Channels that some step of a list serves. -/
def State.servedBy (s : State) (inst slot : Nat) (codes : List Nat) : List Nat :=
  match s.slotDesc inst slot with
  | some d => if d.clearing then [] else ((s.stepWords d).filter fun w => codes.contains w.1).map fun w => w.2.1
  | none => []

/-- Channels whose next symbol is not complete at its launch: the list of the slot that ends has not given it. -/
def State.lateChans (s : State) (slot : Nat) (left : Tab (List Nat)) : List Nat :=
  (left.filter fun e => decide (e.1 < 16) && e.2.contains slot).flatMap fun e => s.servedBy e.1 slot [0x13]

/-- A unit of the receive path: transform, equaliser or crosstalk. -/
def receiveUnit (inst : Nat) : Bool :=
  decide (inst < 32) || (decide (64 ≤ inst) && decide (inst < 68))

/-- The lists, not yet begun, whose symbols arrived four slots ago, or which are abandoned. -/
def dropped (slot : Nat) (unbegun : List Nat) : List Nat :=
  unbegun.filter fun j => decide (slot = 255) || decide ((slot + 256 - j) % 256 = 3)

/-- Channel and arrival slot of received symbols that are dropped. -/
def State.erasures (s : State) (slot : Nat) (left : Tab (List Nat)) : List (Nat × Nat) :=
  (left.filter fun e => receiveUnit e.1).flatMap fun e =>
    (dropped slot (e.2.drop 1)).flatMap fun j =>
      (s.servedBy e.1 j [0x12, 0x21, 0x23, 0x51, 0x52]).map fun c => (c, (j + 255) % 256)

/-- A received symbol becomes an erasure for the decoder. -/
def Air.erase (slot : Nat) (a : Air) : Air :=
  { a with soft := updateIf (fun v : SoftSymbol => v.slot == slot) (fun v => { v with lam := List.replicate v.lam.length 0 }) a.soft }

def State.eraseEach : List (Nat × Nat) → State → State
  | [], s => s
  | (c, slot) :: t, s =>
    State.eraseEach t (if h : c < 64 then s.modChan ⟨c, h⟩ fun x => { x with air := x.air.erase slot } else s)

/-- Channels that have left their default state. -/
def State.liveChans (s : State) : List ChanId :=
  allChans.filter fun c => s.chans.any fun e => e.1 == c.val

/-- Each channel learns whether its next symbol is complete. -/
def State.setLate (s : State) (l : List Nat) : State :=
  eachChan (fun t c => t.modChan c fun x => { x with air := { x.air with late := l.contains c.val } }) s.liveChans s

end Sys2Proof.Machine
end

