-- ==== Sys2Proof/Machine/Schedule.lean ====
section
/-! DEFINITION. The schedule: the slot tick with its superframe-boundary work, slack and overrun, SRAM errors, the sensor reading
and the telemetry record (R109 to R130, R337, R440). -/

namespace Sys2Proof.Machine

/-! ### Slack, overrun and SRAM errors -/

def State.modTelem (s : State) (f : Telemetry → Telemetry) : State :=
  { s with telemA := f s.telemA, telemB := f s.telemB }

def State.modSched (s : State) (f : Sched → Sched) : State :=
  { s with sched := f s.sched }

/-- A slack in line samples as Table 6.5 encodes it. -/
def slackByte (v : Int) : Int :=
  max (-127) (min 127 v)

/-- The smallest slack of an instance. -/
def Telemetry.slackIn (x : Telemetry) (inst : Nat) (v : Int) : Telemetry :=
  { x with slack := Tab.set x.slack inst (min v (Tab.get v x.slack inst)) }

/-- Count a slot's overruns once (R123), with an address of class U. -/
def State.countOverrun (s : State) (e : Ended) : State :=
  if s.sched.counted.contains e.slot then s
  else
    ((s.modTelem fun x => { x with overruns := x.overruns + 1 }).occur 0x390 (some .device)
      (le 1 e.inst ++ le 1 e.slot ++ leInt 1 (slackByte e.slack))).modSched fun x => { x with counted := e.slot :: x.counted }

/-- The slack of an ended list: the smallest of the period is kept, and an overrun is counted. -/
def State.takeSlack (s : State) (e : Ended) : State :=
  if !s.measures e.slot e.inst then s
  else
    let s1 := s.modTelem fun x => x.slackIn e.inst (slackByte e.slack)
    if e.slack < 0 then s1.countOverrun e else s1

def takeSlacks : List Ended → State → State
  | [], s => s
  | e :: t, s => takeSlacks t (s.takeSlack e)

/-- Executions of step WW2 in lists that have ended, over the window walkers (R359). -/
def State.sweepsIn (s : State) (l : List Ended) : Nat :=
  ((l.filter fun e => decide (76 ≤ e.inst) && decide (e.inst < 80)).map fun e => s.runsOf e.inst e.slot 0x72).sum

/-- Walkers whose slots bring no report ran their lists all the same. -/
def State.silentEnds (s : State) (slot : Nat) (slack : List (Nat × Int)) (late : List Nat) : List Ended :=
  ([76, 77, 78, 79].filter fun i => !late.contains i).flatMap fun i =>
    ((s.sched.queue i slot).drop (reportsOf i slack).length).map fun j => ⟨i, j, 0⟩

/-- The lists of the slot that ends: slacks and overruns, sweeps, lists left behind, and their effects on the line. A slot that spans a
stop of the line domain is not measured (R126). -/
def State.endLists (s : State) (slack : List (Nat × Int)) (late : List Nat) : State :=
  let slot := s.clock.slot.toNat
  let ended := s.sched.ended slot slack
  let left := s.sched.leftAll slot slack late
  let n := s.sweepsIn (ended ++ s.silentEnds slot slack late)
  let s1 := if s.sched.unmeasured then s else takeSlacks ended s
  let s2 := if n = 0 then s1 else s1.sweepCache (64 * n)
  ((State.eraseEach (s.erasures slot left) s2).setLate (s.lateChans slot left)).modSched fun x => { x with
    behind := abandon slot left, unmeasured := false, counted := x.counted.filter fun j => j != (slot + 1) % 256 }

/-- Address of class S. -/
def addrSram (addr area : Nat) : Bytes :=
  le 4 addr ++ le 1 area

/-- The area byte of class S. -/
def areaCode : SramArea → Nat
  | .relay _ _ => 1
  | .retain _ => 2
  | .imageTables => 3
  | .other => 4

/-- A staged chunk of a relay that is not yet written fails as at a fixity mismatch (R395, R396, R440). -/
def State.loseStaged (s : State) (o : Op) (i : Nat) : State :=
  if o.kind == .relay && decide (o.nextWrite ≤ i) && (o.staged.any fun e => e.1 == i) then
    let h := responseHead (s.requestHead o.port o.queue o.chan 2 0 0 o.txn o.key o.offset) 3 0 0
    let s1 := (s.occurChan 3 o.chan (addrPacket h 0xFF)).modOp o.txn fun x => { x with
      staged := x.staged.filter fun e => e.1 != i }
    (s1.failChunk { o with staged := o.staged.filter fun e => e.1 != i } 0x0B i).advance
  else s

/-- A bit error that SECDED found (R440). -/
def State.sramError (s : State) (e : SramError) : State :=
  let addr := addrSram e.addr (areaCode e.area)
  if !e.double then
    (s.modTelem fun x => { x with corrections := x.corrections + 1 }).occur 0x397 (some .device) addr
  else
    let s1 := s.modTelem fun x => { x with uncorrectable := x.uncorrectable + 1 }
    match e.area with
    | .imageTables => s1.tableError addr
    | .relay txn i =>
      match s1.op txn with
      | some o => s1.loseStaged o i
      | none => s1
    | .retain c => if (s1.chan c).alive then s1.giveUp c false else s1
    | .other => s1.occur 0x396 (some .device) addr

def sramErrors : List SramError → State → State
  | [], s => s
  | e :: t, s => sramErrors t (s.sramError e)

/-- An armed inversion of the SRAM check makes the scrubber's next word fail (Table 18.9). -/
def State.injectedScrub (s : State) : State :=
  if (s.armedFor 1 0).isSome then
    let w := Config.scrubbed s.fresh
    let s1 := (s.useFresh.modTelem fun x => { x with uncorrectable := x.uncorrectable + 1 }).occur 0x396 (some .device)
      (addrSram w.1.toNat (nth 4 [1, 2, 4] w.2.val))
    s1.injected 1 0 0x396
  else s

/-! ### The boundary of a superframe -/

/-- The superframe that ends counts where the channel stands in DATA or QUIET (R236). -/
def State.countSuperframe (s : State) (c : ChanId) : State :=
  if (s.chan c).link.counts then s.modQuality c fun q => { q with counted := q.counted + 1 } else s

/-- A channel's work at a boundary: links held or woken resume (R84, R264), repetitions of training, deferred gain steps, the
expected sync symbol, and the received superframes of one whose symbols do not come one by one. -/
def State.chanBoundary (s : State) (c : ChanId) : State :=
  let s1 := (((s.resumeWoken c).resumeChan c).trainTick c).deferredGain c
  let s2 := if s1.expectsSync c then s1.modQuality c fun q => { q with syncS := q.syncS + 1 } else s1
  if (s2.chan c).stands .data && !(s2.chan c).air.aligned then
    s2.modChan c fun x => { x with air := { x.air with frames := x.air.frames + 1, preEqFrames := x.air.preEqFrames + 1 } }
  else s2

/-- What slot 0 begins with. -/
def State.boundary (s : State) : State :=
  (eachChan State.chanBoundary s.liveChans s).stepTrims.sendDeferred

/-! ### The first tick -/

/-- A channel stands in its start state (R105). -/
def State.startChan (s : State) (c : ChanId) : State :=
  if s.startCode c = 1 then s.modChan c fun x => { x with link := .sleep } else s

/-- CAL_N's high time begins to count at the first tick after reset, unless it was low at the strap sample (R451). -/
def State.beginCalCount (s : State) : State :=
  if s.pins.calN && !s.start.calHeld then s.modCalib fun k => { k with highSince := some s.clock.symbols } else s

/-- The schedule starts: superframe 0 after reset (R17), the next superframe after a dormant state (R274); no list is behind. -/
def State.firstTick (s : State) : State :=
  if s.start.kind = 0 then
    let s1 := { s with
      start := { s.start with stage := .running }, clock := { s.clock with sf := 0, slot := 0 }, sched := Sched.reset }
    (eachChan State.startChan allChans s1).beginCalCount
  else
    { s with
      start := { s.start with stage := .running, left := allChans.map s.leaveCode }
      clock := { s.clock with sf := s.clock.sf + 1, slot := 0 }
      sched := Sched.reset }

/-! ### SLOT_TICK -/

/-- The time base moves to the next slot. -/
def State.nextSlot (s : State) : State :=
  if s.clock.slot = 255 then
    let s1 := eachChan State.countSuperframe s.liveChans s
    { s1 with clock := { s1.clock with slot := 0, sf := s1.clock.sf + 1 } }
  else { s with clock := { s.clock with slot := s.clock.slot + 1 } }

/-- A new symbol of a channel carries no bits yet, and form S (R163). -/
def Chan.freshSymbol (x : Chan) : Chan :=
  { x with air := { x.air with bits := [], minus := false } }

/-- One symbol of a channel: alert, a waiting bit-swap request, the data symbol sent (symbol 0 is the sync symbol), and the symbol count
of DATA and QUIET (R386). -/
def State.chanSymbol (s : State) (c : ChanId) : State :=
  let s1 := (s.alertTick c).waitingSwap c
  let s2 := if s1.clock.slot = 0 then s1 else s1.txSymbol c
  if (s2.chan c).link.counts then s2.modRetry c fun r => { r with clock := r.clock + 1 } else s2

/-- A clearing of the scrubber checks 64 words; a pass takes 49,152 of them (Table 6.6). -/
def State.scrubTick (s : State) : State :=
  match s.sched.scrub with
  | some n =>
    if s.mayRun 86 3 then s.modSched fun x => { x with scrub := if n + 1 < 49152 then some (n + 1) else none } else s
  | none => s

/-- The background work that goes on slot by slot, each class in its own clearings (R127, R128). -/
def State.background (s : State) : State :=
  let s1 := s.scrubTick.calTick.noteAck.settleSoundings
  if s1.mayRun 84 1 then s1.postTick else s1

/-- What every slot does, once the time base stands at it. -/
def State.slotWork (s : State) : State :=
  let s1 := { s with clock := { s.clock with symbols := s.clock.symbols + 1 } }
  let s2 := ((s1.actAllHeld .a).actAllHeld .b).decideAll
  let s3 := eachChan (fun t c => t.modChan c Chan.freshSymbol) s2.liveChans s2
  let s4 := if s3.clock.slot = 0 then s3.boundary else s3
  ((eachChan State.chanSymbol s4.liveChans s4).owedStart .a).owedStart .b |>.background

/-- Channels that send or may send: those that have left their default state, and one that sounds. -/
def State.sendingChans (s : State) : List ChanId :=
  allChans.filter fun c => (s.chans.any fun e => e.1 == c.val) || (s.soundingOn c).isSome

/-- The symbol of the slot that ends: what was sent, what was received, the marks that pass, and the periods of noise measurements. -/
def State.endSlot (s : State) (received : List (ChanId × Reception)) : State :=
  let s1 := (eachChan State.sendSlot s.sendingChans s).receiveAll received
  eachChan (fun t c => (t.markTick c).noiseTurn c) s1.liveChans s1

/-- SLOT_TICK: with the slacks of the lists that ended in the slot that ends, by instance; the instances whose list for that slot has
not ended; the symbols received in it; and the bit errors found in it. -/
def execSlotTick (slack : List (Nat × Int)) (late : List Nat) (received : List (ChanId × Reception)) (errors : List SramError)
    (s : State) : Host.Outcome State Fault Refusal :=
  if s.clock.interrupted then .next s
  else if s.start.stage = .ready && s.start.recount.isNone then .next s.firstTick.slotWork
  else if s.start.stage = .running then
    .next (sramErrors errors (((s.endSlot received).endLists slack late).nextSlot.slotWork)).injectedScrub
  else .next s

/-! ### SENSOR_READING -/

/-- vmin at a temperature in 0.1 °C, rounded up to a whole 0.1 mV (R117, R125). -/
def envelopeAt (points : List (Int × Nat)) (t : Int) : Int :=
  match points with
  | [] => 0
  | [(_, v)] => v
  | (ta, a) :: (tb, b) :: r =>
    if t ≤ ta then a
    else if t ≤ tb then (a : Int) - (((a : Int) - b) * (t - ta)).fdiv (tb - ta)
    else envelopeAt ((tb, b) :: r) t

/-- The image's envelope with its temperatures. -/
def State.envelope (s : State) : List (Int × Nat) :=
  ([-100, 200, 500, 800, 1100] : List Int).zip s.image.envelope

/-- The highest of some temperatures. -/
def hottest : List Int → Int
  | [] => 0
  | [t] => t
  | t :: r => max t (hottest r)

/-- A reading in a port's telemetry period. -/
def Telemetry.reading (vcore : Nat) (temps : List Int) (vmin : Int) (shown : Nat) (violation : Bool) (x : Telemetry) :
    Telemetry :=
  let margin := (vcore : Int) - 50 - vmin
  let lower := match x.margin with | some m => decide (margin < m) | none => true
  { x with
    vcore := some (match x.vcore with | some v => min v vcore | none => vcore)
    vmin := if lower then shown else x.vmin
    margin := if lower then some margin else x.margin
    temps := if x.temps.isEmpty then temps else (x.temps.zip temps).map fun e => max e.1 e.2
    violations := x.violations + bit violation }

/-- A reading: the envelope check, the period's extremes, and the trims' temperature (R125, R446). Above 110 °C the telemetry field reads
0 (Table 14.13); the fault address carries the value compared. -/
def State.readSensors (s : State) (vcore : Nat) (temps : List Int) : State :=
  let tm := hottest temps
  let vmin := envelopeAt s.envelope (min (tm + 20) 1100)
  let shown := if 1100 < tm then 0 else vmin.toNat
  let bad := decide (1100 < tm) || decide (tm < -200) || decide ((vcore : Int) - 50 < vmin)
  let s1 := (s.modTelem (Telemetry.reading vcore temps vmin shown bad)).newTemp tm
  if bad then s1.occur 0x391 (some .device) (le 2 vcore ++ le 2 vmin.toNat ++ leInt 2 tm) else s1

/-- SENSOR_READING: VCORE in 0.1 mV and nine temperatures in 0.1 °C, every 16 superframes. -/
def execSensorReading (vcore : Nat) (temps : List Int) (s : State) : Host.Outcome State Fault Refusal :=
  if s.atBoundary && s.mayRun 87 4 && s.clock.sf.toNat % 16 == 0 && temps.length == 9 then .next (s.readSensors vcore temps) else .next s

/-! ### TELEMETRY_BOUNDARY -/

/-- A channel's byte of the telemetry record. -/
def State.chanSummary (s : State) (c : ChanId) : Nat :=
  let x := s.chan c
  x.link.code + 16 * (if x.link.counts then (min 15 ((minMargin x.load.rxTable x.rx.snr).fdiv 10)).toNat else 0)

/-- Channels in states that meet a test. -/
def State.chansIn (s : State) (f : LinkState → Bool) : Nat :=
  (allChans.filter fun c => f (s.chan c).link).length

/-- States other than DATA, QUIET, SLEEP and OFF. -/
def LinkState.other : LinkState → Bool
  | .data | .quiet | .sleep | .off => false
  | _ => true

/-- A telemetry record's bytes after its header (Table 14.13). -/
def State.telemetryBody (s : State) (p : Port) : Bytes :=
  let x := s.telem p
  let r := s.rings p
  let free := fun (i : Nat) => le 2 (Config.unread s.fresh i).toNat
  le 1 p.num ++
  le 1 (bit s.clock.source + 2 * bit (x.violations != 0) + 4 * bit (x.overruns != 0) + 8 * bit (r.lost != 0)) ++
  sat16 s.clock.switches ++ le 4 r.telemetrySeq.toNat ++
  (match x.vcore with
   | some v => le 2 v ++ le 2 x.vmin ++ x.temps.flatMap (leInt 2)
   | none => (List.range 11).flatMap free) ++
  sat16 x.overruns ++ ((List.range 88).flatMap fun i => leInt 1 (Tab.get (-128) x.slack i)) ++
  (allChans.flatMap fun c => le 1 (s.chanSummary c)) ++
  le 1 (s.chansIn (· == .data)) ++ le 1 (s.chansIn (· == .quiet)) ++ le 1 (s.chansIn (· == .sleep)) ++
  le 1 (s.chansIn (· == .off)) ++ le 1 (s.chansIn LinkState.other) ++ zeros 3 ++
  sat32 x.violations ++ le 4 r.lost.toNat ++ sat32 x.corrections ++ sat32 x.uncorrectable ++
  sat16 s.clock.dormantEntries ++ zeros 2 ++ sat32 (s.since x.since) ++ zeros 32

/-- A port's record of the period that ends, and a new period. -/
def State.telemetry (s : State) (p : Port) : State :=
  if (s.rings p).anchor.isSome && s.since (s.telem p).since != 0 then
    let body := s.telemetryBody p
    let s1 := (s.modRings p fun r => { r with telemetrySeq := r.telemetrySeq + 1, lost := 0 }).setTelem p
      { Telemetry.reset with since := s.clock.sf }
    s1.useFresh.record p 7 body
  else s

/-- TELEMETRY_BOUNDARY (R337, R486). -/
def execTelemetryBoundary (s : State) : Host.Outcome State Fault Refusal :=
  let n := s.par 0x0E00
  if s.atBoundary && s.mayRun 87 4 && n != 0 && s.clock.sf.toNat % n == s.par 0x0E01 then .next ((s.telemetry .a).telemetry .b)
  else .next s

end Sys2Proof.Machine
end

