-- ==== Sys2Proof/Machine/Crypto.lean ====
section
/-! DEFINITION. The standards that the image's digest and signature are defined by (R142, R143): SHA-256 and SHA-512 of FIPS 180-4,
and the verification of pure Ed25519 of RFC 8032 section 5.1. -/

namespace Sys2Proof.Machine

/-! ### The two hash functions, over words of a width -/

/-- Eight working words. -/
structure ShaWords (w : Nat) where
  a : BitVec w
  b : BitVec w
  c : BitVec w
  d : BitVec w
  e : BitVec w
  f : BitVec w
  g : BitVec w
  h : BitVec w
  deriving DecidableEq, Repr

/-- The rotations and shifts of a hash function: of Σ0, Σ1, σ0 and σ1. -/
structure ShaTurns where
  big0 : Nat × Nat × Nat
  big1 : Nat × Nat × Nat
  small0 : Nat × Nat × Nat
  small1 : Nat × Nat × Nat

/-- Three rotations. -/
def bigSigma {w : Nat} (r : Nat × Nat × Nat) (x : BitVec w) : BitVec w :=
  x.rotateRight r.1 ^^^ x.rotateRight r.2.1 ^^^ x.rotateRight r.2.2

/-- Two rotations and a shift. -/
def smallSigma {w : Nat} (r : Nat × Nat × Nat) (x : BitVec w) : BitVec w :=
  x.rotateRight r.1 ^^^ x.rotateRight r.2.1 ^^^ (x >>> r.2.2)

/-- n words of the message schedule, from a window of sixteen. -/
def shaSchedule {w : Nat} (t : ShaTurns) : Nat → List (BitVec w) → List (BitVec w)
  | 0, _ => []
  | n + 1, l =>
    let new := smallSigma t.small1 (nth 0 l 14) + nth 0 l 9 + smallSigma t.small0 (nth 0 l 1) + nth 0 l 0
    nth 0 l 0 :: shaSchedule t n (l.drop 1 ++ [new])

/-- One round with a constant and a word. -/
def shaRound {w : Nat} (t : ShaTurns) (x : ShaWords w) (k : BitVec w × BitVec w) : ShaWords w :=
  let ch := (x.e &&& x.f) ^^^ (~~~x.e &&& x.g)
  let maj := (x.a &&& x.b) ^^^ (x.a &&& x.c) ^^^ (x.b &&& x.c)
  let t1 := x.h + bigSigma t.big1 x.e + ch + k.1 + k.2
  let t2 := bigSigma t.big0 x.a + maj
  ⟨t1 + t2, x.a, x.b, x.c, x.d + t1, x.e, x.f, x.g⟩

/-- One block of sixteen words. -/
def shaBlock {w : Nat} (t : ShaTurns) (ks : List (BitVec w)) (x : ShaWords w) (block : List (BitVec w)) : ShaWords w :=
  let y := (ks.zip (shaSchedule t ks.length block)).foldl (shaRound t) x
  ⟨x.a + y.a, x.b + y.b, x.c + y.c, x.d + y.d, x.e + y.e, x.f + y.f, x.g + y.g, x.h + y.h⟩

/-- The value of bytes stored most significant first. -/
def unBe (b : Bytes) : Nat :=
  b.foldl (fun v x => 256 * v + x.toNat) 0

/-- n bytes of a value, most significant first. -/
def be (n v : Nat) : Bytes :=
  (le n v).reverse

/-- Cut a list into n pieces of k. -/
def cutInto {α : Type} (k : Nat) : Nat → List α → List (List α)
  | 0, _ => []
  | n + 1, l => l.take k :: cutInto k n (l.drop k)

/-- The padding of a message of n bytes for blocks of k bytes with a length field of m bytes. -/
def shaPadding (k m n : Nat) : Bytes :=
  [0x80] ++ zeros ((2 * k - 1 - m - n % k) % k) ++ be m (8 * n)

/-- Hash a message in blocks of 2w bytes, that is sixteen words of w bits. -/
def shaHash {w : Nat} (t : ShaTurns) (ks : List (BitVec w)) (start : ShaWords w) (msg : Bytes) : Bytes :=
  let k := 2 * w
  let m := msg ++ shaPadding k (w / 4) msg.length
  let words := fun (b : Bytes) => (cutInto (w / 8) 16 b).map fun x => BitVec.ofNat w (unBe x)
  let y := (cutInto k (m.length / k) m).foldl (fun x b => shaBlock t ks x (words b)) start
  [y.a, y.b, y.c, y.d, y.e, y.f, y.g, y.h].flatMap fun x => be (w / 8) x.toNat

/-- The constants of SHA-256, part 1. -/
def sha256KA : List (BitVec 32) :=
  [0x428A2F98, 0x71374491, 0xB5C0FBCF, 0xE9B5DBA5, 0x3956C25B, 0x59F111F1, 0x923F82A4, 0xAB1C5ED5,
   0xD807AA98, 0x12835B01, 0x243185BE, 0x550C7DC3, 0x72BE5D74, 0x80DEB1FE, 0x9BDC06A7, 0xC19BF174]

/-- The constants of SHA-256, part 2. -/
def sha256KB : List (BitVec 32) :=
  [0xE49B69C1, 0xEFBE4786, 0x0FC19DC6, 0x240CA1CC, 0x2DE92C6F, 0x4A7484AA, 0x5CB0A9DC, 0x76F988DA,
   0x983E5152, 0xA831C66D, 0xB00327C8, 0xBF597FC7, 0xC6E00BF3, 0xD5A79147, 0x06CA6351, 0x14292967]

/-- The constants of SHA-256, part 3. -/
def sha256KC : List (BitVec 32) :=
  [0x27B70A85, 0x2E1B2138, 0x4D2C6DFC, 0x53380D13, 0x650A7354, 0x766A0ABB, 0x81C2C92E, 0x92722C85,
   0xA2BFE8A1, 0xA81A664B, 0xC24B8B70, 0xC76C51A3, 0xD192E819, 0xD6990624, 0xF40E3585, 0x106AA070]

/-- The constants of SHA-256, part 4. -/
def sha256KD : List (BitVec 32) :=
  [0x19A4C116, 0x1E376C08, 0x2748774C, 0x34B0BCB5, 0x391C0CB3, 0x4ED8AA4A, 0x5B9CCA4F, 0x682E6FF3,
   0x748F82EE, 0x78A5636F, 0x84C87814, 0x8CC70208, 0x90BEFFFA, 0xA4506CEB, 0xBEF9A3F7, 0xC67178F2]

/-- The constants of SHA-256. -/
def sha256K : List (BitVec 32) :=
  sha256KA ++ sha256KB ++ sha256KC ++ sha256KD

def sha256Start : ShaWords 32 :=
  ⟨0x6A09E667, 0xBB67AE85, 0x3C6EF372, 0xA54FF53A, 0x510E527F, 0x9B05688C, 0x1F83D9AB, 0x5BE0CD19⟩

def sha256Turns : ShaTurns :=
  ⟨(2, 13, 22), (6, 11, 25), (7, 18, 3), (17, 19, 10)⟩

/-- SHA-256, 32 bytes. -/
def sha256 (msg : Bytes) : Bytes :=
  shaHash sha256Turns sha256K sha256Start msg

/-- The constants of SHA-512, part 1. -/
def sha512KA : List (BitVec 64) :=
  [0x428A2F98D728AE22, 0x7137449123EF65CD, 0xB5C0FBCFEC4D3B2F, 0xE9B5DBA58189DBBC,
   0x3956C25BF348B538, 0x59F111F1B605D019, 0x923F82A4AF194F9B, 0xAB1C5ED5DA6D8118,
   0xD807AA98A3030242, 0x12835B0145706FBE, 0x243185BE4EE4B28C, 0x550C7DC3D5FFB4E2,
   0x72BE5D74F27B896F, 0x80DEB1FE3B1696B1, 0x9BDC06A725C71235, 0xC19BF174CF692694]

/-- The constants of SHA-512, part 2. -/
def sha512KB : List (BitVec 64) :=
  [0xE49B69C19EF14AD2, 0xEFBE4786384F25E3, 0x0FC19DC68B8CD5B5, 0x240CA1CC77AC9C65,
   0x2DE92C6F592B0275, 0x4A7484AA6EA6E483, 0x5CB0A9DCBD41FBD4, 0x76F988DA831153B5,
   0x983E5152EE66DFAB, 0xA831C66D2DB43210, 0xB00327C898FB213F, 0xBF597FC7BEEF0EE4,
   0xC6E00BF33DA88FC2, 0xD5A79147930AA725, 0x06CA6351E003826F, 0x142929670A0E6E70]

/-- The constants of SHA-512, part 3. -/
def sha512KC : List (BitVec 64) :=
  [0x27B70A8546D22FFC, 0x2E1B21385C26C926, 0x4D2C6DFC5AC42AED, 0x53380D139D95B3DF,
   0x650A73548BAF63DE, 0x766A0ABB3C77B2A8, 0x81C2C92E47EDAEE6, 0x92722C851482353B,
   0xA2BFE8A14CF10364, 0xA81A664BBC423001, 0xC24B8B70D0F89791, 0xC76C51A30654BE30,
   0xD192E819D6EF5218, 0xD69906245565A910, 0xF40E35855771202A, 0x106AA07032BBD1B8]

/-- The constants of SHA-512, part 4. -/
def sha512KD : List (BitVec 64) :=
  [0x19A4C116B8D2D0C8, 0x1E376C085141AB53, 0x2748774CDF8EEB99, 0x34B0BCB5E19B48A8,
   0x391C0CB3C5C95A63, 0x4ED8AA4AE3418ACB, 0x5B9CCA4F7763E373, 0x682E6FF3D6B2B8A3,
   0x748F82EE5DEFB2FC, 0x78A5636F43172F60, 0x84C87814A1F0AB72, 0x8CC702081A6439EC,
   0x90BEFFFA23631E28, 0xA4506CEBDE82BDE9, 0xBEF9A3F7B2C67915, 0xC67178F2E372532B]

/-- The constants of SHA-512, part 5. -/
def sha512KE : List (BitVec 64) :=
  [0xCA273ECEEA26619C, 0xD186B8C721C0C207, 0xEADA7DD6CDE0EB1E, 0xF57D4F7FEE6ED178,
   0x06F067AA72176FBA, 0x0A637DC5A2C898A6, 0x113F9804BEF90DAE, 0x1B710B35131C471B,
   0x28DB77F523047D84, 0x32CAAB7B40C72493, 0x3C9EBE0A15C9BEBC, 0x431D67C49C100D4C,
   0x4CC5D4BECB3E42B6, 0x597F299CFC657E2A, 0x5FCB6FAB3AD6FAEC, 0x6C44198C4A475817]

/-- The constants of SHA-512. -/
def sha512K : List (BitVec 64) :=
  sha512KA ++ sha512KB ++ sha512KC ++ sha512KD ++ sha512KE

def sha512Start : ShaWords 64 :=
  ⟨0x6A09E667F3BCC908, 0xBB67AE8584CAA73B, 0x3C6EF372FE94F82B, 0xA54FF53A5F1D36F1,
   0x510E527FADE682D1, 0x9B05688C2B3E6C1F, 0x1F83D9ABFB41BD6B, 0x5BE0CD19137E2179⟩

def sha512Turns : ShaTurns :=
  ⟨(28, 34, 39), (14, 18, 41), (1, 8, 7), (19, 61, 6)⟩

/-- SHA-512, 64 bytes. -/
def sha512 (msg : Bytes) : Bytes :=
  shaHash sha512Turns sha512K sha512Start msg

/-! ### Ed25519 -/

/-- The prime 2^255 − 19. -/
def edPrime : Nat := 2 ^ 255 - 19

/-- The order of the base point. -/
def edOrder : Nat := 2 ^ 252 + 27742317777372353535851937790883648493

/-- The curve constant −121665/121666. -/
def edD : Nat := 37095705934669439343138083508754565189542113879843219016388785533085940283555

/-- A square root of −1. -/
def edRoot : Nat := 19681161376707505956807079304988542015446066515923890162744021073123829784752

def edAdd (a b : Nat) : Nat := (a + b) % edPrime
def edSub (a b : Nat) : Nat := (a + (edPrime - b % edPrime)) % edPrime
def edMul (a b : Nat) : Nat := (a * b) % edPrime

/-- acc × a^e, for an exponent below 2^n. -/
def edPow : Nat → Nat → Nat → Nat → Nat
  | 0, _, _, acc => acc
  | n + 1, a, e, acc => edPow n (edMul a a) (e / 2) (if e % 2 = 1 then edMul acc a else acc)

def edInv (a : Nat) : Nat := edPow 255 a (edPrime - 2) 1

/-- A point in extended coordinates: X, Y, Z and T with XY = ZT. -/
structure EdPoint where
  x : Nat
  y : Nat
  z : Nat
  t : Nat
  deriving DecidableEq, Repr

def EdPoint.zero : EdPoint := ⟨0, 1, 1, 0⟩

/-- The base point. -/
def EdPoint.base : EdPoint :=
  let x := 15112221349535400772501151409588531511454012693041857206046113283949847762202
  let y := 46316835694926478169428394003475163141307993866256225615783033603165251855960
  ⟨x, y, 1, edMul x y⟩

def EdPoint.add (p q : EdPoint) : EdPoint :=
  let a := edMul (edSub p.y p.x) (edSub q.y q.x)
  let b := edMul (edAdd p.y p.x) (edAdd q.y q.x)
  let c := edMul (edMul (edAdd p.t p.t) edD) q.t
  let d := edMul (edAdd p.z p.z) q.z
  let e := edSub b a
  let f := edSub d c
  let g := edAdd d c
  let h := edAdd b a
  ⟨edMul e f, edMul g h, edMul f g, edMul e h⟩

def EdPoint.neg (p : EdPoint) : EdPoint :=
  ⟨edSub 0 p.x, p.y, p.z, edSub 0 p.t⟩

/-- acc + k × p, for a multiplier below 2^n. -/
def EdPoint.mul : Nat → Nat → EdPoint → EdPoint → EdPoint
  | 0, _, _, acc => acc
  | n + 1, k, p, acc => EdPoint.mul n (k / 2) (p.add p) (if k % 2 = 1 then acc.add p else acc)

/-- The encoding of a point: y, with the sign of x in bit 255. -/
def EdPoint.encode (p : EdPoint) : Bytes :=
  let i := edInv p.z
  le 32 (edMul p.y i + 2 ^ 255 * (edMul p.x i % 2))

/-- The point of 32 bytes; none for an encoding that is not canonical or names no point. -/
def EdPoint.decode (b : Bytes) : Option EdPoint :=
  let v := field b 0 32
  let y := v % 2 ^ 255
  let sign := v / 2 ^ 255
  let yy := edMul y y
  let xx := edMul (edSub yy 1) (edInv (edAdd (edMul edD yy) 1))
  let r := edPow 255 xx ((edPrime + 3) / 8) 1
  let x := if edMul r r = xx then r else edMul r edRoot
  if edPrime ≤ y || edMul x x != xx || (x == 0 && sign == 1) then none
  else
    let x := if x % 2 = sign then x else edSub 0 x
    some ⟨x, y, 1, edMul x y⟩

/-- Does a signature verify (R143)? The group equation S·B = R + k·A, without the cofactor: bytes 0 to 31 equal the canonical encoding
of S·B − k·A. -/
def edVerify (key sig msg : Bytes) : Bool :=
  match EdPoint.decode key with
  | none => false
  | some a =>
    let s := field sig 32 32
    let k := unLe (sha512 (slice sig 0 32 ++ key ++ msg))
    decide (s < edOrder) &&
      (EdPoint.mul 256 s EdPoint.base (EdPoint.mul 512 k a.neg EdPoint.zero)).encode == slice sig 0 32

end Sys2Proof.Machine
end

