-- ==== Sys2Proof/Machine/ParamTable.lean ====
section
/-! DEFINITION. The 512 parameters of format version 0x0001 with their types and ranges (Tables 20.4 to 20.10, 21.4 to
21.10). -/

namespace Sys2Proof.Machine

/-- A parameter's row: ID, element size in bytes, elements, two's complement, least and greatest value of an element,
whether 0 is allowed beside that range, and the step of the range. A fixed parameter's range is its one value (R466);
where a rule of Table 20.3 or 21.3 gives the range, the row holds the whole type. -/
structure ParamSpec where
  id : Nat
  size : Nat
  count : Nat
  signed : Bool
  low : Int
  high : Int
  zero : Bool
  step : Nat
  deriving DecidableEq, Repr

/-- Shorthand of a row of unsigned elements. -/
def ps (id size count : Nat) (low high : Int) : ParamSpec :=
  ⟨id, size, count, false, low, high, false, 1⟩

/-- Shorthand of a row of one signed element. -/
def psS (id : Nat) (low high : Int) : ParamSpec :=
  ⟨id, 2, 1, true, low, high, false, 1⟩

/-- Shorthand of a row whose elements may also be 0, in steps. -/
def psZ (id size count : Nat) (low high : Int) (step : Nat) : ParamSpec :=
  ⟨id, size, count, false, low, high, true, step⟩

def paramsClkA : List ParamSpec :=
  [ps 0x0100 1 1 12 12,
   ps 0x0101 1 1 128 128,
   ps 0x0102 1 1 64 64,
   ps 0x0103 1 1 5 5,
   ps 0x0104 1 1 20 20,
   ps 0x0105 2 1 1024 1024,
   ps 0x0106 1 1 144 144,
   ps 0x0107 2 1 256 256,
   ps 0x0108 1 1 48 48,
   ps 0x0109 1 1 64 64,
   ps 0x010A 2 1 2048 2048,
   ps 0x010B 4 1 250000 250000]

def paramsHlA : List ParamSpec :=
  [ps 0x0200 2 1 2 4069,
   ps 0x0201 2 1 2 4069,
   ps 0x0202 2 1 256 256,
   ps 0x0203 2 1 512 512,
   ps 0x0204 2 1 256 256,
   ps 0x0205 2 1 2048 2048,
   ps 0x0206 2 1 2048 2048,
   ps 0x0207 1 1 4 4,
   ps 0x0208 4 1 125000 125000,
   ps 0x0209 4 1 625000 625000,
   ps 0x020A 4 1 687500 687500,
   ps 0x020B 4 1 750000 750000,
   ps 0x020C 2 1 2500 2500,
   ps 0x020D 2 1 16384 16384,
   ps 0x020E 1 1 64 64,
   ps 0x020F 2 1 200 200,
   ps 0x0210 1 1 64 64,
   ps 0x0211 1 1 64 64,
   ps 0x0212 2 1 256 256,
   ps 0x0213 2 1 1024 1024,
   ps 0x0214 1 1 4 4,
   ps 0x0215 1 1 64 64,
   ps 0x0216 1 1 16 16,
   ps 0x0217 1 1 16 16,
   ps 0x0218 1 1 64 64,
   ps 0x0219 1 1 1 1]

def paramsHlB : List ParamSpec :=
  [ps 0x021A 2 1 256 256,
   ps 0x021B 2 1 500 500]

def paramsChA : List ParamSpec :=
  [ps 0x0300 1 64 0 2,
   ps 0x0301 1 64 0 1,
   ps 0x0302 1 64 0 255,
   ps 0x0303 1 64 0 1,
   ps 0x0304 1 64 0 60,
   ps 0x0305 1 64 0 1,
   ps 0x0306 1 64 0 1,
   ps 0x0307 2 64 0 150,
   ps 0x0308 2 64 0 150,
   ps 0x0309 2 64 0 150,
   ps 0x030A 8 64 0 18446744073709551615,
   ps 0x030B 2 64 814 8138,
   ps 0x030C 1 64 1 16,
   ps 0x030D 1 64 6 16,
   ps 0x030E 1 64 8 20,
   ps 0x030F 1 64 8 20,
   ps 0x0310 1 64 6 16,
   ps 0x0311 1 1 128 128,
   ps 0x0312 1 1 16 16,
   ps 0x0313 1 1 4 4,
   ps 0x0314 1 1 63 63,
   ps 0x0315 1 1 16 16,
   ps 0x0316 1 1 1 1,
   ps 0x0317 1 1 3 3,
   ps 0x0318 2 1 5623 5623,
   psS 0x0319 (-12) (-12)]

def paramsChB : List ParamSpec :=
  [psS 0x031A (2) (2),
   ps 0x031B 1 1 12 12,
   ps 0x031C 2 1 511 511,
   ps 0x031D 2 1 2047 2047,
   ps 0x031E 4 1 8388607 8388607,
   ps 0x031F 2 1 2304 2304,
   ps 0x0320 2 1 2048 2048,
   ps 0x0321 1 1 128 128,
   ps 0x0322 1 1 251 251,
   ps 0x0323 2 1 1800 1800,
   psS 0x0324 (40) (40),
   ps 0x0325 1 1 31 31,
   ps 0x0326 1 1 127 127,
   ps 0x0327 1 1 1 1,
   psS 0x0328 (-120) (-120),
   ps 0x0329 1 1 10 10,
   ps 0x032A 1 1 75 75,
   ps 0x032B 1 1 4 4,
   ps 0x032C 1 1 32 32,
   ps 0x032D 1 1 128 128,
   ps 0x032E 1 1 132 132,
   ps 0x032F 1 1 32 32,
   ps 0x0330 1 1 8 8,
   ps 0x0331 2 1 256 256,
   ps 0x0332 1 1 64 64,
   ps 0x0333 1 1 120 120]

def paramsChC : List ParamSpec :=
  [ps 0x0334 1 1 10 10,
   ps 0x0335 1 1 64 64,
   ps 0x0336 2 1 384 384,
   ps 0x0337 1 1 60 60,
   psS 0x0338 (-50) (-50),
   ps 0x0339 1 1 4 4,
   ps 0x033A 2 1 256 256,
   ps 0x033B 1 1 128 128,
   ps 0x033C 1 1 55 55,
   ps 0x033D 1 1 6 6,
   ps 0x033E 1 1 12 12,
   ps 0x033F 1 1 2 2,
   ps 0x0340 1 1 2 2,
   ps 0x0341 1 1 2 2,
   ps 0x0342 1 1 4 4,
   ps 0x0343 1 1 1 1,
   ps 0x0344 1 1 32 32,
   ps 0x0345 1 1 32 32,
   ps 0x0346 1 1 32 32,
   ps 0x0347 1 1 61 61,
   psS 0x0348 (0) (0),
   ps 0x0349 1 1 20 20]

def paramsLgA : List ParamSpec :=
  [ps 0x0400 1 64 0 3,
   ps 0x0401 1 64 0 1,
   ps 0x0402 2 1 162 162,
   ps 0x0403 1 1 16 16,
   ps 0x0404 2 1 2048 2048,
   ps 0x0405 1 1 64 64,
   ps 0x0406 2 1 1296 1296,
   ps 0x0407 1 1 4 4,
   ps 0x0408 2 1 256 256,
   ps 0x0409 2 1 512 512,
   ps 0x040A 2 1 512 512,
   ps 0x040B 2 1 256 256,
   ps 0x040C 2 1 1024 1024,
   ps 0x040D 1 1 4 4,
   ps 0x040E 1 1 16 16,
   ps 0x040F 1 1 48 48,
   ps 0x0410 1 1 16 16,
   ps 0x0411 1 1 64 64]

def paramsLqA : List ParamSpec :=
  [psZ 0x0500 2 64 16 65535 1,
   ps 0x0501 2 1 256 256,
   ps 0x0502 2 1 256 256,
   ps 0x0503 1 1 48 48,
   ps 0x0504 1 1 30 30,
   ps 0x0505 1 1 8 8,
   ps 0x0506 1 1 24 24,
   ps 0x0507 1 1 64 64,
   ps 0x0508 1 1 4 4,
   ps 0x0509 1 1 16 16,
   ps 0x050A 1 1 4 4,
   ps 0x050B 1 1 8 8,
   ps 0x050C 1 1 2 2,
   ps 0x050D 1 1 2 2,
   psS 0x050E (-40) (-40),
   ps 0x050F 1 1 64 64,
   ps 0x0510 1 1 25 25,
   psS 0x0511 (-180) (-180),
   ps 0x0512 1 1 5 5,
   ps 0x0513 1 1 16 16,
   ps 0x0514 1 1 10 10,
   psS 0x0515 (-60) (-60)]

def paramsWkA : List ParamSpec :=
  [ps 0x0600 2 64 82 65535,
   ps 0x0601 1 64 1 8,
   ps 0x0602 2 64 814 65535,
   ps 0x0603 2 64 82 65535,
   ps 0x0604 1 1 81 81,
   ps 0x0605 1 1 16 16,
   ps 0x0606 1 1 8 8,
   ps 0x0607 1 1 2 2,
   ps 0x0608 1 1 64 64,
   ps 0x0609 1 1 2 2,
   ps 0x060A 1 1 64 64,
   ps 0x060B 1 1 4 4,
   ps 0x060C 1 1 4 4,
   ps 0x060D 2 1 1500 1500,
   ps 0x060E 1 1 20 20,
   ps 0x060F 1 1 16 16,
   ps 0x0610 1 1 32 32,
   psS 0x0611 (-450) (-450),
   psS 0x0612 (-600) (-600),
   ps 0x0613 2 1 300 300,
   ps 0x0614 2 1 700 700,
   ps 0x0615 1 1 20 20,
   ps 0x0616 1 1 17 17,
   ps 0x0617 1 1 2 2,
   ps 0x0618 1 1 2 2,
   ps 0x0619 1 1 32 32]

def paramsWkB : List ParamSpec :=
  [ps 0x061A 1 1 64 64,
   ps 0x061B 1 1 12 12,
   ps 0x061C 1 1 190 190,
   ps 0x061D 1 1 1 1]

def paramsTpA : List ParamSpec :=
  [ps 0x0700 2 1024 0 65535,
   ps 0x0701 1 1024 0 255,
   ps 0x0702 1 1024 0 1,
   ps 0x0703 1 1024 0 1,
   ps 0x0704 1 64 0 1,
   ps 0x0705 2 64 256 1333,
   ps 0x0706 2 64 2 4069,
   ps 0x0707 2 64 0 65535,
   ps 0x0708 2 1 0 65535,
   ps 0x0709 1 1 32 32,
   ps 0x070A 2 1 4096 4096,
   ps 0x070B 2 1 4096 4096,
   ps 0x070C 1 1 8 8,
   ps 0x070D 8 1 4823603603198064275 4823603603198064275,
   ps 0x070E 8 1 7800480153909949255 7800480153909949255,
   ps 0x070F 4 1 517762881 517762881,
   ps 0x0710 4 1 3808858755 3808858755,
   ps 0x0711 2 1 512 512,
   ps 0x0712 2 1 256 256,
   ps 0x0713 1 1 12 12,
   ps 0x0714 1 1 16 16,
   ps 0x0715 1 1 64 64,
   ps 0x0716 1 1 8 8,
   ps 0x0717 2 1 256 256,
   ps 0x0718 1 1 32 32,
   ps 0x0719 2 1 512 512]

def paramsTpB : List ParamSpec :=
  [ps 0x071A 2 1 16384 16384,
   ps 0x071B 2 1 8192 8192,
   ps 0x071C 1 1 128 128,
   ps 0x071D 2 1 512 512,
   ps 0x071E 1 1 48 48,
   ps 0x071F 2 1 4096 4096,
   ps 0x0720 2 1 512 512,
   ps 0x0721 2 1 4096 4096,
   ps 0x0722 1 1 22 22,
   ps 0x0723 1 1 32 32,
   ps 0x0724 1 1 38 38,
   ps 0x0725 1 1 64 64,
   ps 0x0726 1 1 67 67,
   ps 0x0727 1 1 9 9,
   ps 0x0728 1 1 11 11,
   ps 0x0729 1 1 22 22,
   ps 0x072A 1 1 64 64,
   ps 0x072B 1 1 16 16,
   ps 0x072C 1 1 32 32,
   ps 0x072D 1 1 8 8,
   ps 0x072E 2 1 4096 4096,
   ps 0x072F 1 1 1 1,
   ps 0x0730 1 1 8 8,
   ps 0x0731 1 1 64 64,
   ps 0x0732 1 1 12 12,
   ps 0x0733 1 1 9 9]

def paramsTpC : List ParamSpec :=
  [ps 0x0734 1 1 8 8,
   ps 0x0735 1 1 64 64,
   ps 0x0736 1 1 8 8,
   ps 0x0737 1 1 1 1,
   ps 0x0738 1 1 1 1,
   ps 0x0739 2 1 1000 1000,
   ps 0x073A 4 1 65536 65536,
   ps 0x073B 1 1 1 1,
   ps 0x073C 2 1 1000 1000,
   ps 0x073D 2 1 896 896,
   ps 0x073E 2 1 912 912,
   ps 0x073F 1 1 30 30]

def paramsWinA : List ParamSpec :=
  [ps 0x0800 1 1 1 81,
   ps 0x0801 1 1 1 255,
   ps 0x0802 1 1 1 16,
   ps 0x0803 2 1 1 65535,
   ps 0x0804 2 1 4096 4096,
   ps 0x0805 1 1 64 64,
   ps 0x0806 1 1 3 3,
   ps 0x0807 2 1 256 256,
   ps 0x0808 1 1 32 32,
   ps 0x0809 4 1 65536 65536,
   ps 0x080A 2 1 256 256,
   ps 0x080B 1 1 8 8,
   ps 0x080C 1 1 64 64,
   ps 0x080D 1 1 40 40,
   ps 0x080E 1 1 2 2,
   ps 0x080F 2 1 65535 65535,
   ps 0x0810 2 1 1 1,
   ps 0x0811 1 1 62 62,
   ps 0x0812 1 1 20 20,
   ps 0x0813 2 1 1000 1000,
   ps 0x0814 1 1 2 2,
   ps 0x0815 1 1 81 81,
   ps 0x0816 1 1 16 16,
   ps 0x0817 1 1 2 2,
   ps 0x0818 1 1 2 2,
   ps 0x0819 2 1 4096 4096]

def paramsStrA : List ParamSpec :=
  [ps 0x0900 1 1024 0 3,
   psZ 0x0901 4 1024 65536 1048576 4096,
   ps 0x0902 2 1024 0 19660,
   psZ 0x0903 4 1024 4096 4294963200 4096,
   ps 0x0904 2 1024 0 65535,
   ps 0x0905 8 1024 0 18446744073709551615,
   ps 0x0906 2 1024 0 65535,
   ps 0x0907 4 1024 0 4294967295,
   ps 0x0908 1 1 64 64,
   ps 0x0909 4 1 1111904577 1111904577,
   ps 0x090A 1 1 1 1,
   ps 0x090B 4 1 65536 65536,
   ps 0x090C 4 1 1048576 1048576,
   ps 0x090D 2 1 4096 4096,
   ps 0x090E 2 1 19660 19660,
   ps 0x090F 2 1 4096 4096,
   ps 0x0910 4 1 4294963200 4294963200,
   ps 0x0911 2 1 65535 65535,
   ps 0x0912 2 1 65535 65535,
   ps 0x0913 4 1 1048576 1048576,
   ps 0x0914 1 1 80 80,
   ps 0x0915 1 1 2 2,
   ps 0x0916 1 1 18 18,
   ps 0x0917 1 1 22 22]

def paramsFltA : List ParamSpec :=
  [ps 0x0A00 1 1 1 255,
   ps 0x0A01 2 1 1 65535,
   ps 0x0A02 1 1 0 1,
   ps 0x0A03 1 1 1 255,
   ps 0x0A04 2 1 1 65535,
   ps 0x0A05 1 1 0 1,
   ps 0x0A06 1 1 1 255,
   ps 0x0A07 2 1 1 65535,
   ps 0x0A08 1 1 0 1,
   ps 0x0A09 1 1 1 255,
   ps 0x0A0A 2 1 1 65535,
   ps 0x0A0B 1 1 0 1,
   ps 0x0A0C 1 1 1 255,
   ps 0x0A0D 2 1 1 65535,
   ps 0x0A0E 1 1 0 1,
   ps 0x0A0F 1 1 1 255,
   ps 0x0A10 2 1 1 65535,
   ps 0x0A11 1 1 0 1,
   ps 0x0A12 1 1 1 255,
   ps 0x0A13 2 1 1 65535,
   ps 0x0A14 1 1 0 1,
   ps 0x0A15 1 1 1 255,
   ps 0x0A16 2 1 1 65535,
   ps 0x0A17 1 1 0 1,
   ps 0x0A18 1 1 1 255,
   ps 0x0A19 2 1 1 65535]

def paramsFltB : List ParamSpec :=
  [ps 0x0A1A 1 1 0 1,
   ps 0x0A1B 1 1 1 255,
   ps 0x0A1C 2 1 1 65535,
   ps 0x0A1D 1 1 0 1,
   ps 0x0A1E 1 1 1 255,
   ps 0x0A1F 2 1 1 65535,
   ps 0x0A20 1 1 0 1,
   ps 0x0A21 1 1 1 255,
   ps 0x0A22 2 1 1 65535,
   ps 0x0A23 1 1 0 1,
   ps 0x0A24 1 1 1 255,
   ps 0x0A25 2 1 1 65535,
   ps 0x0A26 1 1 0 1,
   ps 0x0A27 1 1 1 255,
   ps 0x0A28 2 1 1 65535,
   ps 0x0A29 1 1 0 1,
   ps 0x0A2A 1 1 1 255,
   ps 0x0A2B 2 1 1 65535,
   ps 0x0A2C 1 1 0 1,
   ps 0x0A2D 1 1 1 255,
   ps 0x0A2E 2 1 1 65535,
   ps 0x0A2F 1 1 0 1,
   ps 0x0A30 1 1 1 255,
   ps 0x0A31 2 1 1 65535,
   ps 0x0A32 1 1 0 1,
   ps 0x0A33 1 1 1 255]

def paramsFltC : List ParamSpec :=
  [ps 0x0A34 2 1 1 65535,
   ps 0x0A35 1 1 0 1,
   ps 0x0A36 1 1 1 255,
   ps 0x0A37 2 1 1 65535,
   ps 0x0A38 1 1 0 1,
   ps 0x0A39 1 1 1 255,
   ps 0x0A3A 2 1 1 65535,
   ps 0x0A3B 1 1 0 1,
   ps 0x0A3C 1 1 1 255,
   ps 0x0A3D 2 1 1 65535,
   ps 0x0A3E 1 1 0 1,
   ps 0x0A3F 1 1 1 255,
   ps 0x0A40 2 1 1 65535,
   ps 0x0A41 1 1 0 1,
   ps 0x0A42 1 1 1 255,
   ps 0x0A43 2 1 1 65535,
   ps 0x0A44 1 1 0 1,
   ps 0x0A45 1 1 1 255,
   ps 0x0A46 2 1 1 65535,
   ps 0x0A47 1 1 0 1,
   ps 0x0A48 1 1 1 255,
   ps 0x0A49 2 1 1 65535,
   ps 0x0A4A 1 1 0 1,
   ps 0x0A4B 1 1 1 255,
   ps 0x0A4C 2 1 1 65535,
   ps 0x0A4D 1 1 0 1]

def paramsFltD : List ParamSpec :=
  [ps 0x0A4E 1 1 1 255,
   ps 0x0A4F 2 1 1 65535,
   ps 0x0A50 1 1 0 1,
   ps 0x0A51 1 1 1 255,
   ps 0x0A52 2 1 1 65535,
   ps 0x0A53 1 1 0 1,
   ps 0x0A54 1 1 1 255,
   ps 0x0A55 2 1 1 65535,
   ps 0x0A56 1 1 0 1,
   ps 0x0A57 1 1 1 255,
   ps 0x0A58 2 1 1 65535,
   ps 0x0A59 1 1 0 1,
   ps 0x0A5A 4 1 209 2083334,
   ps 0x0A5B 4 1 209 2083334,
   ps 0x0A5C 4 1 209 2083334,
   ps 0x0A5D 4 1 0 4294967295,
   ps 0x0A5E 1 1 0 1,
   ps 0x0A5F 1 1 0 2]

def paramsCalA : List ParamSpec :=
  [ps 0x0B00 1 1 0 1,
   ps 0x0B01 2 1 0 65535,
   psS 0x0B02 (-10) (-10),
   psS 0x0B03 (20) (20),
   psS 0x0B04 (50) (50),
   psS 0x0B05 (80) (80),
   psS 0x0B06 (110) (110),
   ps 0x0B07 1 1 40 40,
   ps 0x0B08 1 1 20 20,
   ps 0x0B09 2 1 814 814,
   ps 0x0B0A 1 1 50 50,
   ps 0x0B0B 2 1 1000 1000,
   ps 0x0B0C 2 1 288 288,
   ps 0x0B0D 2 1 256 256,
   ps 0x0B0E 1 1 18 18,
   ps 0x0B0F 1 1 16 16,
   ps 0x0B10 1 1 4 4,
   ps 0x0B11 1 1 8 8,
   ps 0x0B12 1 1 4 4,
   ps 0x0B13 1 1 30 30,
   ps 0x0B14 1 1 52 52,
   ps 0x0B15 1 1 20 20,
   ps 0x0B16 1 1 5 5,
   ps 0x0B17 1 1 1 1,
   ps 0x0B18 1 1 1 1,
   ps 0x0B19 2 1 40000 40000]

def paramsCalB : List ParamSpec :=
  [ps 0x0B1A 1 1 1 1,
   ps 0x0B1B 1 1 179 179,
   ps 0x0B1C 1 1 224 224,
   ps 0x0B1D 1 1 16 16,
   ps 0x0B1E 2 1 25000 25000,
   ps 0x0B1F 4 1 250000000 250000000,
   ps 0x0B20 4 1 2500000 2500000,
   ps 0x0B21 4 1 4294967294 4294967294,
   ps 0x0B22 1 1 32 32,
   ps 0x0B23 2 1 20000 20000,
   ps 0x0B24 1 1 8 8,
   ps 0x0B25 1 1 2 2,
   ps 0x0B26 2 1 256 256,
   ps 0x0B27 2 1 256 256]

def paramsDgA : List ParamSpec :=
  [ps 0x0C00 2 64 500 990,
   ps 0x0C01 2 64 0 500,
   ps 0x0C02 1 1 32 32,
   ps 0x0C03 1 1 64 64,
   ps 0x0C04 1 1 64 64,
   ps 0x0C05 1 1 4 4,
   ps 0x0C06 1 1 10 10,
   ps 0x0C07 2 1 2000 2000,
   ps 0x0C08 1 1 8 8,
   psS 0x0C09 (-40) (-40),
   ps 0x0C0A 1 1 10 10,
   psS 0x0C0B (-3) (-3),
   ps 0x0C0C 1 1 4 4,
   ps 0x0C0D 1 1 10 10,
   psS 0x0C0E (-30) (-30),
   ps 0x0C0F 1 1 2 2,
   ps 0x0C10 1 1 30 30,
   ps 0x0C11 2 1 750 750,
   ps 0x0C12 1 1 5 5,
   ps 0x0C13 1 1 5 5]

def paramsSchA : List ParamSpec :=
  [ps 0x0D00 2 1 6500 8500,
   ps 0x0D01 2 1 6500 8500,
   ps 0x0D02 2 1 6500 8500,
   ps 0x0D03 2 1 6500 8500,
   ps 0x0D04 2 1 6500 8500,
   ps 0x0D05 2 1 2000 10000,
   ps 0x0D06 1 1 1 13,
   ps 0x0D07 2 1 0 65535,
   ps 0x0D08 4 1 0 4294967295,
   ps 0x0D09 4 1 1 4294967295,
   ps 0x0D0A 4 1 1 4294967295,
   ps 0x0D0B 4 1 1 4294967295,
   ps 0x0D0C 4 1 1 4294967295,
   ps 0x0D0D 4 1 1 4294967295,
   ps 0x0D0E 4 1 1 4294967295,
   ps 0x0D0F 4 1 1 4294967295,
   ps 0x0D10 2 1 1 22528,
   ps 0x0D11 2 1 1 22528,
   ps 0x0D12 2 1 1 22528,
   ps 0x0D13 2 1 1 22528,
   ps 0x0D14 4 1 0 100000,
   ps 0x0D15 4 1 0 100000,
   ps 0x0D16 4 1 0 100000,
   ps 0x0D17 4 1 0 100000,
   ps 0x0D18 4 1 0 100000,
   ps 0x0D19 4 1 0 100000]

def paramsSchB : List ParamSpec :=
  [ps 0x0D1A 4 1 0 100000,
   ps 0x0D1B 4 1 0 100000,
   ps 0x0D1C 4 1 0 100000,
   ps 0x0D1D 4 1 0 100000,
   ps 0x0D1E 4 1 0 100000,
   ps 0x0D1F 4 1 0 100000,
   ps 0x0D20 4 1 0 100000,
   ps 0x0D21 4 1 48000 48000,
   ps 0x0D22 2 1 256 256,
   ps 0x0D23 1 1 88 88,
   ps 0x0D24 2 1 2000 2000,
   ps 0x0D25 1 1 1 1]

def paramsTelA : List ParamSpec :=
  [ps 0x0E00 2 1 16 65520,
   ps 0x0E01 2 1 0 65504,
   ps 0x0E02 1 1 16 16,
   ps 0x0E03 1 1 9 9,
   ps 0x0E04 1 1 50 50,
   ps 0x0E05 1 1 20 20,
   ps 0x0E06 1 1 8 8,
   ps 0x0E07 1 1 1 1,
   ps 0x0E08 1 1 127 127,
   psS 0x0E09 (-128) (-128),
   psS 0x0E0A (110) (110),
   psS 0x0E0B (-20) (-20),
   ps 0x0E0C 1 1 6 6,
   ps 0x0E0D 1 1 3 3,
   ps 0x0E0E 1 1 5 5,
   ps 0x0E0F 1 1 2 2,
   ps 0x0E10 1 1 1 1,
   ps 0x0E11 1 1 4 4,
   ps 0x0E12 1 1 1 1,
   ps 0x0E13 1 1 64 64]

/-- The 512 rows in ascending order of ID (R138). -/
def paramTable : List ParamSpec :=
  paramsClkA ++
  paramsHlA ++
  paramsHlB ++
  paramsChA ++
  paramsChB ++
  paramsChC ++
  paramsLgA ++
  paramsLqA ++
  paramsWkA ++
  paramsWkB ++
  paramsTpA ++
  paramsTpB ++
  paramsTpC ++
  paramsWinA ++
  paramsStrA ++
  paramsFltA ++
  paramsFltB ++
  paramsFltC ++
  paramsFltD ++
  paramsCalA ++
  paramsCalB ++
  paramsDgA ++
  paramsSchA ++
  paramsSchB ++
  paramsTelA

end Sys2Proof.Machine
end

