-- ==== Sys2Proof/Machine/ImageFile.lean ====
section
/-! DEFINITION. The image file (R132 to R147): its header and sections, the checks of each body, the rules between parameters, and the
result code of a copy (Table 5.2). -/

namespace Sys2Proof.Machine

/-! ### The header (Table 7.1) -/

def imageMagic : Bytes := [0x41, 0x51, 0x50, 0x4D, 0x36, 0x34, 0x30, 0x33]

/-- A directory entry: offset and total length. -/
def dirEntry (b : Bytes) (k : Nat) : Nat × Nat :=
  (field b (0x28 + 8 * k) 4, field b (0x2C + 8 * k) 4)

/-- The header's fields that are reserved values where they differ (R133). -/
def headerClean (h : Bytes) : Bool :=
  field h 0x0A 2 == 0x100 && field h 0x18 4 % 256 == 0 && field h 0x24 2 == 7 && zeroAt h 0x26 2 && zeroAt h 0x60 156

/-! ### Envelope (R118, R119) -/

/-- The vmin of point k. -/
def envelopeVmin (b : Bytes) (k : Nat) : Nat := field b (0x06 + 4 * k) 2

def envelopeOk (b : Bytes) : Bool :=
  field b 0 1 == 1 && field b 1 1 == 5 && zeroAt b 2 2 &&
  ((([-10, 20, 50, 80, 110] : List Int).zip (List.range 5)).all fun e =>
    fieldInt b (0x04 + 4 * e.2) 1 == e.1 && zeroAt b (0x05 + 4 * e.2) 1 && decide (6500 ≤ envelopeVmin b e.2) &&
    decide (envelopeVmin b e.2 ≤ 8500)) &&
  decide (2000 ≤ field b 0x18 2) && decide (field b 0x18 2 ≤ 10000) && decide (1 ≤ field b 0x1A 1) &&
  decide (field b 0x1A 1 ≤ 13) && zeroAt b 0x1B 1 && decide (field b 0x18 2 ≤ field b 0x1C 2) && zeroAt b 0x1E 2

/-! ### Schedule tables (R136, R137) -/

/-- The unit class of an instance (Table 6.1). -/
def unitClass (i : Nat) : Nat :=
  if i < 16 then 1 else if i < 32 then 2 else if i < 56 then 3 else if i < 64 then 4 else if i < 68 then 5
  else if i < 76 then 6 else if i < 80 then 7 else if i < 82 then 8 else if i < 84 then 9 else i - 74

/-- Steps of a unit class (Table 6.2). -/
def stepsOf : Nat → Nat
  | 1 => 4
  | 2 => 5
  | 3 => 4
  | 4 => 3
  | 5 => 2
  | 6 => 5
  | 7 => 3
  | 8 => 2
  | 9 => 2
  | 10 => 3
  | 11 => 2
  | 12 => 1
  | 13 => 2
  | _ => 0

/-- Unit classes whose clearings a background class may use (Table 6.6). -/
def classUses : Nat → List Nat
  | 1 => [10, 1, 2, 5, 9]
  | 2 => [11, 1, 2, 3, 4]
  | 3 => [12]
  | 4 => [13, 6, 7, 8, 9]
  | _ => []

/-- A step word: code, channel, repeat. -/
def readStep (b : Bytes) : Nat × Nat × Nat := (field b 0 1, field b 1 1, field b 2 1)

def stepOk (b : Bytes) : Bool :=
  let w := readStep b
  decide (1 ≤ w.1 % 16) && decide (w.1 % 16 ≤ stepsOf (w.1 / 16)) && (decide (w.2.1 < 64) || w.2.1 == 0xFF) && w.2.2 != 0 &&
  zeroAt b 3 1

def readDesc (b : Bytes) : SlotDesc :=
  { clearing := field b 0 1 == 1, cls := field b 1 1, count := field b 2 2, first := field b 4 4 }

/-- Lookup and hit steps, and ageing, sweep and expiry steps (R115). -/
def lookupStep (code : Nat) : Bool := code == 0x71 || code == 0x73 || code == 0x61 || code == 0x62
def ageStep (code : Nat) : Bool := code == 0x72 || code == 0x64 || code == 0x65

/-- No lookup step follows an ageing step. -/
def orderOk : Bool → List (Nat × Nat × Nat) → Bool
  | _, [] => true
  | aged, w :: t => !(aged && lookupStep w.1) && orderOk (aged || ageStep w.1) t

/-- A slot descriptor of an instance, with its list (R137). -/
def descOk (inst : Nat) (pool : Array (Nat × Nat × Nat)) (b : Bytes) : Bool :=
  let d := readDesc b
  let cls := unitClass inst
  let l := (pool.extract d.first (d.first + d.count)).toList
  decide (field b 0 1 ≤ 1) && decide (d.count ≤ 1024) && decide (d.first + d.count ≤ pool.size) &&
  (if d.clearing then (classUses d.cls).contains cls else d.cls == 0) &&
  (d.clearing || decide (cls < 10)) && (!d.clearing || d.count == 0 || (decide (6 ≤ cls) && decide (cls ≤ 9))) &&
  (l.all fun w => w.1 / 16 == cls) && orderOk false l

/-- Descriptors of consecutive instances and slots from index n. -/
def descsOk (pool : Array (Nat × Nat × Nat)) : Nat → List Bytes → Bool
  | _, [] => true
  | n, b :: t => descOk (n / 256) pool b && descsOk pool (n + 1) t

/-- The descriptors and the pool of a schedule body. -/
def schedDescs (b : Bytes) : List Bytes := cutInto 8 22528 (b.drop 0x10)
def schedPool (b : Bytes) : List Bytes := cutInto 4 ((b.length - 180240) / 4) (b.drop 0x2C010)

def scheduleOk (b : Bytes) : Bool :=
  field b 0 2 == 0x58 && field b 2 2 == 0x100 && 180240 + 4 * field b 4 4 == b.length && zeroAt b 8 8 &&
  (schedPool b).all stepOk && descsOk ((schedPool b).map readStep).toArray 0 (schedDescs b)

/-- The codewords of a decoder list: channel and its LD2 steps. -/
def codewordsIn : Option (Nat × Nat) → List (Nat × Nat × Nat) → List (Nat × Nat)
  | some c, [] => [c]
  | none, [] => []
  | cur, w :: t =>
    if w.1 = 0x31 then
      match cur with
      | some c => c :: codewordsIn (some (w.2.1, 0)) t
      | none => codewordsIn (some (w.2.1, 0)) t
    else if w.1 = 0x32 then codewordsIn (cur.map fun c => (c.1, c.2 + w.2.2)) t
    else codewordsIn cur t

/-- The least LD2 count that the decoder lists serving a channel hold for a codeword. -/
def leastIn (c : Nat) : List (Nat × Nat) → Option Nat
  | [] => none
  | e :: t =>
    match leastIn c t with
    | none => if e.1 = c then some e.2 else none
    | some n => if e.1 = c then some (min n e.2) else some n

/-- CH.012 as R473 derives it: the largest number that each list serving the channel holds, at most 16; 1 where none does. -/
def iterationLimit (words : List (Nat × Nat)) (c : Nat) : Nat :=
  match leastIn c words with | some n => min 16 n | none => 1

/-- The codewords of the decoders' foreground lists. -/
def decoderWords (b : Bytes) : List (Nat × Nat) :=
  let pool := ((schedPool b).map readStep).toArray
  (((schedDescs b).drop (256 * 32)).take (256 * 24)).flatMap fun x =>
    let d := readDesc x
    if d.clearing then [] else codewordsIn none (pool.extract d.first (d.first + d.count)).toList

/-! ### The parameter set (R138, R464, R465, R474) -/

/-- An element's value: two's complement where its type is. -/
def ParamSpec.value (p : ParamSpec) (v : Nat) : Int :=
  if p.signed && decide (256 ^ p.size / 2 ≤ v) then (v : Int) - (256 ^ p.size : Nat) else v

/-- An element lies within its range. -/
def ParamSpec.inRange (p : ParamSpec) (v : Nat) : Bool :=
  let x := p.value v
  (decide (p.low ≤ x) && decide (x ≤ p.high) && (x - p.low) % p.step == 0) || (p.zero && v == 0)

/-- Records in the order of the table: whether they are as they must be, and their values. -/
def readParams : List ParamSpec → Bytes → Bool × Tab (List Nat)
  | [], rest => (rest.isEmpty, [])
  | p :: t, b =>
    let n := p.size * p.count
    let pad := (4 - n % 4) % 4
    let v := (cutInto p.size p.count (b.drop 4)).map unLe
    let r := readParams t (b.drop (4 + n + pad))
    (field b 0 2 == p.id && field b 2 2 == n && (v.all p.inRange) && zeroAt b (4 + n) pad && r.1, (p.id, v) :: r.2)

def paramsOk (b : Bytes) : Bool :=
  field b 0 2 == 0x200 && zeroAt b 2 2 && (readParams paramTable (b.drop 4)).1

def paramValues (b : Bytes) : Tab (List Nat) :=
  (readParams paramTable (b.drop 4)).2

/-! ### The rules between parameters (Tables 20.3, 21.3) -/

/-- Element i of a parameter. -/
def elemOf (v : Tab (List Nat)) (id i : Nat) : Nat :=
  nth 0 (Tab.get [] v id) i

/-- Rules 1, 2 and 6 of Table 20.3 for a channel. -/
def chanRules (v : Tab (List Nat)) (words : List (Nat × Nat)) (c : Nat) : Bool :=
  let x := elemOf v 0x030A c
  decide (elemOf v 0x0308 c ≤ elemOf v 0x0307 c) && decide (elemOf v 0x0307 c ≤ elemOf v 0x0309 c) &&
  x % 16 == 0 && !x.testBit 16 && decide (((toBits 64 x).filter id).length ≤ 57) &&
  elemOf v 0x030C c == iterationLimit words c

/-- Rules 3 to 5 of Table 20.3 for a channel against a member of its group. -/
def groupRules (v : Tab (List Nat)) (c : Nat) : Bool :=
  let z := elemOf v 0x0400 c
  let n := 2 ^ z
  if z = 0 then elemOf v 0x0401 c == 0
  else (List.range n).all fun i =>
    let d := n * (c / n) + i
    elemOf v 0x0400 d == z && elemOf v 0x0401 d == elemOf v 0x0401 c &&
    (elemOf v 0x0401 c != 1 || elemOf v 0x0301 d == elemOf v 0x0301 c)

/-- Rules 1, 5 and 6 of Table 21.3 for a queue's elements: TP.000, TP.002 and STR.000 to STR.007. A feed's or drain's values lie in the
ranges of Table 17.1, none of which holds 0. -/
def queueRules (part recv kind f r w d pattern allow threshold : Nat) : Bool :=
  (part == 0xFFFF || decide (part ≤ 0xFFF)) &&
  (if kind = 1 || kind = 2 then
    recv == 0 && f != 0 && r != 0 && w != 0 && d != 0 && decide (r * d + 2 * f ≤ w) && allow == w / f && threshold == r * d + f
  else f == 0 && r == 0 && w == 0 && d == 0 && pattern == 0 && allow == 0 && threshold == 0)

/-- The queue rules over parallel lists of elements. -/
def queuesOk (v : Tab (List Nat)) : Bool :=
  let l := fun id => (Tab.get [] v id).toArray
  let part := l 0x0700
  let recv := l 0x0702
  let s := fun k => l (0x0900 + k)
  let s0 := s 0
  let s1 := s 1
  let s2 := s 2
  let s3 := s 3
  let s4 := s 4
  let s5 := s 5
  let s6 := s 6
  let s7 := s 7
  (List.range 1024).all fun q =>
    let at' := fun (a : Array Nat) => a.getD q 0
    queueRules (at' part) (at' recv) (at' s0) (at' s1) (at' s2) (at' s3) (at' s4) (at' s5) (at' s6) (at' s7)

/-- Rules 2, 3, 4, 7, 8 and 9 of Table 21.3, with SCH.005 ≤ SCH.007. -/
def deviceRules (v : Tab (List Nat)) (env : Bytes) (timeout : Nat) : Bool :=
  let e := elemOf v
  let most := (Tab.get [] v 0x0705).foldl max 0
  decide (ceilDiv (2 * (most * 48 + e 0x0800 0 * 12288)) 1000 ≤ e 0x0D08 0) && decide (e 0x0D08 0 ≤ 805294) &&
  timeout == e 0x0D08 0 && e 0x0708 0 == ceilDiv (e 0x0D08 0 * 1000) 12288 &&
  ((List.range 64).all fun c => e 0x0707 c == ceilDiv (2 * e 0x0705 c) 256 + e 0x0800 0 + e 0x0706 c) &&
  e 0x0A3E 0 == 0 && e 0x0A54 0 == 1 && e 0x0A56 0 == 1 && (e 0x0A5D 0).testBit 20 && decide (e 0x0A5D 0 < 2 ^ 30) &&
  ((List.range 5).all fun k => e (0x0D00 + k) 0 == envelopeVmin env k) && e 0x0D05 0 == field env 0x18 2 &&
  e 0x0D06 0 == field env 0x1A 1 && e 0x0D07 0 == field env 0x1C 2 && decide (e 0x0D05 0 ≤ e 0x0D07 0) &&
  e 0x0E00 0 % 16 == 0 && e 0x0E01 0 % 16 == 0 && decide (e 0x0E01 0 < e 0x0E00 0)

/-! ### Fault policy and wake tables (R140, R141) -/

/-- A source's policy entry agrees with the parameters. -/
def policyOk (v : Tab (List Nat)) (src : Nat) (b : Bytes) : Bool :=
  match sourceKind src with
  | none => field b 0 1 == 0xFF && zeroAt b 1 7
  | some k =>
    field b 0 1 == k && field b 1 1 == bit ((elemOf v 0x0A5D 0).testBit k) && field b 2 1 == elemOf v (0x0A00 + 3 * k) 0 &&
    field b 3 1 == elemOf v (0x0A02 + 3 * k) 0 && field b 4 2 == elemOf v (0x0A01 + 3 * k) 0 && zeroAt b 6 2

/-- Entries of consecutive sources. -/
def policiesOk (v : Tab (List Nat)) : Nat → List Bytes → Bool
  | _, [] => true
  | n, b :: t => policyOk v n b && policiesOk v (n + 1) t

def readWake (b : Bytes) : WakeEntry :=
  { ident := BitVec.ofNat 16 (field b 0 2), mask := BitVec.ofNat 16 (field b 2 2), enabled := (field b 4 1).testBit 0
    data := slice b 0x10 32, dataMask := slice b 0x30 32 }

def wakeOk (b : Bytes) : Bool :=
  let e := readWake b
  decide (field b 4 1 ≤ 1) && zeroAt b 5 11 && e.ident &&& ~~~e.mask == 0 &&
  ((e.data.zip e.dataMask).all fun x => x.1 &&& ~~~x.2 == 0) &&
  (e.enabled || (zeroAt b 0 4 && zeroAt b 0x10 64))

/-- A trust body's fields are allowed (Table 7.6). -/
def trustOk (b : Bytes) : Bool :=
  field b 0 1 == 1 && decide (field b 1 1 ≤ 1) && zeroAt b 2 6 && zeroAt b 0x68 24 && (field b 1 1 == 1 || zeroAt b 8 96)

/-! ### The sections in the byte stream (R132, R134, R146) -/

/-- Is a body length allowed for section k (Table 7.2)? -/
def sectionLengthOk (k n : Nat) : Bool :=
  match k with
  | 0 => n == 32
  | 1 => decide (180240 ≤ n) && (n - 180240) % 4 == 0
  | 2 => n == 39908
  | 3 => n == 8192
  | 4 => n == 5120
  | 5 => n == 32
  | _ => n == 128

/-- A section as the stream gives it: where it begins, its body, and whether its header and padding hold a reserved value. -/
structure Section where
  start : Nat
  body : Bytes
  clean : Bool
  deriving DecidableEq, Repr

/-- Read sections k, k + 1, …: m of them, from a place in the image; a result code where a defect fixes it at once. -/
def readSections (header : Bytes) (total : Nat) : Nat → Nat → Nat → Bytes → Except Nat (List Section)
  | 0, _, pos, _ => if pos = total then .ok [] else .error 7
  | m + 1, k, pos, b =>
    let n := field b 4 4
    let pad := (16 - n % 16) % 16
    let len := 16 + n + pad
    if (pos, len) != dirEntry header k || field b 0 2 != k + 1 || !sectionLengthOk k n || decide (total < pos + len) then .error 7
    else
      let body := slice b 16 n
      if crc32c body != field b 8 4 then .error 4
      else
        match readSections header total m (k + 1) (pos + len) (b.drop len) with
        | .error e => .error e
        | .ok l => .ok (⟨pos, body, field b 2 2 == 1 && zeroAt b 12 4 && zeroAt b (16 + n) pad⟩ :: l)

/-- Body of section k of those read. -/
def sectionBody (l : List Section) (k : Nat) : Bytes :=
  match l[k]? with | some x => x.body | none => []

/-- No value of the bodies is reserved (R133). -/
def bodiesOk (header : Bytes) (l : List Section) : Bool :=
  let v := paramValues (sectionBody l 2)
  (l.all (·.clean)) && envelopeOk (sectionBody l 0) && scheduleOk (sectionBody l 1) && paramsOk (sectionBody l 2) &&
  ((List.range 64).all fun c => chanRules v (decoderWords (sectionBody l 1)) c && groupRules v c) && queuesOk v &&
  deviceRules v (sectionBody l 0) (field header 0x1C 4) && policiesOk v 0 (cutInto 8 1024 (sectionBody l 3)) &&
  ((cutInto 80 64 (sectionBody l 4)).all wakeOk) && trustOk (sectionBody l 6)

/-- The image's length as its header states it. -/
def imageLength (b : Bytes) : Nat := field b 0x0C 4

/-- The sections of an image that has been read whole. -/
def sectionsOf (b : Bytes) : Except Nat (List Section) :=
  let h := fit 256 b
  let n := imageLength h
  readSections h n 7 0 0x100 ((fit n b).drop 0x100)

/-- Steps 2 to 4 of R146: the result code that ends the load, 0 when it completes. -/
def loadCode (b : Bytes) : Nat :=
  let h := fit 256 b
  let n := imageLength h
  if crc32c (slice h 0 0xFC) != field h 0xFC 4 then 4
  else if slice h 0 8 != imageMagic || field h 8 2 != 1 then 5
  else if n == 0 || decide (4194304 < n) then 6
  else
    match sectionsOf b with
    | .error e => e
    | .ok l => if headerClean h && bodiesOk h l then 0 else 7

/-! ### Step 5: digest, trust, straps (R142 to R144, R99) -/

/-- The digest of R142: up to the digest section's header. -/
def digestOf (b : Bytes) (l : List Section) : Bytes :=
  sha256 (b.take (match l[5]? with | some x => x.start | none => 0))

/-- The key-digest field is programmed: its check matches. -/
def keyProgrammed (key : BitVec 288) : Bool :=
  let b := bitsToBytes 36 (toBits 288 key.toNat)
  crc32c (b.take 32) == field b 32 4

/-- The trust result of Table 7.7: 1, 9 or 0x0A. -/
def trustCode (key : BitVec 288) (digest trust : Bytes) : Nat :=
  if key = 0 then 1
  else if field trust 1 1 = 0 then 9
  else
    let field' := (bitsToBytes 36 (toBits 288 key.toNat)).take 32
    let pub := slice trust 8 32
    if keyProgrammed key && sha256 pub == field' && edVerify pub (slice trust 0x28 64) digest then 1 else 0x0A

/-- The strap combination of Table 7.1: bits 2 to 6 of the strap sample. -/
def strapCombination (straps : BitVec 8) : Nat :=
  straps.toNat / 4 % 32

/-- The result of the checks of a copy that has been loaded; 1 is valid. -/
def checkCode (key : BitVec 288) (straps : BitVec 8) (b : Bytes) : Nat :=
  match sectionsOf b with
  | .error e => e
  | .ok l =>
    let digest := sectionBody l 5
    if digestOf b l != digest then 8
    else
      let t := trustCode key digest (sectionBody l 6)
      if t != 1 then t
      else if !(field b 0x18 4).testBit (strapCombination straps) then 0x0B
      else 1

/-- The content that the device keeps of an accepted image (R147). -/
def imageContent (fromMirror verified : Bool) (b : Bytes) : Image :=
  match sectionsOf b with
  | .error _ => Image.reset
  | .ok l =>
    { loaded := true, digest := sectionBody l 5, length := imageLength b, ident := slice b 0x10 8, fromMirror := fromMirror
      verified := verified, envelope := (List.range 5).map (envelopeVmin (sectionBody l 0))
      slots := (schedDescs (sectionBody l 1)).map readDesc, pool := (schedPool (sectionBody l 1)).map readStep
      params := paramValues (sectionBody l 2), wake := (cutInto 80 64 (sectionBody l 4)).map readWake }

end Sys2Proof.Machine
end

