-- ==== Sys2Proof/Machine/Startup.lean ====
section
/-! DEFINITION. Reset and the cold start up to the first slot tick (R36 to R41, R51, R95 to R102, Tables 2.7, 5.1 to 5.3). -/

namespace Sys2Proof.Machine

/-! ### Reset (R51, R97, R108) -/

/-- A link after reset: only whether its clock stands still outlives it, which is the board's. -/
def HostLink.afterReset (l : HostLink) : HostLink :=
  { HostLink.reset with clockStopped := l.clockStopped }

/-- The pins in the reset state: the inputs stand as the board drives them (Table 2.5). -/
def Pins.afterReset (x : Pins) : Pins :=
  { Pins.reset with
    resetN := x.resetN, pwrok := x.pwrok, tsel := x.tsel, calN := x.calN, tck := x.tck, tms := x.tms, tdi := x.tdi
    trstN := x.trstN }

/-- The reset state: what reset keeps are the input levels, the test access port with its one-time-programmable fields, the commands
that wait, and the model's own log and counter. -/
def State.enterReset (s : State) : State :=
  { State.reset with
    pending := s.pending
    pins := s.pins.afterReset
    linkA := s.linkA.afterReset, linkB := s.linkB.afterReset
    tap := s.tap, fresh := s.fresh, out := s.out }

/-- A reset input at a level. -/
def State.setReset (s : State) (pin : ResetPin) (level : Bool) : State :=
  match pin with
  | .resetN => { s with pins := { s.pins with resetN := level } }
  | .pwrok => { s with pins := { s.pins with pwrok := level } }

/-- RESET_ASSERT: a start is due again that boundary scan had held (R495). DESIGN CHOICE: a low level of RESET_N ends that hold
also where it lies wholly inside PWROK low, whose level R51 then ignores; see assumption 78. -/
def execResetAssert (pin : ResetPin) (s : State) : Host.Outcome State Fault Refusal :=
  let s1 := (s.setReset pin false).enterReset
  .next { s1 with tap := { s1.tap with holding := false } }

/-- The release of reset: the stability counts begin on the source that TSEL selects (Table 5.1 step 1). -/
def State.leaveReset (s : State) : State :=
  { s with start := { s.start with stage := .stability, tselAtRelease := s.pins.tsel } }.takeSource s.pins.tsel

/-- RESET_RELEASE: the later of the two rising edges releases. -/
def execResetRelease (pin : ResetPin) (s : State) : Host.Outcome State Fault Refusal :=
  let s1 := s.setReset pin true
  if s1.start.stage = .reset && s1.pins.resetN && s1.pins.pwrok && !s1.tap.holding then .next s1.leaveReset else .next s1

/-! ### Straps and resistor codes -/

/-- The strap sample as the start record holds it (Table 5.4), TESTMODE in bit 7. -/
def strapBits (l : StrapLevels) : BitVec 8 :=
  BitVec.ofNat 8 (ofBits [l.imgsel0, l.imgsel1, l.hlwA, l.hlwB, l.hrate, l.portenA, l.portenB, l.testmode])

/-- A stage of the start sequence may end: its count runs on a clock, and no switch count stands before it. -/
def State.stageRuns (s : State) (stage : Stage) : Bool :=
  s.start.stage == stage && s.start.recount.isNone && !s.clock.interrupted

/-- The device refuses to start: ERR_N low, WAKE_N released, both flash devices deselected with FL_WP_N low (Table 5.3). -/
def State.refuseStart (s : State) (stage : Stage) : State :=
  { s with
    start := { s.start with stage := stage }
    pins := { s.pins with errLow := true, wakeLow := false, flWp := false, flSelA := false, flSelB := false } }

/-- Straps and CAL_N sampled (Table 5.1 step 2, R36, R38). -/
def State.sampleStraps (s : State) (l : StrapLevels) (calN : Bool) : State :=
  let s1 := { s with
    start := { s.start with sampled := true, straps := strapBits l, calHeld := !calN }
    pins := { s.pins with calN := calN } }
  if l.testmode || (!l.portenA && !l.portenB) then s1.refuseStart .strapRefusal
  else { s1 with start := { s1.start with stage := .strapStep } }

/-- STABILITY_COUNT_DONE. -/
def execStabilityCountDone (straps : StrapLevels) (calN : Bool) (s : State) : Host.Outcome State Fault Refusal :=
  if s.stageRuns .stability then .next (s.sampleStraps straps calN) else .next s

/-- The bands of Table 2.7 for codes 1 to 14, in Ω. -/
def resistorBands : List (Nat × Nat) :=
  [(920, 1080), (1352, 1588), (1978, 2322), (2907, 3413), (4269, 5011), (6265, 7355), (9200, 10800), (13520, 15880),
   (19780, 23220), (29070, 34130), (42690, 50110), (62650, 73550), (92000, 108000), (135200, 158800)]

/-- The code among the bands from code k: of the last band that begins at or below r, out of band above its upper edge. -/
def bandCode (r : Nat) : Nat → List (Nat × Nat) → Nat × Bool → Nat × Bool
  | _, [], best => best
  | k, b :: t, best => if r < b.1 then best else bandCode r (k + 1) t (k, decide (b.2 < r))

/-- A pin's code and whether it is out of band (R41), from its measured resistance in Ω; none: no crossing. -/
def resistorCode : Option Nat → Nat × Bool
  | none => (15, false)
  | some r => if 500000 ≤ r then (15, false) else bandCode r 1 resistorBands (0, decide (200 < r))

/-- The seven readings, in the order IDSEL0 to IDSEL3, PTSEL0 to PTSEL2. -/
def State.readResistors (s : State) (rm : List (Option Nat)) : State :=
  let l := rm.map resistorCode
  { s with start := { s.start with codes := l.map (·.1), outOfBand := l.map (·.2) } }

/-- STRAP_RESISTOR_STEP_END: the image load from the primary begins. -/
def execStrapResistorStepEnd (rm : List (Option Nat)) (s : State) : Host.Outcome State Fault Refusal :=
  if s.stageRuns .strapStep && rm.length == 7 then .next ((s.readResistors rm).beginLoad .primary) else .next s

/-! ### The image (R99, R100, R146) -/

/-- A copy's result in the start record. -/
def State.copyResult (s : State) (d : FlashDev) (code : Nat) : State :=
  match d with
  | .primary => { s with start := { s.start with primary := BitVec.ofNat 8 code } }
  | .mirror => { s with start := { s.start with mirror := BitVec.ofNat 8 code } }

/-- A copy fails: the mirror is loaded, or the device refuses to start with both INT pins low (R99, R100). -/
def State.copyFailed (s : State) (d : FlashDev) (code : Nat) : State :=
  let s1 := s.copyResult d code
  match d with
  | .primary => s1.beginLoad .mirror
  | .mirror =>
    let s2 := s1.refuseStart .imageRefusal
    { s2 with
      start := { s2.start with copy := [] }
      pins := { s2.pins with intALow := true, intBLow := true } }

/-- The result of a load: discovery first (R146 step 1). -/
def loadResult (sfdp bytes : Bytes) : Nat :=
  if sfdpResult sfdp = 0 then loadCode bytes else sfdpResult sfdp

/-- The header of a copy ends its load (R146 step 2). -/
def headerEnds (code : Nat) (bytes : Bytes) : Bool :=
  code == 5 || code == 6 || (code == 4 && crc32c (slice (fit 256 bytes) 0 0xFC) != field (fit 256 bytes) 0xFC 4)

/-- The flash reads of a load after its discovery: the header, then the rest in one read (R146 steps 2 and 3, R149). -/
def State.loadReads (s : State) (d : FlashDev) (sfdp bytes : Bytes) : State :=
  if sfdpResult sfdp = 0 then
    let s1 := s.say (.flash d 0x6B s.slotAddr [])
    if headerEnds (loadCode bytes) bytes then s1 else s1.say (.flash d 0x6B (s.slotAddr + 256) [])
  else s

/-- The flash device whose image copy is being loaded, in a stage that may end. -/
def State.loading (s : State) : Option FlashDev :=
  match s.start.stage with
  | .imageLoad d => if s.stageRuns (.imageLoad d) then some d else none
  | _ => none

/-- The flash device whose image copy is being checked, in a stage that may end. -/
def State.checking (s : State) : Option FlashDev :=
  match s.start.stage with
  | .imageCheck d => if s.stageRuns (.imageCheck d) then some d else none
  | _ => none

/-- IMAGE_LOADED: with what discovery and the flash read gave, from the first byte of the SFDP space and of the slot. -/
def execImageLoaded (sfdp bytes : Bytes) (s : State) : Host.Outcome State Fault Refusal :=
  match s.loading with
  | none => .next s
  | some d =>
    let s1 := (s.loadReads d sfdp bytes).select d false
    let code := loadResult sfdp bytes
    if code = 0 then
      .next { s1 with start := { s1.start with stage := .imageCheck d, copy := fit (imageLength bytes) bytes } }
    else .next (s1.copyFailed d code)

/-- The copy is used (R99, R147). -/
def State.acceptImage (s : State) (d : FlashDev) : State :=
  let s1 := s.copyResult d 1
  { s1 with
    image := imageContent (d == .mirror) (s.tap.key != 0) s.start.copy
    start := { s1.start with stage := .coefficients, copy := [] } }

/-- IMAGE_CHECKED. -/
def execImageChecked (s : State) : Host.Outcome State Fault Refusal :=
  match s.checking with
  | none => .next s
  | some d =>
    let code := checkCode s.tap.key s.start.straps s.start.copy
    if code = 1 then .next (s.acceptImage d) else .next (s.copyFailed d code)

/-! ### Coefficients (R102) -/

/-- The set of a point: from the primary, else from the mirror; true: from the mirror. -/
def State.setOf (s : State) (prim mir : CoeffRead) (p : Nat) : Option (Bool × Bytes) :=
  match s.readPoint .primary prim p with
  | some c => some (false, copyBody c.2)
  | none => (s.readPoint .mirror mir p).map fun c => (true, copyBody c.2)

/-- The sequence and copy of a point that a flash device holds, keyed 5 × device + point. -/
def State.seqOf (s : State) (d : FlashDev) (r : CoeffRead) (p : Nat) : Option (Nat × (Nat × Nat)) :=
  (s.readPoint d r p).map fun c => (5 * flashNum d + p, (field c.2 8 4, c.1))

/-- Every channel and lane takes the trims and selections of the sets at once. -/
def State.applyTrims (s : State) : State :=
  if s.calib.sets.isEmpty then
    { s with calib := { s.calib with channels := [], lanes := [], common := [0, 0] } }
  else
    { s with calib := { s.calib with
      channels := allChans.map fun c => (c.val, s.wantChan c)
      lanes := (List.range 32).map fun i => (i, s.wantLane i)
      common := s.trimsAt commonTrims [0, 0] } }

/-- The sets read in both passes, in use at temperature t (R102, R446 to R448). -/
def State.loadCoefficients (s : State) (prim mir : CoeffRead) (t : Int) : State :=
  let found : List (Option (Bool × Bytes)) := allPoints.map fun p => s.setOf prim mir p
  let mirrored := found.map fun x => match x with | some v => v.1 | none => false
  let s1 : State := { s with
    start := { s.start with
      sets := BitVec.ofNat 5 (ofBits (found.map (·.isSome))), setsMirror := BitVec.ofNat 5 (ofBits mirrored) }
    calib := { s.calib with
      sets := (allPoints.zip found).filterMap fun e => e.2.map fun v => (e.1, v.2)
      mirrored := BitVec.ofNat 5 (ofBits mirrored)
      seqs := (allPoints.filterMap (s.seqOf .primary prim)) ++ allPoints.filterMap (s.seqOf .mirror mir)
      absent := (!s.usable .primary prim, !s.usable .mirror mir), stemPoint := none } }
  (s1.newTemp t).applyTrims

/-- The reads of both copies of the given points from a flash device. -/
def readSets (d : FlashDev) : List Nat → State → State
  | [], s => s
  | p :: t, s => readSets d t ((s.say (.flash d 0x6C (copyAddr p 0) [])).say (.flash d 0x6C (copyAddr p 1) []))

/-- The flash commands of the two passes: all points from the primary, those it lacks from the mirror, each after a
discovery that found the device usable; the mirror's is made now unless its image was read at this start (R102, R149). -/
def State.coefficientCommands (s : State) (prim mir : CoeffRead) : State :=
  let s1 := if s.usable .primary prim then readSets .primary allPoints s else s
  let missing := allPoints.filter fun p => (s.readPoint .primary prim p).isNone
  if missing.isEmpty then s1
  else
    let s2 := if s.start.mirror = 0 then s1.say (.flash .mirror 0x5A 0 []) else s1
    if s.usable .mirror mir then readSets .mirror missing s2 else s2

/-- COEFFICIENTS_LOADED: with the temperature read in this step, and the cycles from the first count to the first slot tick. -/
def execCoefficientsLoaded (prim mir : CoeffRead) (t : Int) (duration : Nat) (s : State) :
    Host.Outcome State Fault Refusal :=
  if s.stageRuns .coefficients then
    let s1 := (s.coefficientCommands prim mir).loadCoefficients prim mir t
    .next { s1 with start := { s1.start with stage := .ready, duration := durationField duration } }
  else .next s

end Sys2Proof.Machine
end

