-- ==== Sys2Proof/Machine/TestPort.lean ====
section
/-! DEFINITION. The test access port (R101, R145, R463, R493 to R496, Table 23.3). A command is an instruction with its scan: the register
it selects is captured and shifted out, bit 0 first, while new content is shifted in. -/

namespace Sys2Proof.Machine

/-- Load an instruction: what its register shifts out, and its width. The port stands in Run-Test/Idle after it, TDO high-impedance
again; an instruction that does not act on pins gives the outputs back to the device (R495). -/
def State.scan (s : State) (ir : Byte) (width : Nat) (value : Nat) : State :=
  { s with
    tap := { s.tap with ir := ir, width := width, shifted := BitVec.ofNat 512 value, drives := .device }
    pins := { s.pins with tck := false, tms := false, trstN := true, tdo := none } }

/-- An instruction that acts on pins puts the device into the reset state, which it leaves only through a reset (R495); the outputs are
driven as the instruction says. -/
def State.pinsFromTap (s : State) (drives : PinSource) : State :=
  let s1 := s.enterReset
  { s1 with tap := { s1.tap with holding := true, drives := drives } }

/-! ### The levels at the control region's outputs (Table 2.5) -/

/-- The outputs of the control region. -/
inductive OutPin where
  | errN | intAN | intBN | wakeN | flWpN
  | flSck (d : FlashDev) | flCsN (d : FlashDev) | flIo (d : FlashDev) (i : Fin 4)
  deriving DecidableEq, Repr

/-- A level at a ball: driven low or high, high-impedance, or moving with a flash command. -/
inductive Level where
  | low | high | z | moving
  deriving DecidableEq, Repr

/-- An output's number, as the boundary register's cells are counted here. -/
def OutPin.num : OutPin → Nat
  | .errN => 0
  | .intAN => 1
  | .intBN => 2
  | .wakeN => 3
  | .flWpN => 4
  | .flSck d => 5 + flashNum d
  | .flCsN d => 7 + flashNum d
  | .flIo d i => 9 + 4 * flashNum d + i.val

/-- Open-drain outputs are only driven low. -/
def OutPin.openDrain : OutPin → Bool
  | .errN | .intAN | .intBN | .wakeN => true
  | _ => false

/-- Three-state outputs have a cell that enables their driver. -/
def OutPin.threeState : OutPin → Bool
  | .flIo _ _ => true
  | _ => false

/-- A flash device's chip select is driven low. -/
def Pins.selected (x : Pins) : FlashDev → Bool
  | .primary => x.flSelA
  | .mirror => x.flSelB

/-- What the device itself puts on an output: SCK and IO rest low and high-impedance while the chip select is high. -/
def Pins.driven (x : Pins) : OutPin → Level
  | .errN => if x.errLow then .low else .z
  | .intAN => if x.intALow then .low else .z
  | .intBN => if x.intBLow then .low else .z
  | .wakeN => if x.wakeLow then .low else .z
  | .flWpN => if x.flWp then .high else .low
  | .flSck d => if x.selected d then .moving else .low
  | .flCsN d => if x.selected d then .low else .high
  | .flIo d _ => if x.selected d then .moving else .z

/-- What the boundary register puts on an output. -/
def Tap.cell (x : Tap) (o : OutPin) : Level :=
  let v := x.boundary.getLsbD (Config.dataCell o.num).val
  if o.openDrain then (if v then .z else .low)
  else if o.threeState && !x.boundary.getLsbD (Config.enableCell o.num).val then .z
  else if v then .high else .low

/-- The level at an output (Tables 2.5, 23.3). -/
def State.ball (s : State) (o : OutPin) : Level :=
  match s.tap.drives with
  | .device => s.pins.driven o
  | .boundary => s.tap.cell o
  | .highz => .z

def bothFlash : List FlashDev := [.primary, .mirror]

def allOutPins : List OutPin :=
  [.errN, .intAN, .intBN, .wakeN, .flWpN] ++ bothFlash.map .flSck ++ bothFlash.map .flCsN ++
  bothFlash.flatMap fun d => (List.finRange 4).map fun i => .flIo d i

/-- Put an output's level into the cell that samples it; a ball that nothing drives, or that moves, reads as the board has it. -/
def State.capture (s : State) (v : BitVec 512) (o : OutPin) : BitVec 512 :=
  let bit' := BitVec.ofNat 512 (2 ^ (Config.dataCell o.num).val)
  match s.ball o with
  | .low => v &&& ~~~bit'
  | .high => v ||| bit'
  | .z | .moving => v

/-- The boundary register as the pins are sampled: the board's levels, and those of the outputs. -/
def State.sampled (s : State) (pins : BitVec 512) : BitVec 512 :=
  allOutPins.foldl s.capture pins

/-- The boundary register is shifted: its old content out, new cells in. -/
def State.shiftBoundary (s : State) (ir : Byte) (old cells : BitVec 512) : State :=
  let s1 := s.scan ir 512 old.toNat
  { s1 with tap := { s1.tap with boundary := cells } }

/-- TAP_RESET, by TRST_N low or by TMS: the instruction is IDCODE, and nothing is shifted. -/
def execTapReset (trst : Bool) (s : State) : Host.Outcome State Fault Refusal :=
  let s1 := s.scan 0x01 0 0
  .next { s1 with pins := { s1.pins with tms := true, trstN := !trst } }

/-- An instruction that drives the pins from the boundary register: they are driven from what it holds, then sampled and shifted out
while new cells are shifted in. -/
def State.extestScan (s : State) (ir : Byte) (pins cells : BitVec 512) : State :=
  let s1 := s.pinsFromTap .boundary
  let s2 := s1.shiftBoundary ir (s1.sampled pins) cells
  { s2 with tap := { s2.tap with drives := .boundary } }

/-- EXTEST. -/
def execExtest (pins cells : BitVec 512) (s : State) : Host.Outcome State Fault Refusal :=
  .next (s.extestScan 0x00 pins cells)

/-- IDCODE: 0x1640_378F for stepping B1. -/
def execIdcode (s : State) : Host.Outcome State Fault Refusal :=
  .next (s.scan 0x01 32 0x1640378F)

/-- SAMPLE/PRELOAD: the pins as sampled are shifted out while the cells are loaded. -/
def execSamplePreload (pins cells : BitVec 512) (s : State) : Host.Outcome State Fault Refusal :=
  .next (s.shiftBoundary 0x02 (s.sampled pins) cells)

/-- CLAMP. -/
def execClamp (s : State) : Host.Outcome State Fault Refusal :=
  .next ((s.scan 0x03 1 0).pinsFromTap .boundary)

/-- HIGHZ. -/
def execHighz (s : State) : Host.Outcome State Fault Refusal :=
  .next ((s.scan 0x04 1 0).pinsFromTap .highz)

/-- EXTEST_PULSE. -/
def execExtestPulse (pins cells : BitVec 512) (s : State) : Host.Outcome State Fault Refusal :=
  .next (s.extestScan 0x09 pins cells)

/-- EXTEST_TRAIN. -/
def execExtestTrain (pins cells : BitVec 512) (s : State) : Host.Outcome State Fault Refusal :=
  .next (s.extestScan 0x0A pins cells)

/-- The start-status register: zero until the strap sample, then bytes 0x08 to 0x1F of the start record (R101, R494), with the port of
the record that port A, if enabled, would get. -/
def State.statusRegister (s : State) : Nat :=
  if s.start.sampled then unLe (s.startHead (bit (s.enabled .b && !s.enabled .a))) else 0

/-- START_STATUS. -/
def execStartStatus (s : State) : Host.Outcome State Fault Refusal :=
  .next (s.scan 0x10 192 s.statusRegister)

/-- KEY_READ. -/
def execKeyRead (s : State) : Host.Outcome State Fault Refusal :=
  .next (s.scan 0x11 288 s.tap.key.toNat)

/-- May KEY_PROGRAM set bits: RESET_N low, PWROK high, the field blank (R496)? Whether the selected clock gives edges during the wait
comes with the command (R145). -/
def State.mayProgram (s : State) : Bool :=
  !s.pins.resetN && s.pins.pwrok && s.tap.key == 0

/-- The field after a stay in Run-Test/Idle: every bit shifted in as 1 when it ran its time, an unspecified subset of them when it was
interrupted (R145; assumption 5). -/
def programmed (bits old : BitVec 288) (fresh : Nat) : KeyWait → BitVec 288
  | .complete => bits
  | .noClock => old
  | .interrupted => bits &&& Config.keySubset fresh

/-- Edges of the selected clock have come during the wait. -/
def State.edgesSeen (s : State) (wait : KeyWait) : State :=
  match wait with
  | .noClock => s
  | _ => s.modLink s.sourcePort fun l => { l with clockStopped := false }

/-- KEY_PROGRAM: it shifts like KEY_READ. -/
def execKeyProgram (bits : BitVec 288) (wait : KeyWait) (s : State) : Host.Outcome State Fault Refusal :=
  let s1 := s.scan 0x12 288 s.tap.key.toNat
  if s.mayProgram then
    .next ({ s1 with tap := { s1.tap with key := programmed bits s.tap.key s.fresh wait } }.useFresh.edgesSeen wait)
  else .next s1

/-- FACTORY_REF. -/
def execFactoryRef (s : State) : Host.Outcome State Fault Refusal :=
  .next (s.scan 0x13 32 s.tap.factory.toNat)

/-- DIE_ID. -/
def execDieId (s : State) : Host.Outcome State Fault Refusal :=
  .next (s.scan 0x14 64 s.tap.die.toNat)

/-- BYPASS, with the opcode 0xFF or a reserved one: the one-bit register captures 0. An opcode that names another instruction is not this
command. -/
def execBypass (opcode : Byte) (s : State) : Host.Outcome State Fault Refusal :=
  if ([0x00, 0x01, 0x02, 0x03, 0x04, 0x09, 0x0A, 0x10, 0x11, 0x12, 0x13, 0x14] : List Byte).contains opcode then .next s
  else .next (s.scan opcode 1 0)

end Sys2Proof.Machine
end

