-- ==== Sys2Proof/Machine/Dispatch.lean ====
section
/-! DEFINITION. The dispatch: one arm per command, each one direct call of its meaning. -/

namespace Sys2Proof.Machine

def exec (i : Instr) (s : State) : Host.Outcome State Fault Refusal :=
  match i with
  | .resetAssert pin => Sys2Proof.Machine.execResetAssert pin s
  | .resetRelease pin => Sys2Proof.Machine.execResetRelease pin s
  | .stabilityCountDone straps calN => Sys2Proof.Machine.execStabilityCountDone straps calN s
  | .strapResistorStepEnd rm => Sys2Proof.Machine.execStrapResistorStepEnd rm s
  | .portStabilityCountDone p => Sys2Proof.Machine.execPortStabilityCountDone p s
  | .imageLoaded sfdp bytes => Sys2Proof.Machine.execImageLoaded sfdp bytes s
  | .imageChecked => Sys2Proof.Machine.execImageChecked s
  | .coefficientsLoaded prim mir t duration => Sys2Proof.Machine.execCoefficientsLoaded prim mir t duration s
  | .slotTick slack late received errors => Sys2Proof.Machine.execSlotTick slack late received errors s
  | .sensorReading vcore temps => Sys2Proof.Machine.execSensorReading vcore temps s
  | .telemetryBoundary => Sys2Proof.Machine.execTelemetryBoundary s
  | .qualityPeriodBoundary c m => Sys2Proof.Machine.execQualityPeriodBoundary c m s
  | .backgroundTaskStart k => Sys2Proof.Machine.execBackgroundTaskStart k s
  | .tselChange level => Sys2Proof.Machine.execTselChange level s
  | .sourceSwitchDone => Sys2Proof.Machine.execSourceSwitchDone s
  | .startupSwitchCountDone command duration => Sys2Proof.Machine.execStartupSwitchCountDone command duration s
  | .hckInterruption => Sys2Proof.Machine.execHckInterruption s
  | .hckReturn => Sys2Proof.Machine.execHckReturn s
  | .portClockStop p => Sys2Proof.Machine.execPortClockStop p s
  | .portClockReturn p => Sys2Proof.Machine.execPortClockReturn p s
  | .hostTrainAttemptStart p => Sys2Proof.Machine.execHostTrainAttemptStart p s
  | .trainBlock p lane content => Sys2Proof.Machine.execTrainBlock p lane content s
  | .linkParametersFrame p body => Sys2Proof.Machine.execLinkParametersFrame p body s
  | .trainingPhaseLimit p => Sys2Proof.Machine.execTrainingPhaseLimit p s
  | .attemptIdleEnd p => Sys2Proof.Machine.execAttemptIdleEnd p s
  | .blockLockLost p lane headers => Sys2Proof.Machine.execBlockLockLost p lane headers s
  | .hostFrameBad p f => Sys2Proof.Machine.execHostFrameBad p f s
  | .frameNotActedOn p seq kind body => Sys2Proof.Machine.execFrameNotActedOn p seq kind body s
  | .ack p b => Sys2Proof.Machine.execAck p b s
  | .nak p b => Sys2Proof.Machine.execNak p b s
  | .credit p b => Sys2Proof.Machine.execCredit p b s
  | .retrain p b => Sys2Proof.Machine.execRetrain p b s
  | .ackRepeat p => Sys2Proof.Machine.execAckRepeat p s
  | .creditRepeat p => Sys2Proof.Machine.execCreditRepeat p s
  | .replayInterval p => Sys2Proof.Machine.execReplayInterval p s
  | .readCompletion p seq tag status data => Sys2Proof.Machine.execReadCompletion p seq tag status data s
  | .readCompletionTimeout p tag => Sys2Proof.Machine.execReadCompletionTimeout p tag s
  | .tagHoldExpiry p tag => Sys2Proof.Machine.execTagHoldExpiry p tag s
  | .anchorMessage p seq body => Sys2Proof.Machine.execAnchorMessage p seq body s
  | .workQueueDoorbell p seq target index => Sys2Proof.Machine.execWorkQueueDoorbell p seq target index s
  | .consumedDoorbell p seq target index => Sys2Proof.Machine.execConsumedDoorbell p seq target index s
  | .itemFetch p q => Sys2Proof.Machine.execItemFetch p q s
  | .eventFrame p ringKind ring => Sys2Proof.Machine.execEventFrame p ringKind ring s
  | .recordWrite p => Sys2Proof.Machine.execRecordWrite p s
  | .malformedItem p q => Sys2Proof.Machine.execMalformedItem p q s
  | .faultClear p q => Sys2Proof.Machine.execFaultClear p q s
  | .faultAcknowledge p q => Sys2Proof.Machine.execFaultAcknowledge p q s
  | .calibrate p q => Sys2Proof.Machine.execCalibrate p q s
  | .soundCable p q => Sys2Proof.Machine.execSoundCable p q s
  | .enterDormant p q => Sys2Proof.Machine.execEnterDormant p q s
  | .injectCheckInversion p q => Sys2Proof.Machine.execInjectCheckInversion p q s
  | .channelUp p q => Sys2Proof.Machine.execChannelUp p q s
  | .channelDown p q => Sys2Proof.Machine.execChannelDown p q s
  | .channelQuiet p q => Sys2Proof.Machine.execChannelQuiet p q s
  | .channelSleep p q => Sys2Proof.Machine.execChannelSleep p q s
  | .marginOverride p q => Sys2Proof.Machine.execMarginOverride p q s
  | .windowOpen p q => Sys2Proof.Machine.execWindowOpen p q s
  | .windowRevoke p q => Sys2Proof.Machine.execWindowRevoke p q s
  | .revokeDrained p q => Sys2Proof.Machine.execRevokeDrained p q s
  | .pageReady p q => Sys2Proof.Machine.execPageReady p q s
  | .pageReadyDrained p q => Sys2Proof.Machine.execPageReadyDrained p q s
  | .injectionLimitExpiry checker => Sys2Proof.Machine.execInjectionLimitExpiry checker s
  | .writeItem p q => Sys2Proof.Machine.execWriteItem p q s
  | .readItem p q => Sys2Proof.Machine.execReadItem p q s
  | .sendItem p q => Sys2Proof.Machine.execSendItem p q s
  | .receiveItem p q => Sys2Proof.Machine.execReceiveItem p q s
  | .atomicItem p q => Sys2Proof.Machine.execAtomicItem p q s
  | .flushItem p q => Sys2Proof.Machine.execFlushItem p q s
  | .relayItem p q => Sys2Proof.Machine.execRelayItem p q s
  | .streamStart p q => Sys2Proof.Machine.execStreamStart p q s
  | .streamBuffer p q => Sys2Proof.Machine.execStreamBuffer p q s
  | .streamStop p q => Sys2Proof.Machine.execStreamStop p q s
  | .reserveRelease p q => Sys2Proof.Machine.execReserveRelease p q s
  | .codewordDecoded c lam => Sys2Proof.Machine.execCodewordDecoded c lam s
  | .syncMinusS c => Sys2Proof.Machine.execSyncMinusS c s
  | .missedSyncs c => Sys2Proof.Machine.execMissedSyncs c s
  | .gainTrackingStep c power => Sys2Proof.Machine.execGainTrackingStep c power s
  | .antiAliasCornerChange c => Sys2Proof.Machine.execAntiAliasCornerChange c s
  | .preEqualiserUpdate c => Sys2Proof.Machine.execPreEqualiserUpdate c s
  | .transformWindowMove c later => Sys2Proof.Machine.execTransformWindowMove c later s
  | .echoRetrainStart c residual => Sys2Proof.Machine.execEchoRetrainStart c residual s
  | .echoRetrainEnd c => Sys2Proof.Machine.execEchoRetrainEnd c s
  | .echoRetrainHoldoffEnd c residual => Sys2Proof.Machine.execEchoRetrainHoldoffEnd c residual s
  | .loadingRecompute c snr => Sys2Proof.Machine.execLoadingRecompute c snr s
  | .bitSwapRequest c msg => Sys2Proof.Machine.execBitSwapRequest c msg s
  | .bitSwapReply c msg => Sys2Proof.Machine.execBitSwapReply c msg s
  | .bitSwapApply c => Sys2Proof.Machine.execBitSwapApply c s
  | .bitSwapResendTimeout c => Sys2Proof.Machine.execBitSwapResendTimeout c s
  | .capabilityFrame c carrier frame => Sys2Proof.Machine.execCapabilityFrame c carrier frame s
  | .roleFrame c carrier frame => Sys2Proof.Machine.execRoleFrame c carrier frame s
  | .startFrame c carrier frame => Sys2Proof.Machine.execStartFrame c carrier frame s
  | .assembledFrame c carrier frame => Sys2Proof.Machine.execAssembledFrame c carrier frame s
  | .holdFrame c carrier frame => Sys2Proof.Machine.execHoldFrame c carrier frame s
  | .searchRoundStart c energy appeared => Sys2Proof.Machine.execSearchRoundStart c energy appeared s
  | .exchangeTimeout c => Sys2Proof.Machine.execExchangeTimeout c s
  | .assemblyTimeout c => Sys2Proof.Machine.execAssemblyTimeout c s
  | .countdownEnd c => Sys2Proof.Machine.execCountdownEnd c s
  | .trainPhaseEnd c m => Sys2Proof.Machine.execTrainPhaseEnd c m s
  | .loadingTable c msg => Sys2Proof.Machine.execLoadingTable c msg s
  | .stateMessage c msg => Sys2Proof.Machine.execStateMessage c msg s
  | .loadingTableApply c => Sys2Proof.Machine.execLoadingTableApply c s
  | .train5Limit c => Sys2Proof.Machine.execTrain5Limit c s
  | .downNotice c msg => Sys2Proof.Machine.execDownNotice c msg s
  | .silenceToleranceExpiry c => Sys2Proof.Machine.execSilenceToleranceExpiry c s
  | .f1Acquired c => Sys2Proof.Machine.execF1Acquired c s
  | .f1Limit c => Sys2Proof.Machine.execF1Limit c s
  | .f2End c snr => Sys2Proof.Machine.execF2End c snr s
  | .f3Limit c => Sys2Proof.Machine.execF3Limit c s
  | .quietIdleTimeout c => Sys2Proof.Machine.execQuietIdleTimeout c s
  | .quietRequest c msg => Sys2Proof.Machine.execQuietRequest c msg s
  | .quietReply c msg => Sys2Proof.Machine.execQuietReply c msg s
  | .quietReplyTimeout c => Sys2Proof.Machine.execQuietReplyTimeout c s
  | .quietStreamsEnded c => Sys2Proof.Machine.execQuietStreamsEnded c s
  | .quietRefresh c => Sys2Proof.Machine.execQuietRefresh c s
  | .refreshMissed c => Sys2Proof.Machine.execRefreshMissed c s
  | .quietWorkPending c => Sys2Proof.Machine.execQuietWorkPending c s
  | .alertDetected c => Sys2Proof.Machine.execAlertDetected c s
  | .alertAnswerTimeout c => Sys2Proof.Machine.execAlertAnswerTimeout c s
  | .sleepNotice c msg => Sys2Proof.Machine.execSleepNotice c msg s
  | .wakeFramesSent c => Sys2Proof.Machine.execWakeFramesSent c s
  | .wakeAnswerLimit c => Sys2Proof.Machine.execWakeAnswerLimit c s
  | .wakeFrameDecoded c runs ident data check => Sys2Proof.Machine.execWakeFrameDecoded c runs ident data check s
  | .wakeRestoreDone c => Sys2Proof.Machine.execWakeRestoreDone c s
  | .falseWakeTimeout c => Sys2Proof.Machine.execFalseWakeTimeout c s
  | .dormantEntryAfterStore m symbols noise => Sys2Proof.Machine.execDormantEntryAfterStore m symbols noise s
  | .dormantLineStop => Sys2Proof.Machine.execDormantLineStop s
  | .exitSignal p => Sys2Proof.Machine.execExitSignal p s
  | .dormantExitBegin => Sys2Proof.Machine.execDormantExitBegin s
  | .warmCountDone duration => Sys2Proof.Machine.execWarmCountDone duration s
  | .restart c msg => Sys2Proof.Machine.execRestart c msg s
  | .resume c msg => Sys2Proof.Machine.execResume c msg s
  | .discardNotice c msg => Sys2Proof.Machine.execDiscardNotice c msg s
  | .pad c msg => Sys2Proof.Machine.execPad c msg s
  | .retransmitTimeout c => Sys2Proof.Machine.execRetransmitTimeout c s
  | .retryBudgetExpiry c => Sys2Proof.Machine.execRetryBudgetExpiry c s
  | .headerCheckFailed c header => Sys2Proof.Machine.execHeaderCheckFailed c header s
  | .writePacket c pkt => Sys2Proof.Machine.execWritePacket c pkt s
  | .readRequest c pkt => Sys2Proof.Machine.execReadRequest c pkt s
  | .readResponse c pkt => Sys2Proof.Machine.execReadResponse c pkt s
  | .messagePacket c pkt => Sys2Proof.Machine.execMessagePacket c pkt s
  | .atomicRequest c pkt => Sys2Proof.Machine.execAtomicRequest c pkt s
  | .atomicResponse c pkt => Sys2Proof.Machine.execAtomicResponse c pkt s
  | .flushRequest c pkt => Sys2Proof.Machine.execFlushRequest c pkt s
  | .flushResponse c pkt => Sys2Proof.Machine.execFlushResponse c pkt s
  | .statusPacket c pkt => Sys2Proof.Machine.execStatusPacket c pkt s
  | .stallLimitExpiry req => Sys2Proof.Machine.execStallLimitExpiry req s
  | .resendBackoffExpiry transaction chunk => Sys2Proof.Machine.execResendBackoffExpiry transaction chunk s
  | .responseLimitExpiry transaction => Sys2Proof.Machine.execResponseLimitExpiry transaction s
  | .translationAgedOut entry => Sys2Proof.Machine.execTranslationAgedOut entry s
  | .dedupEntryExpired table nonce => Sys2Proof.Machine.execDedupEntryExpired table nonce s
  | .streamSlotDue p q => Sys2Proof.Machine.execStreamSlotDue p q s
  | .streamSignal c msg => Sys2Proof.Machine.execStreamSignal c msg s
  | .graceTimerExpiry scope => Sys2Proof.Machine.execGraceTimerExpiry scope s
  | .calNFalling => Sys2Proof.Machine.execCalNFalling s
  | .calNRising => Sys2Proof.Machine.execCalNRising s
  | .calNArmed => Sys2Proof.Machine.execCalNArmed s
  | .calibrationWaitLimit => Sys2Proof.Machine.execCalibrationWaitLimit s
  | .measurePhaseEnd m => Sys2Proof.Machine.execMeasurePhaseEnd m s
  | .flashStatusPoll busy area => Sys2Proof.Machine.execFlashStatusPoll busy area s
  | .flashBusyLimit => Sys2Proof.Machine.execFlashBusyLimit s
  | .storeReadbackDone copy => Sys2Proof.Machine.execStoreReadbackDone copy s
  | .soundingEnd m => Sys2Proof.Machine.execSoundingEnd m s
  | .noiseFloorMeasurementEnd symbols noise changed => Sys2Proof.Machine.execNoiseFloorMeasurementEnd symbols noise changed s
  | .tapReset trst => Sys2Proof.Machine.execTapReset trst s
  | .extest pins cells => Sys2Proof.Machine.execExtest pins cells s
  | .idcode => Sys2Proof.Machine.execIdcode s
  | .samplePreload pins cells => Sys2Proof.Machine.execSamplePreload pins cells s
  | .clamp => Sys2Proof.Machine.execClamp s
  | .highz => Sys2Proof.Machine.execHighz s
  | .extestPulse pins cells => Sys2Proof.Machine.execExtestPulse pins cells s
  | .extestTrain pins cells => Sys2Proof.Machine.execExtestTrain pins cells s
  | .startStatus => Sys2Proof.Machine.execStartStatus s
  | .keyRead => Sys2Proof.Machine.execKeyRead s
  | .keyProgram bits wait => Sys2Proof.Machine.execKeyProgram bits wait s
  | .factoryRef => Sys2Proof.Machine.execFactoryRef s
  | .dieId => Sys2Proof.Machine.execDieId s
  | .bypass opcode => Sys2Proof.Machine.execBypass opcode s
  | .alignRow p lanes => Sys2Proof.Machine.execAlignRow p lanes s
  | .parametersFrameInterval p => Sys2Proof.Machine.execParametersFrameInterval p s

end Sys2Proof.Machine
end

