-- ==== Sys2Proof/Safety.lean ====
section
/-! DEFINITION. What every state of the block keeps to, in the terms the statements use. -/

namespace Sys2Proof.Machine

/-- The keys of a table rise strictly from at least `lo` and stay below `bound`: its canonical form. -/
def keysRise {α : Type} (lo bound : Nat) : Tab α → Bool
  | [] => true
  | (k, _) :: t => decide (lo ≤ k) && decide (k < bound) && keysRise (k + 1) bound t

/-- The widths of the registers that a scan of the test access port can have selected (Table 23.3): none yet, BYPASS,
IDCODE and FACTORY_REF, DIE_ID, START_STATUS, the key-digest field, and the model's boundary register. -/
def scanWidths : List Nat :=
  [0, 1, 32, 64, 192, 288, 512]

/-- The invariant of the block: a device whose pins boundary scan holds is in the reset state (R495), the selected scan
register has a width of Table 23.3, and the channel and queue tables are in canonical form, with channels 0 to 63 and
queues 0 to 511 of the two ports. -/
def State.inv (s : State) : Prop :=
  (s.tap.holding = true → s.start.stage = .reset) ∧ s.tap.width ∈ scanWidths ∧
  keysRise 0 64 s.chans = true ∧ keysRise 0 1024 s.queues = true

/-- What every operation inside a stage of the start leaves: the queue of commands, the test access port, the image, the
clock, the start side but for the record area, and the levels of the inputs; free values are only used up, the keyed
tables keep their canonical form, and an accepted anchor is kept. -/
structure Within (o t : State) : Prop where
  pending : t.pending = o.pending
  tap : t.tap = o.tap
  image : t.image = o.image
  clock : t.clock = o.clock
  start : t.start = { o.start with record := t.start.record }
  resetN : t.pins.resetN = o.pins.resetN
  pwrok : t.pins.pwrok = o.pins.pwrok
  tsel : t.pins.tsel = o.pins.tsel
  calN : t.pins.calN = o.pins.calN
  fresh : o.fresh ≤ t.fresh
  chans : keysRise 0 64 o.chans = true → keysRise 0 64 t.chans = true
  queues : keysRise 0 1024 o.queues = true → keysRise 0 1024 t.queues = true
  anchors : ∀ p a, (o.rings p).anchor = some a → (t.rings p).anchor = some a

/-- Nothing but one channel's own state has changed. -/
def OnlyChan (s t : State) (c : ChanId) : Prop :=
  t = { s with chans := t.chans } ∧ ∀ d, d ≠ c → t.chan d = s.chan d

/-- Occurrences have been counted and records produced, and nothing else has changed (R333, R420 to R425): the fault side, ERR_N,
and of a port's rings the records that wait in its buffer or outside it and the count of lost ones. -/
structure Reported (s t : State) : Prop where
  frame : t = { s with
    faults := t.faults, ringsA := t.ringsA, ringsB := t.ringsB, pins := { s.pins with errLow := t.pins.errLow } }
  rings : ∀ p, t.rings p = { s.rings p with
    buffer := (t.rings p).buffer, outside := (t.rings p).outside, lost := (t.rings p).lost }
  armed : t.faults.armed = s.faults.armed
  quiesced : t.faults.quiesced = s.faults.quiesced

/-- Has an item completed, its entry perhaps still held (R323, R324)? -/
def Item.isDone (i : Item) : Bool :=
  match i.phase with
  | .done _ _ => true
  | _ => false

/-- A link-management message of a type has been delivered on a channel, and a command now acts on it: `t` is `s` with the
message taken. -/
structure Delivered (s : State) (c : ChanId) (msg : Bytes) (kind : Nat) (t : State) : Prop where
  runs : s.runs = true
  type : field msg 0 1 = kind
  waits : (s.chan c).retry.inbox.contains msg = true
  taken : t = s.modRetry c fun r => { r with inbox := eraseFirst (· == msg) r.inbox }

/-- A packet of a kind has arrived on a channel from the partner, and a command now acts on it: `h` is its header and `t` is
`s` with the packet taken. -/
structure Arrived (s : State) (c : ChanId) (pkt : Packet) (kind : Nat) (h : Head) (t : State) : Prop where
  runs : s.runs = true
  head : h = readHead pkt.header
  kind : h.kind = kind
  waits : (s.chan (s.owner c)).retry.arrived.contains pkt = true
  source : h.source = (s.chan c).partner.node
  taken : t = s.modRetry (s.owner c) fun r => { r with arrived := eraseFirst (· == pkt) r.arrived }

/-- An arrived packet that checks 2 to 4 pass, on a device that is not quiesced (Table 15.3, R433). -/
structure Passed (s : State) (c : ChanId) (pkt : Packet) (kind : Nat) (h : Head) (t : State) : Prop
    extends Arrived s c pkt kind h t where
  fields : headFieldsOk h = true
  dest : h.dest.toNat = t.node
  open' : t.faults.quiesced = false

/-- The test access port stands in Run-Test/Idle after an instruction, TDO high-impedance (Table 2.5). -/
def State.tapIdle (s : State) : State :=
  { s with pins := { s.pins with tck := false, tms := false, trstN := true, tdo := none } }

/-- A copy of the image fails with a result code (R99, R100): it is kept, the mirror is loaded after the primary, and after the mirror the
device stands in the image-refusal state of Table 5.3. -/
structure CopyFails (s t : State) (d : FlashDev) (code : Nat) : Prop where
  frame : t = { s with start := t.start, pins := t.pins, out := t.out }
  primary : d = .primary →
    t.start = { s.start with primary := BitVec.ofNat 8 code, stage := .imageLoad .mirror, copy := [] } ∧
    t.pins = { s.pins with flSelA := t.pins.flSelA, flSelB := true }
  mirror : d = .mirror →
    t.start = { s.start with mirror := BitVec.ofNat 8 code, stage := .imageRefusal, copy := [] } ∧
    t.pins = { s.pins with
      errLow := true, wakeLow := false, flWp := false, flSelA := false, flSelB := false, intALow := true, intBLow := true }

/-- The link layer of a port has become `l`, off the wire: what has gone out on its lanes shows in the state of its stream and
scramblers alone. -/
def HostLink.offWire (l : HostLink) : HostLink :=
  { l with stream := [], scramblers := [], rows := 0, wire := [] }

/-- Nothing has changed but a port's link layer, which is now `l`, what has gone out on its lanes, the log, which `sent` follows, and
the model's own counter. -/
structure LinkBecomes (s t : State) (p : Port) (l : HostLink) (sent : List Out) : Prop where
  link : (t.link p).offWire = l.offWire
  rest : t = { s.setLink p (t.link p) with out := s.out ++ sent, fresh := t.fresh }

/-- The reset state of Table 2.5, reached from `s`: everything the device holds stands at its reset value; what outlives a
reset are the levels of the inputs, a standing clock of the board, the test access port, the waiting commands, and the
model's own counter and log. -/
structure ResetFrom (s t : State) : Prop where
  start : t.start = Start.reset
  image : t.image = Image.reset
  clock : t.clock = Clock.reset
  pins : t.pins = { Pins.reset with
    resetN := s.pins.resetN, pwrok := s.pins.pwrok, tsel := s.pins.tsel, calN := s.pins.calN, tck := s.pins.tck
    tms := s.pins.tms, tdi := s.pins.tdi, trstN := s.pins.trstN }
  links : ∀ p, t.link p = { HostLink.reset with clockStopped := (s.link p).clockStopped }
  rings : ∀ p, t.rings p = PortRings.reset
  queues : t.queues = []
  chans : t.chans = []
  transport : t.transport = Transport.reset
  faults : t.faults = Faults.reset
  tasks : t.tasks = []
  calib : t.calib = Calib.reset
  telemA : t.telemA = Telemetry.reset
  telemB : t.telemB = Telemetry.reset
  sched : t.sched = Sched.reset
  entry : t.entry = none
  exitHeld : t.exitHeld = false
  pending : t.pending = s.pending
  fresh : t.fresh = s.fresh
  out : t.out = s.out

/-- A device at rest in the reset state: every field at its reset value but the input levels, the choice and the standing of
the clocks, the test access port, the waiting commands, and the model's own counter and log. -/
def AtRest (s : State) : Prop :=
  s = { State.reset with
    pending := s.pending
    pins := { Pins.reset with
      resetN := s.pins.resetN, pwrok := s.pins.pwrok, tsel := s.pins.tsel, calN := s.pins.calN, tck := s.pins.tck
      tms := s.pins.tms, tdi := s.pins.tdi, trstN := s.pins.trstN }
    clock := { Clock.reset with source := s.clock.source, interrupted := s.clock.interrupted }
    linkA := { HostLink.reset with clockStopped := s.linkA.clockStopped }
    linkB := { HostLink.reset with clockStopped := s.linkB.clockStopped }
    tap := s.tap, fresh := s.fresh, out := s.out }

end Sys2Proof.Machine
end

