-- ==== Sys2Proof/Certificates/Slice0/Obligations.lean ====
section
/-! DEFINITION. The statements for the provers. Each says what a command or the block does, in the words of the rules of
spec/ that its entry in OBLIGATIONS.json cites. -/

open Sys2Proof Sys2Proof.Machine

/-! ### The block as a whole -/

/-- A step takes the command at the front of the queue and carries it out on the state with the queue's rest; on an empty
queue the block idles, which is the model's choice (log entry 2). -/
def Obligations.StepRunsFrontCommand : Prop :=
  (∀ (s : State) (c : Instr) (rest : List Instr), s.pending = c :: rest → step s = exec c { s with pending := rest }) ∧
  (∀ s : State, s.pending = [] → step s = .next s)

/-- No command stops the block or touches the queue of those that wait. -/
def Obligations.CommandsRunAndKeepQueue : Prop :=
  ∀ (c : Instr) (s : State), ∃ t, exec c s = .next t ∧ t.pending = s.pending

/-- The invariant of the block holds in the reset state. -/
def Obligations.ResetMeetsInvariant : Prop :=
  State.reset.inv

/-- Every step keeps the invariant of the block: a device held by boundary scan stands in the reset state (R495), the scan
register has a width of Table 23.3, and the channel and queue tables are in canonical form. -/
def Obligations.StepKeepsInvariant : Prop :=
  ∀ s t : State, s.inv → step s = .next t → t.inv

/-- A device at rest in the reset state stays so, whatever commands come, until a reset input is released. -/
def Obligations.ResetStateStands : Prop :=
  (∀ (c : Instr) (s t : State), AtRest s → (∀ pin, c ≠ .resetRelease pin) → exec c s = .next t → AtRest t) ∧
  AtRest State.reset

/-- Every command but those named leaves the image, the time base and clocks, the start state but for the kept start record, the levels
of the four inputs, the test access port and the queue of commands as they were; it keeps accepted anchors, and the channel and queue
tables in canonical form. -/
def Obligations.StageFrame : Prop :=
  ∀ (c : Instr) (s t : State), exec c s = .next t →
    (match c with
     | .resetAssert .. | .resetRelease .. | .stabilityCountDone .. | .strapResistorStepEnd .. | .imageLoaded ..
     | .imageChecked | .coefficientsLoaded .. | .slotTick .. | .tselChange .. | .sourceSwitchDone
     | .startupSwitchCountDone .. | .hckInterruption | .hckReturn | .dormantLineStop | .dormantExitBegin
     | .warmCountDone .. | .calNFalling | .calNRising | .tapReset .. | .extest .. | .idcode | .samplePreload ..
     | .clamp | .highz | .extestPulse .. | .extestTrain .. | .startStatus | .keyRead | .keyProgram .. | .factoryRef
     | .dieId | .bypass .. => false
     | _ => true) = true → Within s t

/-- The time base moves only at slot ticks: any other command leaves the superframe count unless it resets the device. At a tick of the
running schedule the slot goes on by one, and after slot 255 the superframe count goes on by one, from 0xFFFF_FFFF_FFFF to 0. At the
first tick of the schedule after a reset the count is zero. -/
def Obligations.TimeBaseMovesAtTicks : Prop :=
  (∀ (slack : List (Nat × Int)) (late : List Nat) (rx : List (ChanId × Reception)) (errors : List SramError) (s : State),
    s.runs = true → ∃ t, exec (.slotTick slack late rx errors) s = .next t ∧ t.clock.slot = s.clock.slot + 1 ∧
    t.clock.sf = (if s.clock.slot = 255 then s.clock.sf + 1 else s.clock.sf) ∧
    t.clock.symbols = s.clock.symbols + 1) ∧
  (∀ (slack : List (Nat × Int)) (late : List Nat) (rx : List (ChanId × Reception)) (errors : List SramError) (s : State),
    s.start.stage = .ready → s.start.recount = none → s.clock.interrupted = false → ∃ t,
    exec (.slotTick slack late rx errors) s = .next t ∧ t.start.stage = .running ∧ t.clock.slot = 0 ∧
    t.clock.sf = (if s.start.kind = 0 then 0 else s.clock.sf + 1)) ∧
  (∀ (c : Instr) (s t : State), exec c s = .next t → t.clock.sf = s.clock.sf ∨
    (∃ slack late rx errors, c = .slotTick slack late rx errors) ∨ (t.clock = Clock.reset ∧ t.start.stage = .reset))

/-- The commands that may end a port's accepted anchor (R104, R314): a reset input, a boundary-scan instruction that acts on
pins, and the exit from dormant-deep. -/
def Obligations.AnchorsAreKept : Prop :=
  ∀ (c : Instr) (s t : State) (p : Port) (a : Anchor), exec c s = .next t → (s.rings p).anchor = some a →
    (t.rings p).anchor = some a ∨ t.start.stage = .reset ∨ t.start.stage = .warm .deep

/-- What the accepted image holds changes only where a copy is accepted, at a reset, and at entry into a dormant state, which
only marks it (R147, R311). -/
def Obligations.ImageIsKept : Prop :=
  ∀ (c : Instr) (s t : State), exec c s = .next t → t.image = s.image ∨
    (c = .imageChecked ∧ t.start.stage = .coefficients) ∨ t.start.stage = .reset ∨
    (c = .dormantLineStop ∧ ∃ k, t.start.stage = .dormant k ∧
      t.image = { s.image with loaded := s.image.loaded && k == .retain })

/-- The straps are sampled once after a release, and hold until the next reset (R36). -/
def Obligations.StrapsHold : Prop :=
  ∀ (c : Instr) (s t : State), exec c s = .next t → t.start.straps = s.start.straps ∨
    (s.start.stage = .stability ∧ ∃ straps calN, c = .stabilityCountDone straps calN) ∨
    (t.start.stage = .reset ∧ t.start.straps = 0)

/-- The one-time-programmable fields: a bit of the key digest, once set, is never cleared, and nothing but KEY_PROGRAM, with
RESET_N low, PWROK high, the field blank and edges of the selected clock during its wait, sets one, and only where a 1 was shifted in;
the factory reference and the die identifier never change (R144, R145, R496). -/
def Obligations.KeyBitsAreOnlySet : Prop :=
  ∀ (c : Instr) (s t : State), exec c s = .next t →
    t.tap.factory = s.tap.factory ∧ t.tap.die = s.tap.die ∧
    (t.tap.key = s.tap.key ∨
      (s.tap.key = 0 ∧ s.pins.resetN = false ∧ s.pins.pwrok = true ∧
        ∃ bits w, c = .keyProgram bits w ∧ w ≠ .noClock ∧ t.tap.key &&& bits = t.tap.key))

/-- The commands of the host side, of start-up, of calibration and of the records leave every line channel as it was. -/
def Obligations.HostSideLeavesChannels : Prop :=
  ∀ (c : Instr) (s t : State), exec c s = .next t →
    (match c with
     | .stabilityCountDone .. | .strapResistorStepEnd .. | .portStabilityCountDone .. | .imageLoaded .. | .imageChecked
     | .coefficientsLoaded .. | .sensorReading .. | .telemetryBoundary | .sourceSwitchDone
     | .startupSwitchCountDone .. | .hckInterruption | .portClockStop .. | .portClockReturn .. | .hostTrainAttemptStart ..
     | .trainBlock .. | .linkParametersFrame .. | .trainingPhaseLimit .. | .attemptIdleEnd .. | .blockLockLost ..
     | .hostFrameBad .. | .frameNotActedOn .. | .ack .. | .nak .. | .credit .. | .retrain .. | .ackRepeat ..
     | .creditRepeat .. | .replayInterval .. | .tagHoldExpiry .. | .anchorMessage .. | .workQueueDoorbell ..
     | .consumedDoorbell .. | .itemFetch .. | .eventFrame .. | .recordWrite .. | .malformedItem ..
     | .faultAcknowledge .. | .calibrate .. | .soundCable .. | .enterDormant .. | .injectCheckInversion ..
     | .windowOpen .. | .windowRevoke .. | .revokeDrained .. | .pageReady .. | .pageReadyDrained ..
     | .injectionLimitExpiry .. | .receiveItem .. | .streamStart .. | .streamBuffer .. | .streamStop ..
     | .dedupEntryExpired .. | .translationAgedOut .. | .calNFalling | .calNRising | .calNArmed
     | .calibrationWaitLimit | .measurePhaseEnd .. | .flashStatusPoll .. | .flashBusyLimit | .storeReadbackDone ..
     | .soundingEnd .. | .noiseFloorMeasurementEnd .. | .tapReset .. | .idcode | .samplePreload .. | .startStatus
     | .keyRead | .keyProgram .. | .factoryRef | .dieId | .bypass .. | .parametersFrameInterval .. | .exitSignal ..
     | .warmCountDone .. | .resetRelease .. => true
     | _ => false) = true → t.chans = s.chans

/-- A channel changes its link state only at the commands named: every packet and message of the transport, every timer of the retry
layer, every host-side, start-up, calibration and test command, and every update of the receive path but those named, leaves every
channel in the state in which it stood. -/
def Obligations.LinkStateMovers : Prop :=
  ∀ (c : Instr) (s t : State) (d : ChanId), exec c s = .next t →
    (match c with
     | .resetAssert .. | .slotTick .. | .tselChange .. | .hckReturn | .faultClear .. | .channelUp ..
     | .channelDown .. | .channelSleep .. | .syncMinusS .. | .missedSyncs .. | .echoRetrainHoldoffEnd ..
     | .loadingRecompute .. | .bitSwapReply .. | .bitSwapResendTimeout .. | .capabilityFrame .. | .roleFrame ..
     | .assembledFrame .. | .holdFrame .. | .searchRoundStart .. | .countdownEnd .. | .trainPhaseEnd ..
     | .stateMessage .. | .loadingTableApply .. | .downNotice .. | .silenceToleranceExpiry .. | .f1Limit ..
     | .f2End .. | .f3Limit .. | .quietStreamsEnded .. | .refreshMissed .. | .alertDetected ..
     | .alertAnswerTimeout .. | .sleepNotice .. | .wakeFramesSent .. | .wakeAnswerLimit .. | .wakeRestoreDone ..
     | .falseWakeTimeout .. | .dormantLineStop | .dormantExitBegin | .graceTimerExpiry .. | .extest .. | .clamp
     | .highz | .extestPulse .. | .extestTrain .. => true
     | _ => false) = false → (t.chan d).link = (s.chan d).link

/-! ### The test access port -/

/-- TAP_RESET, IDCODE, SAMPLE/PRELOAD, START_STATUS, KEY_READ, FACTORY_REF, DIE_ID and BYPASS complete in every state: each shifts the
register that Table 23.3 gives it out, leaves TDO high-impedance and the outputs with the device, and changes nothing but the test
access port, of whose one-time-programmable fields nothing. SAMPLE/PRELOAD shifts the pins out as sampled, and the boundary register
holds then what was shifted in. An opcode that Table 23.3 does not give acts as BYPASS. -/
def Obligations.ScanInstructionsShift : Prop :=
  ∀ s : State,
    (∀ trst, exec (.tapReset trst) s = .next { s with
      tap := { s.tap with ir := 0x01, width := 0, shifted := 0, drives := .device }
      pins := { s.pins with tck := false, tms := true, trstN := !trst, tdo := none } }) ∧
    exec .idcode s = .next { s.tapIdle with tap := { s.tap with
      ir := 0x01, width := 32, shifted := 0x1640378F, drives := .device } } ∧
    (∀ pins cells, exec (.samplePreload pins cells) s = .next { s.tapIdle with tap := { s.tap with
      ir := 0x02, width := 512, shifted := s.sampled pins, boundary := cells, drives := .device } }) ∧
    exec .startStatus s = .next { s.tapIdle with tap := { s.tap with
      ir := 0x10, width := 192, shifted := BitVec.ofNat 512 s.statusRegister, drives := .device } } ∧
    exec .keyRead s = .next { s.tapIdle with tap := { s.tap with
      ir := 0x11, width := 288, shifted := s.tap.key.setWidth 512, drives := .device } } ∧
    exec .factoryRef s = .next { s.tapIdle with tap := { s.tap with
      ir := 0x13, width := 32, shifted := s.tap.factory.setWidth 512, drives := .device } } ∧
    exec .dieId s = .next { s.tapIdle with tap := { s.tap with
      ir := 0x14, width := 64, shifted := s.tap.die.setWidth 512, drives := .device } } ∧
    ∀ opcode : Byte, opcode ∉ ([0x00, 0x01, 0x02, 0x03, 0x04, 0x09, 0x0A, 0x10, 0x11, 0x12, 0x13, 0x14] : List Byte) →
      exec (.bypass opcode) s = .next { s.tapIdle with tap := { s.tap with
        ir := opcode, width := 1, shifted := 0, drives := .device } }

/-- An instruction that acts on pins completes in every state: it shifts its register, puts the device into the reset state, and
holds it there until a reset input is driven low. EXTEST, EXTEST_PULSE and EXTEST_TRAIN drive the pins from the cells that the boundary
register holds, shift the pins out as sampled then, and take new cells; CLAMP drives them from those cells, HIGHZ drives none. -/
def Obligations.PinInstructionsReset : Prop :=
  ∀ s : State,
    (∀ pins cells c ir, (c, ir) ∈ [(Instr.extest pins cells, (0x00 : Byte)), (.extestPulse pins cells, 0x09),
        (.extestTrain pins cells, 0x0A)] →
      ∃ t, exec c s = .next t ∧ ResetFrom s.tapIdle t ∧ t.tap = { s.tap with
        ir := ir, width := 512, shifted := (s.pinsFromTap .boundary).sampled pins, boundary := cells, holding := true
        drives := .boundary }) ∧
    (∀ c ir d, (c, ir, d) ∈ [(Instr.clamp, (0x03 : Byte), PinSource.boundary), (.highz, 0x04, .highz)] →
      ∃ t, exec c s = .next t ∧ ResetFrom s.tapIdle t ∧
        t.tap = { s.tap with ir := ir, width := 1, shifted := 0, holding := true, drives := d })

/-- KEY_PROGRAM completes in every state and shifts the old field out. While RESET_N is low, PWROK is high and the field is blank, a
wait of full length leaves exactly the bits shifted in as 1 set, a wait in which no edge of the selected clock comes sets none, and an
interrupted one sets a subset of them that the spec leaves open (log entry 5). In every other case the field keeps its value. Nothing
changes but the test access port, whether the selected clock stands, and, where bits may be set, the model's own counter. -/
def Obligations.KeyProgramSetsBits : Prop :=
  ∀ (s : State) (bits : BitVec 288) (wait : KeyWait), ∃ t, exec (.keyProgram bits wait) s = .next t ∧
    t = { s.tapIdle with tap := t.tap, fresh := t.fresh, linkA := t.linkA, linkB := t.linkB } ∧
    t.tap = { s.tap with
      ir := 0x12, width := 288, shifted := s.tap.key.setWidth 512, key := t.tap.key, drives := .device } ∧
    (s.pins.resetN = false → s.pins.pwrok = true → s.tap.key = 0 →
      (wait = .complete → t.tap.key = bits) ∧ (wait = .noClock → t.tap.key = 0) ∧
      (wait = .interrupted → t.tap.key &&& bits = t.tap.key) ∧
      ∀ p, t.link p = (if p = s.sourcePort ∧ wait ≠ .noClock then { s.link p with clockStopped := false } else s.link p)) ∧
    ((s.pins.resetN = true ∨ s.pins.pwrok = false ∨ s.tap.key ≠ 0) →
      t.tap.key = s.tap.key ∧ t.fresh = s.fresh ∧ ∀ p, t.link p = s.link p)

/-! ### Reset and start-up -/

/-- RESET_ASSERT puts the block into the reset state from any state, and ends a hold by boundary scan. RESET_RELEASE of the input that
was still low, with no such hold, begins the stability count on the source that TSEL selects, and records TSEL's level. -/
def Obligations.ResetInputs : Prop :=
  (∀ (pin : ResetPin) (s : State), ∃ t, exec (.resetAssert pin) s = .next t ∧ ResetFrom (s.setReset pin false) t ∧
    t.tap = { s.tap with holding := false }) ∧
  (∀ (pin : ResetPin) (s : State), s.start.stage = .reset → s.tap.holding = false →
    (pin = .resetN → s.pins.pwrok = true) → (pin = .pwrok → s.pins.resetN = true) →
    exec (.resetRelease pin) s = .next { s with
      pins := { s.pins with resetN := true, pwrok := true }
      start := { s.start with stage := .stability, tselAtRelease := s.pins.tsel }
      clock := { s.clock with
        source := s.pins.tsel, pendingTsel := false
        interrupted := if s.pins.tsel then s.linkB.clockStopped else s.linkA.clockStopped } })

/-- STABILITY_COUNT_DONE at the end of the cold start's count samples the eight straps and CAL_N. With TESTMODE at 1, or with both
ports disabled, the device refuses to start with ERR_N low; otherwise the strap and resistor step follows. Nothing else changes. -/
def Obligations.StrapsSampledOnce : Prop :=
  ∀ (l : StrapLevels) (calN : Bool) (s : State), s.start.stage = .stability → s.start.recount = none →
    s.clock.interrupted = false → ∃ t, exec (.stabilityCountDone l calN) s = .next t ∧
    t = { s with start := t.start, pins := t.pins } ∧
    t.start = { s.start with
      stage := t.start.stage, sampled := true, straps := t.start.straps, calHeld := !calN } ∧
    (t.strap 0 = l.imgsel0 ∧ t.strap 1 = l.imgsel1 ∧ t.strap 2 = l.hlwA ∧ t.strap 3 = l.hlwB ∧ t.strap 4 = l.hrate ∧
      t.strap 5 = l.portenA ∧ t.strap 6 = l.portenB ∧ t.strap 7 = l.testmode) ∧
    ((l.testmode = true ∨ (l.portenA = false ∧ l.portenB = false)) →
      t.start.stage = .strapRefusal ∧ t.pins = { s.pins with
        calN := calN, errLow := true, wakeLow := false, flWp := false, flSelA := false, flSelB := false }) ∧
    (l.testmode = false → (l.portenA = true ∨ l.portenB = true) →
      t.start.stage = .strapStep ∧ t.pins = { s.pins with calN := calN })

/-- A measured resistance in Ω gives the code of the band of Table 2.7 it lies in, edges included; a measurement above one band and
below the next is out of band with the lower code; below 0.920 kΩ the code is 0, out of band above 0.200 kΩ; above 158.8 kΩ the code
is 14, out of band, below 500 kΩ, and otherwise, as with no crossing, 15. The step stores the seven codes and flags in the start
state and goes on whether or not a pin is out of band. -/
def Obligations.ResistorBands : Prop :=
  (∀ (k lo hi r : Nat), (k, lo, hi) ∈ ([(0, 0, 200), (1, 920, 1080), (2, 1352, 1588), (3, 1978, 2322), (4, 2907, 3413),
      (5, 4269, 5011), (6, 6265, 7355), (7, 9200, 10800), (8, 13520, 15880), (9, 19780, 23220), (10, 29070, 34130),
      (11, 42690, 50110), (12, 62650, 73550), (13, 92000, 108000), (14, 135200, 158800)] : List (Nat × Nat × Nat)) →
    lo ≤ r → r ≤ hi → resistorCode (some r) = (k, false)) ∧
  (∀ (k hi next r : Nat), (k, hi, next) ∈ ([(0, 200, 920), (1, 1080, 1352), (2, 1588, 1978), (3, 2322, 2907),
      (4, 3413, 4269), (5, 5011, 6265), (6, 7355, 9200), (7, 10800, 13520), (8, 15880, 19780), (9, 23220, 29070),
      (10, 34130, 42690), (11, 50110, 62650), (12, 73550, 92000), (13, 108000, 135200), (14, 158800, 500000)] :
      List (Nat × Nat × Nat)) → hi < r → r < next → resistorCode (some r) = (k, true)) ∧
  (∀ r, 500000 ≤ r → resistorCode (some r) = (15, false)) ∧ resistorCode none = (15, false) ∧
  (∀ (rm : List (Option Nat)) (s : State), s.start.stage = .strapStep → s.start.recount = none →
    s.clock.interrupted = false → rm.length = 7 → ∃ t, exec (.strapResistorStepEnd rm) s = .next t ∧
      t = { s with start := t.start, pins := t.pins, out := t.out } ∧
      t.start = { s.start with
        codes := rm.map (fun r => (resistorCode r).1), outOfBand := rm.map (fun r => (resistorCode r).2)
        stage := .imageLoad .primary, copy := [] })

/-- IDSEL3 gives bits [15:12] of the node identity, IDSEL2 bits [11:8], IDSEL1 bits [7:4] and IDSEL0 bits [3:0]; PTSEL2 gives bits
[11:8] of the default partition, PTSEL1 bits [7:4] and PTSEL0 bits [3:0]. Every value of either is reached, and the partition applies
to every queue for which the image names none. -/
def Obligations.NodeIdentity : Prop :=
  (∀ (s : State) (i0 i1 i2 i3 p0 p1 p2 : Nat), s.start.codes = [i0, i1, i2, i3, p0, p1, p2] → i0 < 16 → i1 < 16 → i2 < 16 →
    i3 < 16 → p0 < 16 → p1 < 16 → p2 < 16 →
    s.node < 65536 ∧ bits s.node 15 12 = i3 ∧ bits s.node 11 8 = i2 ∧ bits s.node 7 4 = i1 ∧ bits s.node 3 0 = i0 ∧
    s.partition < 4096 ∧ bits s.partition 11 8 = p2 ∧ bits s.partition 7 4 = p1 ∧ bits s.partition 3 0 = p0) ∧
  (∀ n p : Nat, n < 65536 → p < 4096 → ∃ codes : List Nat, codes.length = 7 ∧ (∀ c ∈ codes, c < 16) ∧
    ∀ s : State, s.start.codes = codes → s.node = n ∧ s.partition = p) ∧
  (∀ (s : State) (p : Port) (q : Fin 512), s.elem 0x0700 (queueKey p q) = 0xFFFF → s.queuePartition p q = s.partition)

/-- IMAGE_LOADED with a copy whose load result is 0 keeps the copy, and its checks follow; IMAGE_CHECKED with result 1 accepts its
content, and the coefficients follow. Any other result is kept as the copy's result code: after the primary the mirror is loaded, after
the mirror the device refuses to start, with ERR_N and both INT pins low, WAKE_N released and both flash devices deselected. -/
def Obligations.ImageLoading : Prop :=
  (∀ (sfdp bytes : Bytes) (d : FlashDev) (s : State), s.start.stage = .imageLoad d → s.start.recount = none →
    s.clock.interrupted = false → ∃ t, exec (.imageLoaded sfdp bytes) s = .next t ∧
      (loadResult sfdp bytes = 0 →
        t.start = { s.start with stage := .imageCheck d, copy := fit (imageLength bytes) bytes } ∧
        t = { s with start := t.start, out := t.out, pins := (match d with
          | .primary => { s.pins with flSelA := false }
          | .mirror => { s.pins with flSelB := false }) }) ∧
      (loadResult sfdp bytes ≠ 0 → CopyFails s t d (loadResult sfdp bytes))) ∧
  (∀ (d : FlashDev) (s : State), s.start.stage = .imageCheck d → s.start.recount = none → s.clock.interrupted = false →
    (checkCode s.tap.key s.start.straps s.start.copy = 1 → exec .imageChecked s = .next { s with
      image := imageContent (d == .mirror) (s.tap.key != 0) s.start.copy
      start := (match d with
        | .primary => { s.start with primary := 1, stage := .coefficients, copy := [] }
        | .mirror => { s.start with mirror := 1, stage := .coefficients, copy := [] }) }) ∧
    (checkCode s.tap.key s.start.straps s.start.copy ≠ 1 → ∃ t, exec .imageChecked s = .next t ∧
      CopyFails s t d (checkCode s.tap.key s.start.straps s.start.copy)))

/-- COEFFICIENTS_LOADED keeps the start's length and leads to the first slot tick, with no image, link, ring, queue or channel
changed. PORT_STABILITY_COUNT_DONE, outside reset and the dormant states, while the port's clock gives edges and straps do not disable
the port, lets that port train and changes nothing else. -/
def Obligations.CoefficientsAndPortCounts : Prop :=
  (∀ (prim mir : CoeffRead) (heat : Int) (duration : Nat) (s : State), s.start.stage = .coefficients →
    s.start.recount = none → s.clock.interrupted = false →
    ∃ t, exec (.coefficientsLoaded prim mir heat duration) s = .next t ∧ t.start.stage = .ready ∧
      t.start.duration = BitVec.ofNat 32 (min duration (2 ^ 32 - 1)) ∧
      t = { s with start := t.start, calib := t.calib, pins := t.pins, out := t.out }) ∧
  (∀ (p : Port) (s : State), s.start.stage ≠ .reset → (∀ k, s.start.stage ≠ .dormant k) → (s.link p).clockStopped = false →
    (s.start.sampled = true → s.enabled p = true) →
    exec (.portStabilityCountDone p) s = .next (s.setLink p { s.link p with counted := true }))

/-! ### Clocks -/

/-- TSEL_CHANGE in the running schedule stops the line domain and takes the new source, the time base standing still;
SOURCE_SWITCH_DONE lets the schedule run again, counts the switch, and leaves the time base where the next tick is slot 0 of the
superframe after the abandoned one. Before the first tick TSEL_CHANGE takes the new source and counts the change;
STARTUP_SWITCH_COUNT_DONE then goes on with the stage, from the beginning of the flash command that the change had interrupted, and
before the first tick with the start's length. In the reset state and in a dormant state only the pin's level changes, and so it is in
the refused states, by the model's choice (log entry 82). -/
def Obligations.SourceSwitchRuns : Prop :=
  (∀ (level : Bool) (s : State), s.pins.tsel ≠ level → s.start.stage = .running → s.clock.interrupted = false →
    ∃ t, exec (.tselChange level) s = .next t ∧ t = ({ s with pins := { s.pins with tsel := level } } : State).beginSwitch level ∧
      t.start.stage = .switching ∧ t.clock.source = level ∧ t.pins.tsel = level ∧
      t.clock.sf = s.clock.sf ∧ t.clock.slot = s.clock.slot ∧ t.clock.switches = s.clock.switches ∧ t.image = s.image) ∧
  (∀ s : State, s.start.stage = .switching → s.clock.interrupted = false →
    ∃ t, exec .sourceSwitchDone s = .next t ∧ t = { s with start := t.start, clock := t.clock, sched := t.sched, pins := t.pins, out := t.out } ∧
      t.start = { s.start with stage := .running } ∧
      t.clock = { s.clock with slot := 255, switches := s.clock.switches + 1 }) ∧
  (∀ (level : Bool) (s : State), s.pins.tsel ≠ level →
    s.start.stage ∈ [Stage.strapStep, .coefficients, .ready, .imageLoad .primary, .imageLoad .mirror,
      .imageCheck .primary, .imageCheck .mirror] →
    exec (.tselChange level) s = .next { s with
      start := { s.start with switches := s.start.switches + 1, recount := some s.start.stage }
      pins := { s.pins with tsel := level, flSelA := false, flSelB := false }
      clock := { s.clock with
        source := level, interrupted := (s.link (if level then .b else .a)).clockStopped, pendingTsel := false } }) ∧
  (∀ (level : Bool) (s : State), s.pins.tsel ≠ level → s.start.stage ∈ [Stage.stability, .warm .retain, .warm .deep] →
    exec (.tselChange level) s = .next { s with
      start := { s.start with switches := s.start.switches + 1, recount := none }
      pins := { s.pins with tsel := level }
      clock := { s.clock with
        source := level, interrupted := (s.link (if level then .b else .a)).clockStopped, pendingTsel := false } }) ∧
  (∀ (k : Fin 20) (duration : Nat) (s t : State), s.start.recount.isSome = true → s.clock.interrupted = false →
    t = { s with start := { s.start with recount := none } } →
    exec (.startupSwitchCountDone k duration) s = .next (match s.start.stage with
      | .imageLoad d => t.loadCommand d k.val
      | .coefficients => t.coefficientRead k.val
      | .ready => { t with start := { t.start with duration := BitVec.ofNat 32 (min duration (2 ^ 32 - 1)) } }
      | _ => t)) ∧
  (∀ (level : Bool) (s : State), s.pins.tsel ≠ level →
    s.start.stage ∈ [Stage.dormant .retain, .dormant .deep, .reset, .strapRefusal, .imageRefusal] →
    exec (.tselChange level) s = .next { s with pins := { s.pins with tsel := level } })

/-- HCK_INTERRUPTION stops slot pacing outside the dormant states, with the time base where it stood. HCK_RETURN with no TSEL change
waiting lets it go on from there. PORT_CLOCK_STOP and PORT_CLOCK_RETURN of a clock that TSEL does not select stop and restart that
port's link layer alone; the doorbell credits taken meanwhile are granted as the clock returns. -/
def Obligations.ClockInterruptions : Prop :=
  (∀ s : State, (∀ k, s.start.stage ≠ .dormant k) →
    ∃ t, exec .hckInterruption s = .next t ∧
      t = { s.setLink s.sourcePort { s.link s.sourcePort with clockStopped := true } with
        clock := { s.clock with interrupted := true }, sched := t.sched, tasks := t.tasks }) ∧
  (∀ (k : DormantKind) (s : State), s.start.stage = .dormant k → exec .hckInterruption s =
    .next (s.setLink s.sourcePort { s.link s.sourcePort with clockStopped := true })) ∧
  (∀ s : State, (s.link s.sourcePort).clockStopped = true → s.clock.pendingTsel = false →
    ∃ t, exec .hckReturn s = .next t ∧
      ∀ n, n = (s.link s.sourcePort).doorbells + BitVec.ofNat 16 (s.link s.sourcePort).owed →
        LinkBecomes { s with clock := { s.clock with interrupted := false, pendingTsel := false } } t s.sourcePort
          ({ s.link s.sourcePort with clockStopped := false, doorbells := n, owed := 0 }.pump s.clock.symbols)
          (if (s.link s.sourcePort).owed = 0 ∨ (s.link s.sourcePort).phase ≠ .up then [] else [.link s.sourcePort 3 0 n])) ∧
  (∀ (p : Port) (s : State), s.clockFree p = true →
    exec (.portClockStop p) s = .next (s.setLink p { s.link p with clockStopped := true }) ∧
    ∃ t, exec (.portClockReturn p) s = .next t ∧ ∀ n, n = (s.link p).doorbells + BitVec.ofNat 16 (s.link p).owed →
      LinkBecomes s t p ({ s.link p with clockStopped := false, doorbells := n, owed := 0 }.pump s.clock.symbols)
        (if (s.link p).owed = 0 ∨ (s.link p).phase ≠ .up then [] else [.link p 3 0 n]))

/-! ### The schedule -/

/-- SENSOR_READING, at a superframe boundary whose count is a multiple of 16, in a clearing of the telemetry writer's (as each of its slots
is, R127), keeps the lowest VCORE and each sensor's highest temperature since the last record in both ports' periods, and makes the
envelope check: VCORE less 5 mV below vmin at 2 °C above the highest temperature, or that temperature outside -20 to 110 °C, counts a
violation in each period and an occurrence at 0x391 with the values compared. TELEMETRY_BOUNDARY at the image's boundary writes, for each
port with an anchor whose period has run, the period's record, counts it and begins a new period; a port without an anchor is left. -/
def Obligations.SensorsAndTelemetry : Prop :=
  (∀ (vcore : Nat) (temps : List Int) (s u : State) (tm vmin : Int) (bad : Bool), s.atBoundary = true →
    s.mayRun 87 4 = true → s.clock.sf.toNat % 16 = 0 → temps.length = 9 → tm = hottest temps →
    vmin = envelopeAt s.envelope (min (tm + 20) 1100) →
    bad = (decide (1100 < tm) || decide (tm < -200) || decide ((vcore : Int) - 50 < vmin)) →
    u = (s.modTelem (Telemetry.reading vcore temps vmin (if 1100 < tm then 0 else vmin.toNat) bad)).newTemp tm →
    exec (.sensorReading vcore temps) s = .next
      (if bad then u.occur 0x391 (some .device) (le 2 vcore ++ le 2 vmin.toNat ++ leInt 2 tm) else u) ∧
    ∀ p, (u.telem p).vcore = some (match (s.telem p).vcore with | some v => min v vcore | none => vcore) ∧
      (u.telem p).violations = (s.telem p).violations + (if bad then 1 else 0) ∧
      ((s.telem p).temps = [] → (u.telem p).temps = temps) ∧
      ((s.telem p).temps.length = 9 → ∀ i < 9, nth 0 (u.telem p).temps i =
        max (nth 0 (s.telem p).temps i) (nth 0 temps i))) ∧
  (∀ s : State, s.atBoundary = true → s.mayRun 87 4 = true → s.par 0x0E00 ≠ 0 →
    s.clock.sf.toNat % s.par 0x0E00 = s.par 0x0E01 →
    exec .telemetryBoundary s = .next ((s.telemetry .a).telemetry .b)) ∧
  (∀ (s : State) (p : Port), (s.rings p).anchor.isSome = true → s.since (s.telem p).since ≠ 0 →
    s.telemetry p = (((s.modRings p fun r => { r with telemetrySeq := r.telemetrySeq + 1, lost := 0 }).setTelem p
      { Telemetry.reset with since := s.clock.sf }).useFresh).record p 7 (s.telemetryBody p)) ∧
  (∀ (s : State) (p : Port), ((s.rings p).anchor = none ∨ s.since (s.telem p).since = 0) → s.telemetry p = s)

/-! ### The host link -/

/-- HOST_TRAIN_ATTEMPT_START on a port that may train and whose lanes are down, ATTEMPT_IDLE_END on one whose lanes idle, and RETRAIN or
a TRAIN block while the link is up begin an attempt: T1, preset P1 on every lane, nothing seen of the far end, and sequence numbers,
credits, the replay buffer, a NAK that stands and the reads in flight kept. TRAINING_PHASE_LIMIT ends the attempt. BLOCK_LOCK_LOST, with
16 invalid ones among the latest 64 sync headers of a lane in use, sends four RETRAIN blocks with reason 0x01 first. Nothing else
changes but what goes out on the lanes. -/
def Obligations.HostTrainingStarts : Prop :=
  (∀ (p : Port) (s : State), s.enabled p = true → (s.link p).counted = true → (s.link p).clockStopped = false →
    (s.start.stage = .running ∨ s.start.stage = .switching) →
    ((s.link p).phase = .down → ∃ t, exec (.hostTrainAttemptStart p) s = .next t ∧
      LinkBecomes s t p (s.link p).attempt [] ∧ (t.link p).phase = .t1 ∧ (t.link p).wire ≠ (s.link p).wire) ∧
    ((s.link p).phase = .idle → ∃ t, exec (.attemptIdleEnd p) s = .next t ∧
      LinkBecomes s t p (s.link p).attempt [] ∧ (t.link p).phase = .t1 ∧ (t.link p).wire ≠ (s.link p).wire)) ∧
  (∀ (p : Port) (b : LinkBlock) (lane : Fin 16) (content : Bytes) (headers : List (BitVec 2)) (s : State), s.linkUp p = true →
    (linkBlockOk 4 b = true → ∃ t, exec (.retrain p b) s = .next t ∧ LinkBecomes s t p (s.link p).attempt []) ∧
    (∃ t, exec (.trainBlock p lane content) s = .next t ∧ LinkBecomes s t p (s.link p).attempt []) ∧
    (lane.val < s.lanes p → 16 ≤ (headers.take 64).countP (fun h => h == 0 || h == 3) →
      ∃ t, exec (.blockLockLost p lane headers) s = .next t ∧
        LinkBecomes s t p (s.link p).attempt (List.replicate 4 (.link p 4 1 0)))) ∧
  (∀ (p : Port) (s : State), (s.link p).phase ∈ [LinkPhase.t1, .t2, .t3, .t4] → (s.link p).clockStopped = false →
    exec (.trainingPhaseLimit p) s = .next (s.setLink p { s.link p with phase := .idle })) ∧
  (∀ l : HostLink, l.attempt = { l with
    phase := .t1, farLocked := 0, farEqual := 0, farDeskew := 0, laneMap := [], inverted := [], aligned := false,
    txEq := List.replicate 16 (0, 4, 1), responses := List.replicate 16 (0, 0), paramsSent := false,
    paramsSeen := false, farPeerSeen := false, heldTags := [] })

/-- TRAIN_BLOCK in T1 to T3 changes only the equaliser and responses of its lane, and what goes out on the lanes; a preset request sets the preset's two magnitudes, an
increase or decrease moves a magnitude by one step, and the pre-cursor never passes six steps nor the post-cursor twelve. The three
far flags are counted as consecutive blocks on lane 0 alone. The phase goes on by at most one, and to T2 only after sixteen blocks
with the far end locked and every lane mapped, to T3 only after sixteen with equalisation done, and to T4 only after sixteen with
the far end deskewed, this end aligned. -/
def Obligations.TrainingBlocksAct : Prop :=
  ∀ (p : Port) (lane : Fin 16) (content : Bytes) (s : State), (s.link p).phase ∈ [LinkPhase.t1, .t2, .t3] →
    (s.link p).clockStopped = false → lane.val < s.lanes p → (s.link p).txEq.length = 16 →
    (s.link p).responses.length = 16 → (∀ x ∈ (s.link p).txEq, x.1 ≤ 6 ∧ x.2.1 ≤ 12) →
    ∃ t, exec (.trainBlock p lane content) s = .next t ∧ LinkBecomes s t p (t.link p) [] ∧
      (t.link p).txEq.length = 16 ∧ (∀ x ∈ (t.link p).txEq, x.1 ≤ 6 ∧ x.2.1 ≤ 12) ∧
      (∀ i, i ≠ lane.val → nth (0, 0, 0) (t.link p).txEq i = nth (0, 0, 0) (s.link p).txEq i ∧
        nth (0, 0) (t.link p).responses i = nth (0, 0) (s.link p).responses i) ∧
      (∀ request, field content 2 1 = request → (128 ≤ request →
          nth (0, 0, 0) (t.link p).txEq lane.val =
            ((presetOf (bits request 6 4)).1, (presetOf (bits request 6 4)).2, bits request 6 4)) ∧
        (request < 128 → ∀ x, nth (0, 0, 0) (s.link p).txEq lane.val = x → nth (0, 0, 0) (t.link p).txEq lane.val =
          (if bits request 1 0 = 1 then min 6 (x.1 + 1) else if bits request 1 0 = 2 then x.1 - 1 else x.1,
           if bits request 3 2 = 1 then min 12 (x.2.1 + 1) else if bits request 3 2 = 2 then x.2.1 - 1 else x.2.1,
           x.2.2))) ∧
      (lane.val ≠ 0 → (t.link p).farLocked = (s.link p).farLocked ∧ (t.link p).farEqual = (s.link p).farEqual ∧
        (t.link p).farDeskew = (s.link p).farDeskew) ∧
      (lane.val = 0 → (t.link p).farLocked =
        if (field content 0 1).testBit 0 then (s.link p).farLocked + 1 else 0) ∧
      ((t.link p).phase = (s.link p).phase ∨
        ((s.link p).phase = .t1 ∧ (t.link p).phase = .t2 ∧ 16 ≤ (t.link p).farLocked ∧
          ∀ i < s.lanes p, (∃ m ∈ (s.link p).laneMap, m.1 = i) ∧ ∃ m ∈ (s.link p).laneMap, m.2 = i) ∨
        ((s.link p).phase = .t2 ∧ (t.link p).phase = .t3 ∧ 16 ≤ (t.link p).farEqual) ∨
        ((s.link p).phase = .t3 ∧ (t.link p).phase = .t4 ∧ 16 ≤ (t.link p).farDeskew ∧ (t.link p).aligned = true))

/-- In T4, PARAMETERS_FRAME_INTERVAL sends the port's parameters, LINK_PARAMETERS_FRAME with a good body takes the far end's: its next
expected sequence and, in a fresh training, its credits. ALIGN_ROW before T4 maps the lanes, in T1 with the pairs corrected that are seen
to be inverted; in T4, once both frames have gone, it brings the link up: a fresh training starts sequences at 0 with 64 doorbell credits
granted and the replay buffer empty, a resume keeps them and resends what the far end has not received. A start record owed to the port
follows where the schedule runs. -/
def Obligations.TrainingEnds : Prop :=
  (∀ (p : Port) (s : State), (s.link p).phase = .t4 → (s.link p).clockStopped = false →
    ∃ t, exec (.parametersFrameInterval p) s = .next t ∧
      LinkBecomes s t p { s.link p with paramsSent := (s.link p).paramsSent || (s.link p).paramsSeen }
        [.params p (s.paramsBody p)]) ∧
  (∀ (p : Port) (body : Bytes) (s : State), (s.link p).phase = .t4 → (s.link p).clockStopped = false →
    paramsGood body = true → exec (.linkParametersFrame p body) s = .next (s.setLink p { s.link p with
      paramsSeen := true
      farPeerSeen := s.paramsAgree p body && (field body 1 1).testBit 0
      farNext := BitVec.ofNat 12 (field body 2 2)
      granted := if (s.link p).trained then (s.link p).granted else
        [BitVec.ofNat 16 (field body 10 2), BitVec.ofNat 16 (field body 12 2), BitVec.ofNat 16 (field body 14 2)] })) ∧
  (∀ (p : Port) (row : List LaneBlock) (inv : List Nat) (lanes : List (Nat × Nat)) (s : State),
    (s.link p).phase ∈ [LinkPhase.t1, .t2, .t3] → (s.link p).clockStopped = false →
    inv = (if (s.link p).phase = .t1 then invertedLanes (s.lanes p) row else (s.link p).inverted) →
    lanes = readRow (s.lanes p) (fun i => inv.contains i) row → lanesOk (s.lanes p) lanes = true →
    ∃ t, exec (.alignRow p row) s = .next t ∧ t = s.setLink p (t.link p) ∧ (t.link p).laneMap = lanes ∧
      (t.link p).inverted = inv ∧
      ((s.link p).phase ≠ .t2 → (t.link p).aligned = ((s.link p).aligned || (s.link p).phase == .t3))) ∧
  (∀ (p : Port) (row : List LaneBlock) (s : State), (s.link p).phase = .t4 → (s.link p).clockStopped = false →
    lanesOk (s.lanes p) (readRow (s.lanes p) (fun i => (s.link p).inverted.contains i) row) = true →
    (s.link p).paramsSent = true → (s.link p).farPeerSeen = true →
    ((s.rings p).startPending = false →
      ((s.link p).trained = false → ∃ t, exec (.alignRow p row) s = .next t ∧
        LinkBecomes s t p (HostLink.pump { s.link p with
          phase := .up, trained := true, nextSeq := 0, expected := 0, nakSent := false, replay := [],
          resends := 0, consumed := [0, 0, 0], doorbells := 64 } s.clock.symbols) []) ∧
      ((s.link p).trained = true → ∃ t, exec (.alignRow p row) s = .next t ∧
        LinkBecomes s t p (HostLink.pump { s.link p with
          phase := .up, replay := framesFrom (s.link p).farNext (s.link p).replay, resends := 0 } s.clock.symbols)
          ((framesFrom (s.link p).farNext (s.link p).replay).map fun f => Out.resent p f))) ∧
    ((s.rings p).startPending = true → s.runs = true →
      exec (.alignRow p row) s = .next ((s.bringUp p).writeStart p)))

/-- On a port whose link is up: ACK frees every replayed frame up to its number and resets the resend count when it frees one; NAK does
so and resends every other in order, counting the resend; CREDIT sets its class's total, at most 32,768 beyond what is consumed, when
that is not behind; each then lets what waits be sent. ACK_REPEAT and CREDIT_REPEAT send the last accepted number and the doorbell
credits granted. Nothing else changes. -/
def Obligations.LinkControlBlocks : Prop :=
  (∀ (p : Port) (b : LinkBlock) (s : State), s.linkUp p = true → linkBlockOk 1 b = true →
    ∃ t, exec (.ack p b) s = .next t ∧
      LinkBecomes s t p (((s.link p).ackUpTo (b.value.truncate 12)).pump s.clock.symbols) []) ∧
  (∀ (l : HostLink) (seq : BitVec 12),
    (l.ackUpTo seq).replay = l.replay.filter (fun f => decide (2048 ≤ (seq - f.seq).toNat)) ∧
    (l.ackUpTo seq).resends = (if ∃ f ∈ l.replay, (seq - f.seq).toNat < 2048 then 0 else l.resends) ∧
    l.ackUpTo seq = { l with replay := (l.ackUpTo seq).replay, resends := (l.ackUpTo seq).resends }) ∧
  (∀ (p : Port) (b : LinkBlock) (s : State) (l : HostLink), s.linkUp p = true → linkBlockOk 2 b = true →
    (s.link p).ackUpTo (b.value.truncate 12) = l →
    ∃ t, exec (.nak p b) s = .next t ∧
      LinkBecomes s t p (HostLink.pump { l with resends := if l.replay = [] then l.resends else l.resends + 1 }
        s.clock.symbols) (l.replay.map fun f => Out.resent p f)) ∧
  (∀ (p : Port) (b : LinkBlock) (s : State), s.linkUp p = true → linkBlockOk 3 b = true →
    ∃ t, exec (.credit p b) s = .next t ∧
      LinkBecomes s t p (((s.link p).grant (bits b.value.toNat 1 0) b.count).pump s.clock.symbols) []) ∧
  (∀ (l : HostLink) (cls n : Nat) (count : BitVec 16), l.granted.length = 3 → 1 ≤ cls → cls ≤ 3 →
    n = (count - nth 0 l.consumed (cls - 1)).toNat →
    (l.grant cls count = { l with granted := (l.grant cls count).granted } ∧
    nth 0 (l.grant cls count).granted (cls - 1) =
      (if n ≤ 32768 ∧ l.credit (cls - 1) ≤ n then count else nth 0 l.granted (cls - 1)) ∧
    ∀ i, i ≠ cls - 1 → nth 0 (l.grant cls count).granted i = nth 0 l.granted i)) ∧
  (∀ (p : Port) (s : State), s.linkUp p = true →
    (∃ t, exec (.ackRepeat p) s = .next t ∧
      LinkBecomes s t p (s.link p) [.link p 1 (((s.link p).expected - 1).zeroExtend 16) 0]) ∧
    (∃ t, exec (.creditRepeat p) s = .next t ∧ LinkBecomes s t p (s.link p) [.link p 3 0 (s.link p).doorbells]))

/-- REPLAY_INTERVAL with unacknowledged frames resends them all in order and counts the resend while fewer than four have gone without a
new acknowledgement; then it sends four RETRAIN blocks with reason 0x03 and trains. Nothing else changes. -/
def Obligations.ReplayIntervals : Prop :=
  ∀ (p : Port) (s : State), s.linkUp p = true → (s.link p).replay ≠ [] →
    ((s.link p).resends < 4 → ∃ t, exec (.replayInterval p) s = .next t ∧
      LinkBecomes s t p { s.link p with resends := (s.link p).resends + 1 }
        ((s.link p).replay.map fun f => Out.resent p f)) ∧
    (4 ≤ (s.link p).resends → ∃ t, exec (.replayInterval p) s = .next t ∧
      LinkBecomes s t p (s.link p).attempt (List.replicate 4 (.link p 4 3 0)))

/-- However much waits, letting it be sent leaves the frames in the replay buffer in place and puts new ones behind them, numbered
consecutively; the buffer stays within 64 KiB and 2,048 frames, no class's credits are overdrawn, every read in flight keeps its tag
and new ones take tags that no read in flight has; while the link is not up nothing is sent. -/
def Obligations.SendingKeepsLimits : Prop :=
  (∀ (n : Nat) (l : HostLink), l.replay.length ≤ 2048 → l.used ≤ 65536 →
    (l.pump n).replay.length ≤ 2048 ∧ (l.pump n).used ≤ 65536 ∧
    (∃ sent, (l.pump n).replay = l.replay ++ sent ∧
      (∀ i (h : i < sent.length), sent[i].seq = l.nextSeq + BitVec.ofNat 12 i) ∧
      (l.pump n).nextSeq = l.nextSeq + BitVec.ofNat 12 sent.length) ∧
    (∀ i < 3, (l.pump n).credit i ≤ l.credit i)) ∧
  (∀ (n : Nat) (l : HostLink), (l.reads.map (·.tag)).Nodup →
    ((l.pump n).reads.map (·.tag)).Nodup ∧ l.reads <+: (l.pump n).reads) ∧
  (∀ (n : Nat) (l : HostLink), l.phase ≠ .up ∨ l.clockStopped = true → l.pump n = l)

/-- For every command that carries a sequenced frame, on a port whose link is up and whose check is not inverted: a frame up to 2,048
numbers behind the expected one is discarded and acknowledged again; one ahead of it is discarded, and NAKed unless a NAK has gone
since the last accepted frame; the expected one raises the expected number by one, is acknowledged, and ends that NAK state, and it is
acted on where the schedule runs and no frame before it is held. -/
def Obligations.FramesInSequence : Prop :=
  ∀ (p : Port) (seq : BitVec 12) (c : Instr) (s : State),
    ((∃ kind body, c = .frameNotActedOn p seq kind body ∧ notActable kind.toNat body = true) ∨
      (∃ tag status data, c = .readCompletion p seq tag status data) ∨ (∃ body, c = .anchorMessage p seq body) ∨
      (∃ target index, c = .workQueueDoorbell p seq target index) ∨
      (∃ target index, c = .consumedDoorbell p seq target index)) →
    s.linkUp p = true → s.armedFor 2 p.num = none →
    (2048 ≤ (seq - (s.link p).expected).toNat → ∃ t, exec c s = .next t ∧
      LinkBecomes s t p (s.link p) [.link p 1 (((s.link p).expected - 1).zeroExtend 16) 0]) ∧
    (0 < (seq - (s.link p).expected).toNat → (seq - (s.link p).expected).toNat < 2048 →
      ((s.link p).nakSent = true → exec c s = .next s) ∧
      ((s.link p).nakSent = false → ∃ t, exec c s = .next t ∧
        LinkBecomes s t p { s.link p with nakSent := true } [.link p 2 (((s.link p).expected - 1).zeroExtend 16) 0])) ∧
    (seq = (s.link p).expected → ∀ u, u = (s.setLink p { s.link p with
        expected := (s.link p).expected + 1, nakSent := false }).sayLink p 1 ((s.link p).expected.zeroExtend 16) 0 →
      LinkBecomes s u p { s.link p with expected := (s.link p).expected + 1, nakSent := false }
        [.link p 1 ((s.link p).expected.zeroExtend 16) 0] ∧
      (s.runs = true → (s.link p).held = [] →
        (∀ kind body, c = .frameNotActedOn p seq kind body → exec c s =
          .next (if kind = 4 then (u.hostLinkError p 2 4).returnCredit p else u.hostLinkError p 2 kind.toNat)) ∧
        (∀ tag status data, c = .readCompletion p seq tag status data → exec c s =
          .next (u.actCompletion p tag status data)) ∧
        (∀ body, c = .anchorMessage p seq body → exec c s = .next ((u.actAnchor p body).returnCredit p)) ∧
        (∀ target index, c = .workQueueDoorbell p seq target index → exec c s =
          .next ((u.actWorkDoorbell p target index).returnCredit p)) ∧
        (∀ target index, c = .consumedDoorbell p seq target index → exec c s =
          .next ((u.actConsumedDoorbell p target index).returnCredit p))))

/-- HOST_FRAME_BAD with a frame that fails a check of R289 changes no sequence number, sends a NAK unless one has gone since the last
accepted frame, and counts a host-link error of the port. FRAME_NOT_ACTED_ON with the expected number is accepted, returns the credit
of a doorbell, and counts a host-link error. -/
def Obligations.BadFramesAreCounted : Prop :=
  (∀ (p : Port) (blocks : List (BitVec 66)) (f : RawFrame) (s : State), s.linkUp p = true → readFrame blocks = some f →
    frameGood f = false → s.armedFor 2 p.num = none →
    ∃ t, exec (.hostFrameBad p blocks) s = .next t ∧
      (t.link p).offWire = { s.link p with nakSent := true }.offWire ∧
      (t.source (0x392 + p.num)).total = min ((s.source (0x392 + p.num)).total + 1) (2 ^ 32 - 1) ∧ t.chans = s.chans ∧
      t.queues = s.queues ∧ t.out = s.out ++
        (if (s.link p).nakSent then [] else [.link p 2 (((s.link p).expected - 1).zeroExtend 16) 0])) ∧
  (∀ (p : Port) (kind : Byte) (body : Bytes) (s : State), s.linkUp p = true → s.armedFor 2 p.num = none → s.runs = true →
    (s.link p).held = [] → notActable kind.toNat body = true →
    ∃ t, exec (.frameNotActedOn p (s.link p).expected kind body) s = .next t ∧
      (t.link p).offWire = { s.link p with
        expected := (s.link p).expected + 1, nakSent := false
        doorbells := if kind = 4 then (s.link p).doorbells + 1 else (s.link p).doorbells }.offWire ∧
      (t.source (0x392 + p.num)).total = min ((s.source (0x392 + p.num)).total + 1) (2 ^ 32 - 1) ∧ t.chans = s.chans ∧
      t.queues = s.queues)

/-- With the schedule running and no frame held: before the port has an accepted anchor a doorbell changes no queue, ring or pin, and its
credit is returned. After it, a work-queue doorbell of an enabled queue whose index passes the test of R318 becomes the queue's producer
index, and a consumed doorbell of a ring of the anchor that passes becomes the ring's consumed index; consuming all of record ring 0
releases the port's INT pin. While the line domain stands still, or a frame before it is held, the frame is held. -/
def Obligations.DoorbellsAct : Prop :=
  (∀ (p : Port) (c : Instr) (s : State), (∃ target index, c = .workQueueDoorbell p (s.link p).expected target index ∧
        target.toNat < 512) ∨ (∃ target index, c = .consumedDoorbell p (s.link p).expected target index ∧
        (target.toNat < 64 ∨ (0x100 ≤ target.toNat ∧ target.toNat < 0x108))) →
    s.linkUp p = true → s.armedFor 2 p.num = none → s.runs = true → (s.link p).held = [] → (s.rings p).anchor = none →
    ∃ t, exec c s = .next t ∧ LinkBecomes s t p { s.link p with
        expected := (s.link p).expected + 1, nakSent := false, doorbells := (s.link p).doorbells + 1 }
      [.link p 1 ((s.link p).expected.zeroExtend 16) 0, .link p 3 0 ((s.link p).doorbells + 1)]) ∧
  (∀ (p : Port) (q : Fin 512) (index : BitVec 32) (a : Anchor) (s : State), s.linkUp p = true →
    s.armedFor 2 p.num = none → s.runs = true → (s.link p).held = [] → (s.rings p).anchor = some a → s.entry = none →
    descEnabled (a.desc q) = true → (index - (s.queue p q).consumed).toNat ≤ descItems (a.desc q) →
    (index - (s.queue p q).producer).toNat ≤ (index - (s.queue p q).consumed).toNat →
    ∃ t, exec (.workQueueDoorbell p (s.link p).expected (BitVec.ofNat 16 q.val) index) s = .next t ∧
      LinkBecomes (s.setQueue p q { s.queue p q with producer := index }) t p { s.link p with
          expected := (s.link p).expected + 1, nakSent := false, doorbells := (s.link p).doorbells + 1 }
        [.link p 1 ((s.link p).expected.zeroExtend 16) 0, .link p 3 0 ((s.link p).doorbells + 1)]) ∧
  (∀ (p : Port) (k : Fin 64) (index : BitVec 32) (a : Anchor) (s : State), s.linkUp p = true →
    s.armedFor 2 p.num = none → s.runs = true → (s.link p).held = [] → (s.rings p).anchor = some a → s.entry = none →
    k.val < a.completionRings → (((s.rings p).completionRing k.val).producer - index).toNat ≤
      (((s.rings p).completionRing k.val).producer - ((s.rings p).completionRing k.val).consumed).toNat →
    ∃ t, exec (.consumedDoorbell p (s.link p).expected (BitVec.ofNat 16 k.val) index) s = .next t ∧
      LinkBecomes (s.setRings p ((s.rings p).setCompletion k.val
          { (s.rings p).completionRing k.val with consumed := index })) t p { s.link p with
          expected := (s.link p).expected + 1, nakSent := false, doorbells := (s.link p).doorbells + 1 }
        [.link p 1 ((s.link p).expected.zeroExtend 16) 0, .link p 3 0 ((s.link p).doorbells + 1)]) ∧
  (∀ (p : Port) (k : Fin 8) (index : BitVec 32) (a : Anchor) (s : State), s.linkUp p = true →
    s.armedFor 2 p.num = none → s.runs = true → (s.link p).held = [] → (s.rings p).anchor = some a → s.entry = none →
    k.val < a.recordRings → (((s.rings p).recordRing k.val).producer - index).toNat ≤
      (((s.rings p).recordRing k.val).producer - ((s.rings p).recordRing k.val).consumed).toNat →
    ∃ t, exec (.consumedDoorbell p (s.link p).expected (BitVec.ofNat 16 (0x100 + k.val)) index) s = .next t ∧
      LinkBecomes ((s.setRings p ((s.rings p).setRecord k.val
          { (s.rings p).recordRing k.val with consumed := index })).setInt p
          (if k = 0 ∧ index = ((s.rings p).recordRing 0).producer then false
           else match p with | .a => s.pins.intALow | .b => s.pins.intBLow)) t p { s.link p with
          expected := (s.link p).expected + 1, nakSent := false, doorbells := (s.link p).doorbells + 1 }
        [.link p 1 ((s.link p).expected.zeroExtend 16) 0, .link p 3 0 ((s.link p).doorbells + 1)]) ∧
  (∀ (p : Port) (c : Instr) (h : Held) (s : State),
    ((∃ target index, c = .workQueueDoorbell p (s.link p).expected target index ∧ h = .workDoorbell target index) ∨
      (∃ target index, c = .consumedDoorbell p (s.link p).expected target index ∧ h = .consumedDoorbell target index) ∨
      (∃ body, c = .anchorMessage p (s.link p).expected body ∧ h = .anchor body) ∨
      (∃ kind body, c = .frameNotActedOn p (s.link p).expected kind body ∧ notActable kind.toNat body = true ∧
        h = .ignored kind.toNat) ∨
      (∃ tag status data, c = .readCompletion p (s.link p).expected tag status data ∧
        h = .completion tag status data)) →
    s.linkUp p = true → s.armedFor 2 p.num = none → (s.runs = false ∨ (s.link p).held ≠ []) →
    ∃ t, exec c s = .next t ∧ LinkBecomes s t p { s.link p with
        expected := (s.link p).expected + 1, nakSent := false, held := (s.link p).held ++ [h] }
      [.link p 1 ((s.link p).expected.zeroExtend 16) 0])

/-- With the schedule running and no frame held, an anchor message whose body is good, on a port with no accepted anchor and none being
read, begins the read of the block. Its completion with a block that passes every check of Table 14.4 is accepted. A message in any other case is
answered at once, and leaves the anchor as it was. -/
def Obligations.AnchorIsRead : Prop :=
  (∀ (p : Port) (addr : BitVec 64) (s : State), s.linkUp p = true → s.armedFor 2 p.num = none → s.runs = true →
    (s.link p).held = [] →
    addr.toNat % 4096 = 0 → (s.rings p).anchor = none → (s.rings p).anchorReading = false →
    ∃ t, exec (.anchorMessage p (s.link p).expected (1 :: List.replicate 7 0 ++ le 8 addr.toNat)) s = .next t ∧
      t.rings p = { s.rings p with anchorReading := true } ∧ t.chans = s.chans ∧
      (t.link p).doorbells = (s.link p).doorbells + 1 ∧
      ((∃ r ∈ (t.link p).reads, r.purpose = .anchor addr ∧ r.length = 4096) ∨
        Wait.read addr 4096 (.anchor addr) ∈ (t.link p).waiting)) ∧
  (∀ (p : Port) (body : Bytes) (s : State), s.linkUp p = true → s.armedFor 2 p.num = none → s.runs = true →
    (s.link p).held = [] →
    ((s.rings p).anchor.isSome = true ∨ (s.rings p).anchorReading = true ∨ field body 0 1 ≠ 1 ∨ zeroAt body 1 7 = false ∨
      field body 8 8 % 4096 ≠ 0) →
    ∃ t, exec (.anchorMessage p (s.link p).expected body) s = .next t ∧ (t.rings p).anchor = (s.rings p).anchor ∧
      (t.rings p).anchorReading = (s.rings p).anchorReading ∧ t.chans = s.chans ∧
      ((∃ f ∈ (t.link p).replay, f.kind = 6) ∨ ∃ b, Wait.reply b ∈ (t.link p).waiting)) ∧
  (∀ (p : Port) (addr : BitVec 64) (data : Bytes) (s : State), (s.rings p).anchor = none → anchorCode p data = 0 →
    ((s.delivered p data (.anchor addr)).rings p).anchor = some (readAnchor addr data)) ∧
  (∀ (p : Port) (addr : BitVec 64) (data : Bytes) (s : State), anchorCode p data ≠ 0 →
    ((s.delivered p data (.anchor addr)).rings p).anchor = (s.rings p).anchor)

/-- With the schedule running and no frame held, READ_COMPLETION for a read in flight takes the read out and, with status 0x00 and the length asked for,
delivers the data to what the read was issued for; with another status and no data, the read has failed; a completion for no read in
flight is counted and discarded. READ_COMPLETION_TIMEOUT takes an overdue read out as failed and holds its tag, which TAG_HOLD_EXPIRY
frees. -/
def Obligations.HostReadsEnd : Prop :=
  (∀ (p : Port) (tag : BitVec 16) (status : Byte) (data : Bytes) (r : HostRead) (s u : State), s.linkUp p = true →
    s.armedFor 2 p.num = none → s.runs = true → (s.link p).held = [] → s.readOf p tag = some r →
    u = ((s.setLink p { s.link p with expected := (s.link p).expected + 1, nakSent := false }).sayLink p 1
      ((s.link p).expected.zeroExtend 16) 0).modLink p (HostLink.dropRead tag) →
    LinkBecomes s u p { s.link p with
        expected := (s.link p).expected + 1, nakSent := false, reads := (s.link p).reads.filter (fun x => x.tag != tag) }
      [.link p 1 ((s.link p).expected.zeroExtend 16) 0] ∧
    (status = 0 → data.length = r.length → exec (.readCompletion p (s.link p).expected tag status data) s =
      .next ((u.delivered p data r.purpose).pump p)) ∧
    (status ≠ 0 → data = [] → exec (.readCompletion p (s.link p).expected tag status data) s =
      .next (u.readFailed p r.purpose))) ∧
  (∀ (p : Port) (tag : BitVec 16) (status : Byte) (data : Bytes) (s : State), s.linkUp p = true →
    s.armedFor 2 p.num = none → s.runs = true → (s.link p).held = [] → s.readOf p tag = none →
    ∃ t, exec (.readCompletion p (s.link p).expected tag status data) s = .next t ∧
      (t.source (0x392 + p.num)).total = min ((s.source (0x392 + p.num)).total + 1) (2 ^ 32 - 1) ∧
      t.queues = s.queues ∧ t.chans = s.chans ∧ t.transport = s.transport) ∧
  (∀ (p : Port) (tag : BitVec 16) (r : HostRead) (s : State), s.readOf p tag = some r → s.runs = true →
    r.issued + 256 * s.hostTimeout p ≤ s.clock.symbols →
    exec (.readCompletionTimeout p tag) s = .next ((s.setLink p { s.link p with
      reads := (s.link p).reads.filter (fun x => x.tag != tag)
      heldTags := (s.link p).heldTags ++ [(tag, s.clock.symbols)] }).readFailed p r.purpose)) ∧
  (∀ (p : Port) (tag : BitVec 16) (since : Nat) (s : State), (tag, since) ∈ (s.link p).heldTags →
    since + 256 * (4 * s.hostTimeout p) ≤ s.clock.symbols →
    ∃ t, exec (.tagHoldExpiry p tag) s = .next t ∧ LinkBecomes s t p ({ s.link p with
      heldTags := (s.link p).heldTags.filter fun h => h.1 != tag }.pump s.clock.symbols) [])

/-! ### Rings and records -/

/-- ITEM_FETCH on an enabled queue with posted items reserves a completion entry for each item it fetches, marks the read and issues
it, from the consumed index on.
EVENT_FRAME sends the frame that a completion ring, a record ring or record ring 0 owes, once, with the ring's latest producer index,
while the schedule runs and nothing waits before it that limits allow to go. RECORD_WRITE, when the ring has space for the first record of a port's buffer, takes it out, writes it and
any pad, advances the ring's producer index over both, never past what the ring holds, and on ring 0 issues the fence that asserts INT. -/
def Obligations.ItemsAndRecordsMove : Prop :=
  (∀ (p : Port) (q : Fin 512) (a : Anchor) (s : State), (s.rings p).anchor = some a → s.runs = true →
    descEnabled (a.desc q) = true → (s.queue p q).reading = false → s.entry = none → 0 < s.fetchCount p a q →
    ∀ n k, n = s.fetchCount p a q → k = descRing (a.desc q) →
    exec (.itemFetch p q) s = .next (((s.modRings p fun r => r.setCompletion k
        { r.completionRing k with reserved := (r.completionRing k).reserved + n }).setQueue p q
        { s.queue p q with reading := true }).hostRead p
      (descBase a (a.desc q) + BitVec.ofNat 64 (64 * ((s.queue p q).consumed.toNat % descItems (a.desc q)))) (64 * n)
      (.fetch q (s.queue p q).consumed n))) ∧
  (∀ (p : Port) (ring : Fin 64) (s : State), s.runs = true → (s.link p).waiting = [] →
    (s.link p).maySend 7 (eventBody 0 0 0) 0 = true →
    (((s.rings p).completionRing ring.val).eventDue = true →
      exec (.eventFrame p 1 ring) s = .next ((s.setRings p ((s.rings p).setCompletion ring.val
        { (s.rings p).completionRing ring.val with eventDue := false })).sendHost p
          (.event (eventBody 1 ring.val ((s.rings p).completionRing ring.val).producer.toNat)))) ∧
    (∀ kind : Byte, (kind = 2 ∧ ring ≠ 0 ∨ kind = 3 ∧ ring = 0) → ((s.rings p).recordRing ring.val).eventDue = true →
      exec (.eventFrame p kind ring) s = .next ((s.setRings p ((s.rings p).setRecord ring.val
        { (s.rings p).recordRing ring.val with eventDue := false })).sendHost p
          (.event (eventBody kind.toNat ring.val ((s.rings p).recordRing ring.val).producer.toNat))))) ∧
  (∀ (p : Port) (a : Anchor) (x : Rec) (rest : List Rec) (units size pad : Nat) (s : State),
    (s.rings p).anchor = some a → (s.rings p).buffer = x :: rest → s.linkUp p = true → s.runs = true →
    x.bytes.length / 32 = units → a.recordSize x.ring = size →
    pad = (if ((s.rings p).recordRing x.ring).producer.toNat % size + units > size
      then size - ((s.rings p).recordRing x.ring).producer.toNat % size else 0) →
    ((s.rings p).recordRing x.ring).held + pad + units ≤ size →
    ∃ t, exec (.recordWrite p) s = .next t ∧
      ((t.rings p).recordRing x.ring).producer =
        ((s.rings p).recordRing x.ring).producer + BitVec.ofNat 32 (pad + units) ∧
      ((t.rings p).recordRing x.ring).consumed = ((s.rings p).recordRing x.ring).consumed ∧
      ((s.rings p).outside = [] → (t.rings p).buffer = rest) ∧ t.chans = s.chans ∧ t.queues = s.queues ∧
      ∃ u, u = ((s.setRings p { s.rings p with
          buffer := (admitOutside rest (s.rings p).outside).1, outside := (admitOutside rest (s.rings p).outside).2
          }).writeRecord p a x pad) ∧
        t = (if x.ring = 0 then (if x.kind = 6 then u.releaseWake else u).fence p .intFence
          else if x.kind = 6 then u.releaseWake else u))

/-! ### Dormant -/

/-- DORMANT_ENTRY_AFTER_STORE with no calibration store under way carries out steps 3 to 5 for the held entry and marks it written.
DORMANT_LINE_STOP, one superframe after the item's completion was seen to be acknowledged, holds the links, brings both host links down,
puts the slot before a superframe's first, keeps the superframe count and goes dormant. EXIT_SIGNAL on a port whose HCK runs holds an exit
event. DORMANT_EXIT_BEGIN follows it at the clock that TSEL selects and takes that source; retain keeps the host side, deep forgets it,
the retain areas among it. WARM_COUNT_DONE then leads to the first slot tick, owing each enabled port a start record (retain), or loads
the primary image (deep). -/
def Obligations.DormantCycle : Prop :=
  (∀ (m : SoundingMeasured) (n : Nat) (noise : Bytes) (s : State) (e : Entry), s.entry = some e → s.runs = true →
    e.written = false → s.calib.store = none →
    exec (.dormantEntryAfterStore m n noise) s = .next (s.enterDormant e m n noise) ∧
    (s.enterDormant e m n noise).entry = some { e with written := true }) ∧
  (∀ (s : State) (e : Entry) (x : Nat), s.entry = some e → s.runs = true → e.acked = some x → x + 256 ≤ s.clock.symbols →
    ∃ t, exec .dormantLineStop s = .next t ∧ t = s.lineStop e ∧
      t.start = { s.start with
        stage := Stage.dormant e.kind
        record := t.start.record } ∧
      t.clock = { s.clock with slot := 255, dormantEntries := s.clock.dormantEntries + 1 } ∧
      (∀ p, (t.link p).phase = LinkPhase.down ∧ (t.link p).counted = false ∧ (t.link p).trained = false) ∧ t.entry = none ∧
      t.image = { s.image with loaded := s.image.loaded && e.kind == .retain }) ∧
  (∀ (p : Port) (s : State) (k : DormantKind), s.start.stage = .dormant k → s.enabled p = true →
    (s.link p).clockStopped = false → exec (.exitSignal p) s = .next { s with exitHeld := true }) ∧
  (∀ (s : State) (k : DormantKind), s.start.stage = .dormant k → s.exitHeld = true →
    (s.link (if s.pins.tsel then .b else .a)).clockStopped = false →
    ∃ t, exec .dormantExitBegin s = .next t ∧ t = s.exitBegin k ∧ t.start.stage = Stage.warm k ∧ t.start.kind = k.code ∧
      t.clock = { s.clock with source := s.pins.tsel } ∧ t.exitHeld = false ∧
      (k = .retain → t.ringsA = s.ringsA ∧ t.ringsB = s.ringsB ∧ t.queues = s.queues ∧ t.transport = s.transport ∧
        t.faults = s.faults ∧ t.chans = s.chans ∧ t.pins = s.pins) ∧
      (k = .deep → t.ringsA = PortRings.reset ∧ t.ringsB = PortRings.reset ∧ t.queues = [] ∧
        t.transport = Transport.reset ∧ t.pins.intALow = false ∧ t.pins.intBLow = false ∧
        ∀ c, (t.chan c).retry.retain = [] ∧ (t.chan c).retry.kept = [])) ∧
  (∀ (d : Nat) (s : State) (k : DormantKind), s.start.stage = .warm k → s.start.recount = none →
    s.clock.interrupted = false →
    (k = .retain → exec (.warmCountDone d) s = .next (s.warmRun d) ∧ (s.warmRun d).start.stage = .ready ∧
      (s.warmRun d).start.duration = BitVec.ofNat 32 (min d (2 ^ 32 - 1)) ∧
      ∀ p : Port, ((s.warmRun d).rings p).startPending = s.enabled p) ∧
    (k = .deep → exec (.warmCountDone d) s = .next (s.beginLoad .primary)))

/-! ### Maintenance items -/

/-- For the next item of a queue: a malformed item completes with code 0x01. Fault clear clears each source of its range but 0x398 and
completes with result 0. Fault acknowledge stops the timer that the source leads or has joined and completes with 0, else with 7 where
it was acknowledged before and 2 where not. Calibrate and sound-cable add a background task; sound-cable on a channel the port has not
got completes with 1. Enter-dormant is held while every channel sleeps and completes with 2 where one does not. An injection is armed,
or completes with 4 where the image does not enable injections. -/
def Obligations.MaintenanceItemsAct : Prop :=
  ∀ (p : Port) (q : Fin 512) (s : State) (i : Item),
    (s.nextItem p q = some (i, none) →
      exec (.malformedItem p q) s = .next ((s.startItem p q i.index).complete p q i.index 0x01 0 none)) ∧
    (∀ first last, s.nextItem p q = some (i, some (.faultClear first last)) →
      exec (.faultClear p q) s = .next ((clearSources ((List.range 0x39B).filter fun k =>
        decide (first ≤ k) && decide (k ≤ last) && k != 0x398) (s.startItem p q i.index)).releaseErr.result
          p q i.index 0 0 0)) ∧
    (∀ src, s.nextItem p q = some (i, some (.faultAcknowledge src)) →
      (∀ r, (s.startItem p q i.index).graceOf src = some r → exec (.faultAcknowledge p q) s =
        .next (((s.startItem p q i.index).acknowledge r src).result p q i.index 0 0 0)) ∧
      ((s.startItem p q i.index).graceOf src = none → exec (.faultAcknowledge p q) s =
        .next ((s.startItem p q i.index).result p q i.index
          (if (s.startItem p q i.index).wasAcknowledged src then 7 else 2) 0 0))) ∧
    (∀ point store channels ports, s.nextItem p q = some (i, some (.calibrate point store channels ports)) →
      exec (.calibrate p q) s = .next { s.startItem p q i.index with tasks := s.tasks ++
        [newTask (.calibration point store channels ports) (itemOrigin p q i) s.clock.sf] }) ∧
    (∀ c mode, s.nextItem p q = some (i, some (.sound c mode)) → exec (.soundCable p q) s = .next
      (if s.ownChannel p c then { s.startItem p q i.index with tasks := s.tasks ++
        [newTask (.sounding c mode) (itemOrigin p q i) s.clock.sf] }
       else (s.startItem p q i.index).result p q i.index 1 0 0)) ∧
    (∀ k, s.nextItem p q = some (i, some (.dormant k)) → exec (.enterDormant p q) s = .next
      (if s.asleep && s.entry.isNone then { s.startItem p q i.index with
        entry := some { kind := k, queue := (p, q), item := i.index, written := false, acked := none } }
       else (s.startItem p q i.index).result p q i.index 2 0 0)) ∧
    (∀ k port chan, s.nextItem p q = some (i, some (.inject k port chan)) →
      (s.par 0x0A5E ≠ 1 → exec (.injectCheckInversion p q) s =
        .next ((s.startItem p q i.index).result p q i.index 4 0 0)) ∧
      (s.par 0x0A5E = 1 → (s.faults.armed.any fun a => a.1 == k) = false →
        exec (.injectCheckInversion p q) s = .next { s.startItem p q i.index with faults := { s.faults with
          armed := s.faults.armed ++ [(k, injectField k port chan, p, q, i.index, s.clock.sf)] } }))

/-- For a channel of the item's port. Channel-up on a quarantined channel completes with 2; else it ends quiet mode and brings a channel
that is down up, or completes with 7 on one that is not. Channel-down on a channel that stands in OFF completes with 7; else it ends
wake frames and quiet mode, holds the item and leaves for OFF with notice reason 2. Channel-quiet completes with 2 in OFF and
QUARANTINE, 7 in quiet mode, else 0 in quiet mode. Channel-sleep completes with 2 in HOLD and QUARANTINE, 7 in SLEEP, else the channel
starts to sleep. A channel that is not the port's completes with 1. -/
def Obligations.ChannelItemsAct : Prop :=
  ∀ (p : Port) (q : Fin 512) (c : ChanId) (s : State) (i : Item) (t : State), t = s.startItem p q i.index →
    (s.ownChannel p c = false → (∃ w, s.nextItem p q = some (i, some (.up c w))) →
      exec (.channelUp p q) s = .next (t.result p q i.index 1 0 0)) ∧
    (s.ownChannel p c = false → s.nextItem p q = some (i, some (.down c)) →
      exec (.channelDown p q) s = .next (t.result p q i.index 1 0 0)) ∧
    (s.ownChannel p c = false → s.nextItem p q = some (i, some (.quiet c)) →
      exec (.channelQuiet p q) s = .next (t.result p q i.index 1 0 0)) ∧
    (s.ownChannel p c = false → s.nextItem p q = some (i, some (.sleep c)) →
      exec (.channelSleep p q) s = .next (t.result p q i.index 1 0 0)) ∧
    (s.ownChannel p c = true →
      (∀ w, s.nextItem p q = some (i, some (.up c w)) → exec (.channelUp p q) s = .next
        (if (t.chan c).quarantined then t.result p q i.index 2 0 0
         else if (t.chan c).down then (t.modQuiet c fun x => { x with mode := false }).bringChannelUp c w p q i.index
         else (t.modQuiet c fun x => { x with mode := false }).result p q i.index 7 0 0)) ∧
      (s.nextItem p q = some (i, some (.down c)) → (t.chan c).wake.downItem = none → exec (.channelDown p q) s = .next
        (if (t.chan c).stands .off && (t.chan c).wake.sending.isNone then t.result p q i.index 7 0 0
         else (((t.stopSending c).modQuiet c fun y => { y with mode := false }).modWake c fun w =>
           { w with downItem := some (p, q, i.index), falseSince := none }).leave c .off 2)) ∧
      (s.nextItem p q = some (i, some (.quiet c)) → exec (.channelQuiet p q) s = .next
        (if (t.chan c).link = .off ∨ (t.chan c).link = .quarantine then t.result p q i.index 2 0 0
         else if (t.chan c).quiet.mode then t.result p q i.index 7 0 0
         else (t.modQuiet c fun y => { y with mode := true }).result p q i.index 0 0 0)) ∧
      (s.nextItem p q = some (i, some (.sleep c)) → (t.chan c).wake.sleepItem = none →
        exec (.channelSleep p q) s = .next
        (if (t.chan c).link = .hold ∨ (t.chan c).link = .quarantine then t.result p q i.index 2 0 0
         else if (t.chan c).stands .sleep && (t.chan c).wake.sending.isNone then t.result p q i.index 7 0 0
         else ((t.stopSending c).modWake c fun w =>
           { w with sleepItem := some (p, q, i.index), falseSince := none }).sleepChannel c)))

/-- For a margin override item on a channel of the port: inside CH.008 to CH.009 it completes with result 0 and M is the value; 0xFFFF
completes with result 0 and M is CH.007 again; any other value completes with result 0x03 and leaves M. In each case every other channel,
and everything of this one but the override, is left as it was. -/
def Obligations.MarginOverrideHeld : Prop :=
  ∀ (p : Port) (q : Fin 512) (c : ChanId) (m : Nat) (s : State) (i : Item) (t : State),
    s.nextItem p q = some (i, some (.margin c m)) → s.ownChannel p c = true → t = s.startItem p q i.index →
    ∃ u, exec (.marginOverride p q) s = .next u ∧
      (m = 0xFFFF → u.marginM c = s.elem 0x0307 c ∧
        u = (t.modChan c fun x => { x with load := { x.load with override := none } }).result p q i.index 0 0 0) ∧
      (m ≠ 0xFFFF → s.elem 0x0308 c ≤ m → m ≤ s.elem 0x0309 c → u.marginM c = m ∧
        u = (t.modChan c fun x => { x with load := { x.load with override := some m } }).result p q i.index 0 0 0) ∧
      (m ≠ 0xFFFF → (m < s.elem 0x0308 c ∨ s.elem 0x0309 c < m) → u.marginM c = s.marginM c ∧
        u = t.result p q i.index 3 0 0) ∧
      (∀ d, d ≠ c → u.chan d = s.chan d) ∧
      u.chan c = { s.chan c with load := { (s.chan c).load with override := (u.chan c).load.override } }

/-! ### Windows and items of the transport -/

/-- For the next item of a queue: while another item's read of the slot's descriptor is under way, window open, window revoke and page
ready wait, but for a revoke that meets an open's read, which gives result 7. Else they are refused with status 0x01 where the port has no
anchor or the slot is at or above the anchor's count, refused with 0x03 while the slot is being revoked, and read the slot's 32-byte
descriptor otherwise. REVOKE_DRAINED and PAGE_READY_DRAINED complete, with result 0, the item whose last fence has been answered, where the
schedule runs. -/
def Obligations.WindowItemsAct : Prop :=
  (∀ (p : Port) (q : Fin 512) (s : State) (i : Item) (a : Option Anchor) (w : Nat) (t : State),
    t = s.startItem p q i.index → a = (t.rings p).anchor →
    (∀ (c : Instr) (body : ItemBody) (why : Purpose), s.nextItem p q = some (i, some body) →
      ((c = .windowOpen p q ∧ body = .windowOpen w ∧ why = .openDesc q i.index w) ∨
       (∃ g, c = .windowRevoke p q ∧ body = .windowRevoke w g ∧ why = .revokeDesc q i.index w g) ∨
       (∃ g off code, c = .pageReady p q ∧ body = .pageReady w g off code ∧
         why = .readyDesc q i.index w g off code)) →
      (s.windowBusy p w = true → exec c s = .next
        (if c = .windowRevoke p q ∧ s.opening p w = true then t.result p q i.index 7 0 0 else s)) ∧
      (s.windowBusy p w = false → a = none → exec c s = .next (t.windowRefused p q i.index 1)) ∧
      (∀ x, s.windowBusy p w = false → a = some x → exec c s = .next
        (if x.windowSlots ≤ w then t.windowRefused p q i.index 1
         else if t.revoking p w then t.windowRefused p q i.index 3
         else t.hostRead p (descAddr x w) 32 why)))) ∧
  (∀ (p : Port) (q : Fin 512) (s : State) (d : Drain) (page : Bool), s.runs = true →
    (s.transport.drains.find? fun e => e.port == p && e.queue == q && e.page.isSome == page && e.fence == 2) = some d →
    exec (if page then .pageReadyDrained p q else .revokeDrained p q) s = .next ((s.modTransport fun t =>
      { t with drains := t.drains.filter fun e => !(e == d) }).result p q d.item 0 0 0))

/-- A write, read, send, atomic, flush or relay item of the command's kind: a send on a stream send queue whose stream is withdrawn
completes with code 0x16; an item naming a channel that is down completes with 0x0E; one naming a channel that must still be waited for
waits, as does a relay beyond 32; every other item is started, its operation appended to those that run and the transport advanced. A
receive item makes its buffer available. -/
def Obligations.TransportItemsStart : Prop :=
  ∀ (p : Port) (q : Fin 512) (s : State) (i : Item) (b : TransportBody) (t : State) (c : Instr),
    s.nextItem p q = some (i, some (.transport b)) → t = s.startItem p q i.index →
    (c, b.kind) ∈ [(.writeItem p q, .write), (.readItem p q, .read), (.sendItem p q, .send), (.atomicItem p q, .atomic),
      (.flushItem p q, .flush), (.relayItem p q, .relay)] →
    exec c s = .next
      (if b.kind = .send ∧ (s.queue p q).stream.withdrawn = true ∧ (s.role p q).stream = 3 then
        t.complete p q i.index 0x16 0 none
       else if s.ready b.chan = .down ∨ s.ready b.chan2 = .down then t.complete p q i.index 0x0E 0 (some b.chan)
       else if s.ready b.chan = .wait ∨ s.ready b.chan2 = .wait then s
       else if b.kind = .relay ∧ 32 ≤ s.relays then s
       else (t.modTransport fun x => { x with
         ops := x.ops ++ [opOf p q i b]
         lastFrames := if b.kind = .send ∧ (s.role p q).stream = 3 then s.frameSent p q i b x.lastFrames
           else x.lastFrames }).advance)

/-- RECEIVE_ITEM, for a receive item that is next on its queue, starts the item, so that a message may fill its buffer, and changes
nothing else. -/
def Obligations.ReceiveItemsWait : Prop :=
  ∀ (p : Port) (q : Fin 512) (s : State) (i : Item) (a b c : _),
    s.nextItem p q = some (i, some (.receive a b c)) →
    exec (.receiveItem p q) s = .next (s.setPhase p q i.index .started)

/-! ### Stream items -/

/-- Stream start on a stream send queue ends its withdrawal and completes with 0x00; on a running feed or drain stream it completes with
0x15; else the timeline starts at the present superframe at slot 0 with the item's lead and reserve, and the item completes with 0x00.
Stream stop stops a running timeline, and completes with 0x15 on a stopped one. Reserve release with no episode open completes with
0x15. A stream buffer of a running feed stream takes the next slot number. -/
def Obligations.StreamItemsAct : Prop :=
  ∀ (p : Port) (q : Fin 512) (s : State) (i : Item) (t : State), t = s.startItem p q i.index →
    (∀ lead reserve, s.nextItem p q = some (i, some (.streamStart lead reserve)) → exec (.streamStart p q) s = .next
      (if (s.role p q).stream = 3 then
        (t.modStream p q fun x => { x with withdrawn := false }).complete p q i.index 0x00 0 none
       else if (s.queue p q).stream.running then t.complete p q i.index 0x15 0 none
       else (t.modStream p q fun x => { x with
        running := true, start := s.clock.sf, lead := lead, nextSlot := 0, dueSlot := 0, episode := 0, slots := [],
        reserveAddr := reserve, reservePos := 0, episodeOpen := false, frames := 0 }).complete p q i.index 0 0 none)) ∧
    (∀ a n, s.nextItem p q = some (i, some (.streamBuffer a n)) → exec (.streamBuffer p q) s = .next
      (t.modStream p q fun x => if (s.role p q).stream == 1 && x.running then
        { x with slots := x.slots ++ [(x.nextSlot, i.index)], nextSlot := x.nextSlot + 1 } else x)) ∧
    (s.nextItem p q = some (i, some .streamStop) → exec (.streamStop p q) s = .next
      (if (s.queue p q).stream.running then
        (t.modStream p q fun x => { x with running := false }).complete p q i.index 0x00 0 none
       else t.complete p q i.index 0x15 0 none)) ∧
    (s.nextItem p q = some (i, some .reserveRelease) →
      ((s.queue p q).stream.episodeOpen = false → exec (.reserveRelease p q) s =
        .next (t.complete p q i.index 0x15 0 none)) ∧
      ((s.queue p q).stream.episodeOpen = true → s.inReserve p q = false →
        (∀ c, (s.queue p q).stream.chan = some c → exec (.reserveRelease p q) s =
          .next ((((t.modStream p q fun y => { y with episodeOpen := false, reservePos := 0 }).signal c 5 0 0 0 q
            ).streamRecord p q ⟨5, c.val, (s.queue p q).stream.frames, 0, 0, 0, 0, 0, 0⟩).complete
              p q i.index 0x00 0 none)) ∧
        ((s.queue p q).stream.chan = none → exec (.reserveRelease p q) s =
          .next (((t.modStream p q fun y => { y with episodeOpen := false, reservePos := 0 }).streamRecord p q
            ⟨5, 0, (s.queue p q).stream.frames, 0, 0, 0, 0, 0, 0⟩).complete p q i.index 0x00 0 none))))

/-- STREAM_SLOT_DUE on a running feed stream whose next slot is due: a slot with no item exhausts the stream; one whose item has completed
is passed, ending a firebreak episode; one whose item has not takes a firebreak while the reserve allows it, and exhausts the stream
otherwise. STREAM_SIGNAL on a channel in order: placed completes the stream send with 0x00, truncated with 0x13, overtaken with 0x14
and withdraws the queue, failed with the status's code; decelerate and resume write the sender's event record where it has sent frames
to the stream, and nothing else. -/
def Obligations.StreamSlotsAndSignals : Prop :=
  (∀ (p : Port) (q : Fin 512) (s r : State), s.runs = true → (s.role p q).stream = 1 →
    (s.queue p q).stream.running = true →
    (s.clock.sf - s.due p q (s.queue p q).stream.dueSlot).toNat < 2 ^ 47 →
    r = (if (s.queue p q).stream.slots.any fun e => e.1 == (s.queue p q).stream.dueSlot then s else s.takeBuffer p q) →
    ((r.queue p q).stream.slots.find? (fun e => e.1 == (s.queue p q).stream.dueSlot) = none →
      exec (.streamSlotDue p q) s = .next (r.exhaust p q (s.queue p q).stream.dueSlot 0)) ∧
    (∀ e i, (r.queue p q).stream.slots.find? (fun e => e.1 == (s.queue p q).stream.dueSlot) = some e →
      r.findItem p q e.2 = some i →
      ((∃ code detail, i.phase = .done code detail) → exec (.streamSlotDue p q) s = .next (r.modStream p q fun y =>
        { y with episode := 0, dueSlot := (s.queue p q).stream.dueSlot + 1 })) ∧
      ((∀ code detail, i.phase ≠ .done code detail) → exec (.streamSlotDue p q) s = .next
        (if (r.queue p q).stream.episode < r.allowance p q then r.firebreak p q (s.queue p q).stream.dueSlot i
         else r.exhaust p q (s.queue p q).stream.dueSlot i.index)))) ∧
  (∀ (c : ChanId) (msg : Bytes) (s t : State), s.runs = true → field msg 0 1 = 0x50 →
    (s.chan c).retry.inbox.contains msg = true →
    t = (s.modRetry c fun r => { r with inbox := eraseFirst (· == msg) r.inbox }) →
    (∀ o, t.op (BitVec.ofNat 32 (field msg 4 4)) = some o → o.kind = .send → (t.role o.port o.queue).stream = 3 →
      (field msg 1 1 = 1 → exec (.streamSignal c msg) s = .next (t.endOp o 0x00 0).advance) ∧
      (field msg 1 1 = 3 → exec (.streamSignal c msg) s = .next ((t.endOp o 0x13 (field msg 8 8)).streamRecord
        o.port o.queue ⟨3, c.val, o.item.toNat, o.txn, field msg 8 8, 0, 0, 0, 0⟩).advance) ∧
      (field msg 1 1 = 4 → exec (.streamSignal c msg) s = .next ((t.endOp o 0x14 (field msg 8 8)).modStream
        o.port o.queue fun x => { x with withdrawn := true }).advance) ∧
      (field msg 1 1 = 6 → exec (.streamSignal c msg) s =
        .next (t.endOp o (statusCode (field msg 2 1)) 0).advance)) ∧
    (field msg 1 1 = 2 ∨ field msg 1 1 = 5 →
      (∀ f, (t.transport.lastFrames.find? fun f => f.1 == t.owner c && f.2.1 == BitVec.ofNat 16 (field msg 0x10 2)) =
        some f → exec (.streamSignal c msg) s = .next
          (t.streamRecord f.2.2.1 f.2.2.2.1 ⟨field msg 1 1, c.val, f.2.2.2.2.toNat, 0, 0, 0, 0, 0, 0⟩)) ∧
      ((t.transport.lastFrames.find? fun f => f.1 == t.owner c && f.2.1 == BitVec.ofNat 16 (field msg 0x10 2)) =
        none → exec (.streamSignal c msg) s = .next t)))

/-! ### The receive path, loading and bit-swaps -/

/-- CODEWORD_DECODED advances the receive descrambler by one codeword and then takes the codeword, in data mode. SYNC_MINUS_S in DATA
applies an armed table, or counts an unarmed sync. MISSED_SYNCS in DATA counts those of four missed ones that the received symbols had
not shown, and enters FAST with reason 3, counted from the first. GAIN_TRACKING_STEP beyond 0.75 dB from -12 dB moves the gain one step
the other way, once in a received superframe, or waits for an armed swap. At symbol 128 ANTI_ALIAS_CORNER_CHANGE widens the corner for a
table that waits for it, and narrows it where the table in use loads no carrier above 32. PRE_EQUALISER_UPDATE, at symbol 64 of every
256 superframes, recomputes the taps where enabled. TRANSFORM_WINDOW_MOVE moves the window by one sample, once the accumulated delay has
passed half a sample. ECHO_RETRAIN_START with four superframes above -50 dB retrains, over the 32 symbols that follow the next boundary,
and counts kind 11; its end, once they have passed, begins the hold-off, and the hold-off's end above -50 dB enters FAST with reason
0xF. -/
def Obligations.ReceiveAdaptationActs : Prop :=
  ∀ (c : ChanId) (s : State) (x : Chan), x = s.chan c → s.runs = true → x.stands .data = true →
    (∀ (lam : List Int) (d : _), (s.armedFor 3 c.val).isSome = false → s.rxOver x = false →
      d = decodeWord (x.air.word lam) (s.elem 0x030C c) x.retry.rxScr.toNat false →
      exec (.codewordDecoded c lam) s = .next ((s.modRetry c fun r =>
        { r with rxScr := BitVec.ofNat 23 (prbsBits 23 18 2048 r.rxScr.toNat).2 }).dataCodeword c d)) ∧
    (∀ t, x.load.armed = some t → exec (.syncMinusS c) s = .next (s.modChan c fun y => { y with
      load := { y.load with rxTable := t, armed := none, attempts := 0, replied := false }
      quality := { y.quality with syncMinus := y.quality.syncMinus + 1, syncS := y.quality.syncS - 1 } })) ∧
    (∀ t, x.load.armed = none →
      t = (s.modQuality c fun q => { q with unarmed := q.unarmed + 1, syncS := q.syncS - 1 }) →
      exec (.syncMinusS c) s = .next (t.occurChan 13 c (t.addrLink c 0))) ∧
    (∀ n, n = 4 - x.air.misses → s.clock.slot = 0 → exec (.missedSyncs c) s = .next ((s.modQuality c fun q =>
      { q with missed := q.missed + n, syncS := q.syncS - n }).enterFast c 3 (s.clock.sf - 4))) ∧
    (∀ power, s.clock.slot = 0 → s.manualGain c = none → s.elem 0x0305 c = 1 → 75 < (power + 1200).natAbs →
      x.air.stepped = false →
      exec (.gainTrackingStep c power) s = .next
        (if x.load.armed.isSome then s.modRx c fun r => { r with gainDue := some (decide (power < -1200)) }
         else s.modChan c fun y => { y with
          rx := y.rx.stepGain (decide (power < -1200)), air := { y.air with stepped := true } })) ∧
    (x.air.aligned = false ∨ x.air.symbol = 128 →
      (x.rx.narrow = true → x.load.waiting.isSome = true →
        exec (.antiAliasCornerChange c) s = .next (s.modRx c fun r => { r with narrow := false }.mark 4)) ∧
      (x.rx.narrow = false → x.load.waiting = none → x.load.armed = none → tableWide x.load.rxTable = false →
        exec (.antiAliasCornerChange c) s = .next (s.modRx c fun r => { r with narrow := true }.mark 4))) ∧
    (s.elem 0x0306 c = 1 → x.air.aligned = false ∨ x.air.symbol = 64 → 256 ≤ x.air.preEqFrames →
      exec (.preEqualiserUpdate c) s = .next ((((s.setPreEq c).correctMatrix c).modRx c (Rx.mark 1)).modChan c fun y =>
        { y with air := { y.air with preEqFrames := 0 } })) ∧
    (∀ later : Bool, x.air.aligned = false ∨ (later = true ∧ 32 < x.air.delay) ∨ (later = false ∧ x.air.delay < -32) →
      ∃ t, exec (.transformWindowMove c later) s = .next t ∧
        t = s.modChan c (fun y => { y with rx := (t.chan c).rx, air := (t.chan c).air }) ∧
        (t.chan c).rx = { x.rx with window := if later then x.rx.window + 1 else x.rx.window - 1 } ∧
        (x.air.aligned = false → (t.chan c).air = x.air) ∧
        (x.air.aligned = true → (t.chan c).air = { x.air with
          delay := if later then x.air.delay - 64 else x.air.delay + 64
          slip := if later then x.air.slip + 1 else x.air.slip - 1 })) ∧
    (∀ residuals, x.rx.retraining = none → x.rx.holdoff = none → residuals.length = 4 → (∀ r ∈ residuals, -500 < r) →
      exec (.echoRetrainStart c residuals) s =
        .next ((s.modRx c fun r => { r with retraining := some 33 }).occurChan 11 c (s.addrLink c 0))) ∧
    (x.rx.retraining = some 0 → exec (.echoRetrainEnd c) s = .next (s.modRx c fun r =>
      { r with retraining := none, holdoff := some s.clock.symbols, echo := s.taps 384 }).useFresh) ∧
    (∀ residual t, x.rx.holdoff = some t → t + 256 * 256 ≤ s.clock.symbols →
      exec (.echoRetrainHoldoffEnd c residual) s = .next
        (if -500 < residual then (s.modRx c fun r => { r with holdoff := none }).enterFast c 0xF s.clock.sf
         else s.modRx c fun r => { r with holdoff := none }))

/-- LOADING_RECOMPUTE, after 256 superframes of DATA, whose new B is below the link's minimum leaves for SEARCH with reason 9, one whose
table is not worth a request keeps what was measured, and one whose table is requests it or waits for the corner. BIT_SWAP_REQUEST in DATA: a repeated
identifier is answered again and changes nothing else; a new one with a valid table is answered with status 0 and applied two superframes on; one without is
answered with 2. BIT_SWAP_REPLY to the armed identifier: 0 keeps it armed, any other disarms it and 1 enters FAST with reason 0xE.
BIT_SWAP_APPLY applies the accepted table at the boundary and sends the sync symbol of form -S. BIT_SWAP_RESEND_TIMEOUT after 64
superframes sends the request again, and after the fourth with no reply disarms it and enters FAST with reason 0xE. -/
def Obligations.LoadingAndBitSwaps : Prop :=
  ∀ (c : ChanId) (s : State),
    (∀ snr v tab u, s.runs = true → (s.chan c).stands .data = true → 256 ≤ (s.chan c).air.frames →
      v = (s.chan c).dataSnr snr → tab = loadTable v (s.marginM c) (s.elem 0x030A c) (s.chan c).partner.highB →
      u = ((s.restartSnr c).modChan c fun y => { y with
        rx := { y.rx with snr := v, snrValid := true }
        load := { y.load with lastMargin := s.marginM c } }) →
      (tableB tab < s.linkMinimum c → exec (.loadingRecompute c snr) s = .next (u.leave c .search 9)) ∧
      (s.linkMinimum c ≤ tableB tab → ((s.chan c).load.armed.isSome = true ∨ (s.chan c).load.waiting.isSome = true ∨
        wantsSwap (s.marginM c) (s.marginM c != (s.chan c).load.lastMargin) (s.chan c).load.rxTable tab v = false) →
        exec (.loadingRecompute c snr) s = .next u) ∧
      (s.linkMinimum c ≤ tableB tab → (s.chan c).load.armed = none → (s.chan c).load.waiting = none →
        wantsSwap (s.marginM c) (s.marginM c != (s.chan c).load.lastMargin) (s.chan c).load.rxTable tab v = true →
        exec (.loadingRecompute c snr) s = .next
          (if tableWide tab = true ∧ (s.chan c).rx.narrow = true then
            u.modChan c fun y => { y with load := { y.load with waiting := some tab } }
           else u.requestSwap c tab))) ∧
    (∀ msg t, Delivered s c msg 0x11 t → (t.chan c).stands .data = true →
      ((t.chan c).load.applied = some (byteAt msg 1) → exec (.bitSwapRequest c msg) s = .next
        (t.sendLm c (swapReply (byteAt msg 1) (if (t.chan c).load.toApply.isSome then 0 else 1)))) ∧
      ((t.chan c).load.applied ≠ some (byteAt msg 1) →
        (readTable msg = none → exec (.bitSwapRequest c msg) s = .next (t.sendLm c (swapReply (byteAt msg 1) 2))) ∧
        (∀ tab, readTable msg = some tab → exec (.bitSwapRequest c msg) s =
          .next ((t.sendLm c (swapReply (byteAt msg 1) 0)).modChan c fun y => { y with load := { y.load with
            toApply := some (tab, s.clock.sf + 2), applied := some (byteAt msg 1) } })))) ∧
    (∀ msg t, Delivered s c msg 0x12 t → (t.chan c).stands .data = true → (t.chan c).load.armed.isSome = true →
      byteAt msg 1 = (t.chan c).load.ident → exec (.bitSwapReply c msg) s = .next
        (if byteAt msg 2 = 0 then t.modChan c fun y => { y with load := { y.load with replied := true } }
         else if byteAt msg 2 = 1 then
          (t.modChan c fun y => { y with load := { y.load with armed := none } }).enterFast c 0xE s.clock.sf
         else t.modChan c fun y => { y with load := { y.load with armed := none } })) ∧
    (∀ t sf, (s.chan c).load.toApply = some (t, sf) → s.atBoundary = true → (s.chan c).stands .data = true →
      s.passedSf sf 0 = true → exec (.bitSwapApply c) s = .next (((s.modChan c fun y =>
        { y with load := { y.load with txTable := t, toApply := none } }).modChan c fun y =>
          { y with air := { y.air with minus := true } }).say (.minusS c))) ∧
    (∀ t, (s.chan c).load.armed = some t → s.runs = true → (s.chan c).stands .data = true →
      (s.chan c).load.armedSince + 256 * 64 ≤ s.clock.symbols → exec (.bitSwapResendTimeout c) s = .next
        (if 4 ≤ (s.chan c).load.attempts ∧ (s.chan c).load.replied = false then
          (s.modChan c fun y => { y with load := { y.load with armed := none } }).enterFast c 0xE s.clock.sf
         else (s.sendLm c (tableMessage 0x11 (s.chan c).load.ident (s.chan c).load.sentMargin t)).modChan c fun y =>
          { y with load := { y.load with armedSince := s.clock.symbols, attempts := y.load.attempts + 1 } }))

/-! ### Search, training and fast retrain -/

/-- A caller or a listener that decodes calls takes a capability word, and refuses it or enters EXCHANGE. A role word
with the wrong protocol version is refused with reason 7. A start word sets the countdown at the end that does not call. An assembled word
or a hold takes an answerer whose exchange may end so into ASSEMBLE, and is noted in ASSEMBLE. SEARCH_ROUND_START at an epoch boundary enters SEARCH with the reason held, or begins the round. An exchange with no progress for 64 superframes is refused with reason 5, and an assembly that
has lasted 1,296 begins its countdown alone. COUNTDOWN_END, a superframe after the last of the countdown, starts training, of the group
where one forms. -/
def Obligations.SearchAndExchange : Prop :=
  ∀ (c : ChanId) (s : State),
    (∀ carrier frame, s.runs = true → s.hears c carrier = true →
      (callAccepted 1 frame = true → (s.chan c).stands .search = true →
        ((s.chan c).bring.caller = true ∨ (s.chan c).bring.calling = true) →
        ∀ t, t = (s.modChan c fun y => { y with partner := y.partner.ofCapability (callPayload frame) }) →
          exec (.capabilityFrame c carrier frame) s = .next (match s.refuses (callPayload frame) with
            | some reason => t.refuseBringup c reason
            | none => t.enterExchange c)) ∧
      (callAccepted 2 frame = true → (s.chan c).stands .exchange = true → (s.chan c).bring.capSeen = true →
        (s.chan c).bring.roleSeen = false →
        ∀ t, t = (s.modChan c fun y => { y with partner := y.partner.ofRole (callPayload frame) }) →
          exec (.roleFrame c carrier frame) s = .next
            (if bits (callPayload frame) 7 0 ≠ 1 then t.refuseBringup c 7
             else if (s.chan c).bring.caller then
              (t.modBring c fun b => { b with roleSeen := true, lastProgress := s.clock.sf }).afterRoles c
             else t.modBring c fun b => { b with roleSeen := true, lastProgress := s.clock.sf })) ∧
      (callAccepted 3 frame = true → (s.chan c).bring.caller = false → (s.chan c).bring.countdown = none →
        ((s.chan c).stands .exchange = true ∧ (s.chan c).bring.roleSeen = true ∨ (s.chan c).stands .assemble = true) →
        exec (.startFrame c carrier frame) s = .next (s.modBring c fun y => { y with
          countdown := some ((s.chan c).link == .assemble && s.pairOffset c == 0 && !(s.chan c).bring.lastHold,
            s.clock.sf + BitVec.ofNat 48 (8 * (callPayload frame % 4)))
          lastProgress := s.clock.sf })) ∧
      ((s.chan c).stands .assemble = true → (s.chan c).bring.countdown = none → s.mayAssemble c = false →
        (callAccepted 4 frame = true → exec (.assembledFrame c carrier frame) s =
          .next (s.takeAssembled c (callPayload frame % 2 == 1))) ∧
        (callAccepted 5 frame = true → exec (.holdFrame c carrier frame) s =
          .next (s.modBring c fun b => { b with lastHold := true, lastProgress := s.clock.sf }))) ∧
      (s.mayAssemble c = true →
        (callAccepted 4 frame = true → exec (.assembledFrame c carrier frame) s = .next ((s.enterAssemble c false).modBring c
          fun b => { b with assembledFar := callPayload frame % 2 == 1 })) ∧
        (callAccepted 5 frame = true → exec (.holdFrame c carrier frame) s = .next (s.enterAssemble c true)))) ∧
    (∀ energy appeared, s.atBoundary = true → s.clock.sf.toNat % 162 = 0 →
      (∀ reason, (s.chan c).bring.toSearch = some reason → exec (.searchRoundStart c energy appeared) s =
        .next (s.enterSearch c reason.toNat energy)) ∧
      ((s.chan c).stands .search = true → exec (.searchRoundStart c energy appeared) s = .next
        (if (s.chan c).bring.caller = false ∧ (s.chan c).bring.calling = false ∧ (energy = true ∨ appeared = true) then
          s.newRound c false energy
         else if 324 ≤ s.since (s.chan c).bring.roundStart then s.newRound c true energy
         else s.modBring c fun x => { x with calling := energy && !x.caller }))) ∧
    ((s.chan c).stands .exchange = true ∨ (s.chan c).stands .assemble = true → s.runs = true →
      (s.chan c).bring.countdown = none → s.passedSf (s.chan c).bring.lastProgress 64 = true →
      exec (.exchangeTimeout c) s = .next (s.refuseBringup c 5)) ∧
    ((s.chan c).stands .assemble = true → s.runs = true → (s.chan c).bring.caller = true →
      (s.chan c).bring.countdown = none → s.passedSf (s.chan c).bring.roundStart 1296 = true →
      exec (.assemblyTimeout c) s = .next (s.beginCountdown c false (if s.pairOffset c = 0 then 8 else 4))) ∧
    (∀ forming last, (s.chan c).bring.countdown = some (forming, last) → s.atBoundary = true →
      ((s.chan c).stands .exchange = true ∨ (s.chan c).stands .assemble = true) → s.passedSf last 1 = true →
      exec (.countdownEnd c) s = .next
        (if forming then eachChan State.formMember (s.members c) s else s.trainAlone c))

/-- TRAIN_PHASE_END, when the phase has lasted its superframes: TRAIN1's first half is followed by its second, then TRAIN2, TRAIN3, TRAIN4 and
TRAIN5 follow, each with its phase start at the present superframe. LOADING_TABLE in TRAIN5 with status 0 and a valid table is accepted,
and any other is marked invalid; the state is reported at once. STATE_MESSAGE acts in TRAIN5 and in F3. LOADING_TABLE_APPLY applies the
confirmed table at its boundary and sends the sync symbol of form -S. TRAIN5 that lasts 1,024 superframes fails with reason 8. A down
notice takes a channel of a running link to SEARCH with reason 0xB, or to the state it was leaving for. -/
def Obligations.TrainingAdvances : Prop :=
  ∀ (c : ChanId) (s : State),
    (∀ m n, phaseLength (s.chan c).link = some n → s.atBoundary = true → (s.chan c).bring.toSearch = none →
      s.passedSf (s.chan c).train.phaseStart n = true →
      ∃ t, exec (.trainPhaseEnd c m) s = .next t ∧ (∀ d, d ≠ c → (t.chan d).link = (s.chan d).link) ∧
        (t.chan c).train.phaseStart = s.clock.sf ∧
        (t.chan c).link = (match (s.chan c).link with
          | .train1 => if (s.chan c).train.secondHalf then LinkState.train2 else .train1
          | .train2 => .train3
          | .train3 => .train4
          | _ => .train5)) ∧
    (∀ msg t, Delivered s c msg 0x10 t → (t.chan c).stands .train5 = true → (t.chan c).load.toApply = none →
      (t.chan c).train.txMinus = false →
      (∀ tab, byteAt msg 1 = 0 → readTable msg = some tab → exec (.loadingTable c msg) s = .next
        ((t.modChan c fun y => { y with
          load := { y.load with txTable := tab }
          train := { y.train with
            accepted := true, invalid := false
            acceptedB := tableB tab
            acceptedCheck := messageCheck msg } }).sayState c)) ∧
      (byteAt msg 1 ≠ 0 ∨ readTable msg = none → exec (.loadingTable c msg) s = .next
        ((t.modTrain c fun y => { y with accepted := false, invalid := true }).sayState c))) ∧
    (∀ msg t, Delivered s c msg 0x20 t →
      ((t.chan c).stands .train5 = true → exec (.stateMessage c msg) s = .next (t.stateInTrain5 c msg)) ∧
      ((t.chan c).stands .fast = true → (t.chan c).train.fast = .f3 → (t.chan c).train.confirmed = false →
        exec (.stateMessage c msg) s = .next (t.stateInF3 c msg))) ∧
    (∀ t sf, (s.chan c).load.toApply = some (t, sf) → s.atBoundary = true → (s.chan c).trains = true →
      (s.chan c).train.txMinus = false → s.passedSf sf 0 = true → exec (.loadingTableApply c) s =
        .next ((((s.modChan c fun y => { y with
          load := { y.load with txTable := t, toApply := none }
          train := { y.train with txMinus := true }
          retry := y.retry.beginTx (s.seedOffset c) (y.link == .fast) }).modChan c fun y => { y with air := { y.air with minus := true } }).say (.minusS c)).checkData c)) ∧
    (s.runs = true → (s.chan c).stands .train5 = true → s.passedSf (s.chan c).train.phaseStart 1024 = true →
      exec (.train5Limit c) s = .next (s.failTraining c 8)) ∧
    (∀ msg t, Delivered s c msg 0x21 t → ((t.chan c).stands .data = true ∨ (t.chan c).stands .quiet = true ∨
      (t.chan c).stands .fast = true ∨ (t.chan c).stands .train5 = true) →
      exec (.downNotice c msg) s = .next (match (t.chan c).bring.leaving with
        | some (target, why, _) => t.arrive c target why
        | none => t.arrive c .search 0xB))

/-- F1_ACQUIRED, sixteen superframes or more into F1, begins F2 at the boundary. F2_END, sixteen superframes into F2, begins F3, or goes to SEARCH with reason 0xC where more
than eight carriers have too low a margin. Silence for the tolerance goes to SEARCH with reason 4, an F1 of 48 superframes with the
partner's signal to SEARCH with 0xC, and an F3 of 64 leaves for SEARCH with 0xC. -/
def Obligations.FastRetrainAdvances : Prop :=
  ∀ (c : ChanId) (s : State), (s.chan c).stands .fast = true →
    ((s.chan c).train.fast = .f1 →
      (s.atBoundary = true → s.passedSf (s.chan c).train.phaseStart 16 = true → exec (.f1Acquired c) s =
        .next ((s.modTrain c fun t => { t with
          fast := .f2, phaseStart := s.clock.sf, silentSince := none, answer := none }).modChan c fun x =>
            { x with air := { x.air with snr := SnrSum.reset, frames := 0 } })) ∧
      (s.runs = true → s.passedSf (s.chan c).train.phaseStart 48 = true →
        exec (.f1Limit c) s = .next (s.arrive c .search 0xC)) ∧
      (∀ t, s.runs = true → (s.chan c).train.silentSince = some t → s.passedSf t (s.elem 0x030B c) = true →
        exec (.silenceToleranceExpiry c) s = .next (s.arrive c .search 4))) ∧
    (∀ snr, (s.chan c).train.fast = .f2 → s.atBoundary = true → s.passedSf (s.chan c).train.phaseStart 16 = true →
      exec (.f2End c snr) s = .next
        (if 8 < lowMargins (s.marginM c) (s.chan c).load.rxTable ((s.chan c).trainedSnr snr) then s.arrive c .search 0xC else s.startF3 c)) ∧
    ((s.chan c).train.fast = .f3 → s.runs = true → s.passedSf (s.chan c).train.phaseStart 64 = true →
      exec (.f3Limit c) s = .next (s.leave c .search 0xC))

/-! ### Quiet, sleep and wake -/

/-- An idle channel in quiet mode sends a quiet request after its idle time. A request with a legal phase is accepted by an idle end, which
then ends its stream, and refused otherwise. An accepting reply ends the requester's stream, a refusal or 64 superframes without a reply
begin the idle time again. With its stream ended, the channel enters QUIET with reason 0x23. In QUIET it sends a refresh every 81
superframes; two missed ones of the partner enter FAST with reason 0x25; pending work begins an alert; two symbols of the partner's alert
are noted, and begin the own one where the stream is suspended; an alert with no answer within 64 symbols of its end enters FAST with
reason 0x25. -/
def Obligations.QuietIsEnteredAndLeft : Prop :=
  ∀ (c : ChanId) (s : State),
    (s.runs = true → (s.chan c).stands .data = true →
      ((s.chan c).quiet.mode = true → (s.chan c).quiet.requested = none → (s.chan c).quiet.ending = false →
        (s.chan c).quiet.txEnded = false → s.idleEnd c = true →
        (s.chan c).quiet.idleSince + 256 * s.elem 0x0600 c ≤ s.clock.symbols → exec (.quietIdleTimeout c) s =
          .next ((s.sendLm c quietRequest).modQuiet c fun q => { q with requested := some s.clock.symbols })) ∧
      (∀ t, (s.chan c).quiet.requested = some t → (s.chan c).quiet.ending = false → (s.chan c).quiet.txEnded = false →
        t + 256 * 64 ≤ s.clock.symbols → exec (.quietReplyTimeout c) s =
          .next (s.modQuiet c fun q => { q with requested := none, idleSince := s.clock.symbols })) ∧
      ((s.chan c).quiet.txEnded = true → (s.chan c).quiet.alert = none → ∃ t, exec (.quietStreamsEnded c) s = .next t ∧
        t = ((s.move c .quiet 0x23).modChan c fun y => { y with
          quiet := { y.quiet with seenEnd := if (s.chan c).quiet.rxEnded then none else some s.clock.symbols }
          air := { y.air.dropRest with noise := NoiseSum.reset } }) ∧
        (∀ d, (t.chan d).link = if d = c then LinkState.quiet else (s.chan d).link) ∧
        (t.chan c).quiet.seenEnd = (if (s.chan c).quiet.rxEnded then none else some s.clock.symbols))) ∧
    (∀ msg t, Delivered s c msg 0x30 t → (t.chan c).stands .data = true → field msg 1 1 ≤ 80 →
      exec (.quietRequest c msg) s = .next
        (if t.idleEnd c ∧ (t.chan c).quiet.ending = false ∧ (t.chan c).quiet.requested = none then
          (t.sendLm c (quietReply 0)).modQuiet c fun q =>
            { q with ending := true, phase := (t.chan c).retry.phaseOf (field msg 1 1) }
         else t.sendLm c (quietReply 1))) ∧
    (∀ msg t, Delivered s c msg 0x31 t → (t.chan c).stands .data = true → (t.chan c).quiet.requested.isSome = true →
      (t.chan c).quiet.ending = false → field msg 1 1 ≤ 80 → exec (.quietReply c msg) s = .next
        (if byteAt msg 2 = 0 then t.modChan c fun y => { y with
          quiet := { y.quiet with ending := true, rxEnded := true, phase := y.retry.phaseOf (field msg 1 1) }
          air := { y.air with soft := [], used := 0 } }
         else t.modQuiet c fun q => { q with requested := none, idleSince := s.clock.symbols })) ∧
    (s.runs = true → (s.chan c).stands .quiet = true →
      (s.clock.slot = 0 → (s.chan c).quiet.txEnded = true → (s.chan c).quiet.alert = none →
        s.clock.sf.toNat % 81 = 0 → exec (.quietRefresh c) s =
          .next ((s.modQuiet c fun q => { q with refreshing := true }).say (.refresh c))) ∧
      (∀ n, n = 2 - (s.chan c).air.misses → exec (.refreshMissed c) s = .next ((s.modQuality c fun q =>
        { q with missed := q.missed + n, syncS := q.syncS - n }).enterFast c 0x25 (s.clock.sf - 81)))) ∧
    (s.runs = true → ((s.chan c).stands .quiet = true ∨ (s.chan c).stands .data = true) →
      (∀ n, (s.chan c).quiet.alert = some n → (s.chan c).quiet.heard = none → 73 ≤ n →
        exec (.alertAnswerTimeout c) s = .next (s.enterFast c 0x25 s.clock.sf)) ∧
      ((s.chan c).quiet.txEnded = true → (s.chan c).quiet.alert = none →
        (s.hasWork c = true → exec (.quietWorkPending c) s =
          .next ((s.modQuiet c fun q => { q with alert := some 0, refreshing := false }).say (.alert c))) ∧
        ((s.chan c).quiet.heard = none → exec (.alertDetected c) s =
          .next (((s.modQuiet c fun q => { q with heard := some 2 }).modQuiet c fun q =>
            { q with alert := some 0, refreshing := false }).say (.alert c)))) ∧
      ((s.chan c).quiet.heard = none → ((s.chan c).quiet.alert.isSome = true ∨
        ((s.chan c).quiet.txEnded = false ∧ (s.chan c).quiet.rxEnded = true)) →
        exec (.alertDetected c) s = .next (s.modQuiet c fun q => { q with heard := some 2 })))

/-- A sleep notice takes a channel of a running link to SLEEP. At an armed sleeping channel, runs that are no wake frame change
nothing; a failed check and a frame that does not match are counted, up to 255, and change nothing else; a matching one wakes the channel. WAKE_RESTORE_DONE ends the restore at a boundary and a
channel still in SLEEP begins to retrain fast with reason 0x22. WAKE_FRAMES_SENT completes the item of a channel-up with its result and begins fast retrain
from SLEEP with stored settings, or a search. No answer within the limit goes to SEARCH with reason 0x27. A false wake's time-out returns
the channel to SLEEP with reason 0x26, with a notice where the link is up. -/
def Obligations.SleepAndWakeAct : Prop :=
  ∀ (c : ChanId) (s : State),
    (∀ msg t, Delivered s c msg 0x32 t → ((t.chan c).stands .data = true ∨ (t.chan c).stands .quiet = true ∨
      (t.chan c).stands .fast = true) → ∃ u, exec (.sleepNotice c msg) s = .next u ∧ u = t.move c .sleep 0x21 ∧
        ∀ d, (u.chan d).link = if d = c then LinkState.sleep else (s.chan d).link) ∧
    (∀ runs f i d k, s.wakes = true → (s.chan c).link = .sleep → (s.chan c).wake.armed = true →
      f = (if runs = [] then some (i, d, k) else wakeDecode runs) →
      (f = none → exec (.wakeFrameDecoded c runs i d k) s = .next s) ∧
      (∀ ident data check, f = some (ident, data, check) →
        (check ≠ wakeCheck ident data → exec (.wakeFrameDecoded c runs i d k) s =
          .next (s.modWake c fun y => { y with failed := min 255 (y.failed + 1) })) ∧
        (∀ e, check = wakeCheck ident data → s.image.wake[c.val]? = some e →
          exec (.wakeFrameDecoded c runs i d k) s = .next (if e.matchesFrame ident data then s.woken c ident data
            else s.modWake c fun y => { y with notMatching := min 255 (y.notMatching + 1) })))) ∧
    (s.atBoundary = true → (s.chan c).wake.restoring = true →
      ((s.chan c).stands .sleep = true → exec (.wakeRestoreDone c) s =
        .next ((s.modWake c fun w => { w with restoring := false }).beginFast c 0x22 0x22 none none)) ∧
      ((s.chan c).stands .sleep = false → exec (.wakeRestoreDone c) s =
        .next (s.modWake c fun w => { w with restoring := false }))) ∧
    (∀ a b p q item, s.runs = true → (s.chan c).wake.sending = some (a, b, p, q, item) →
      exec (.wakeFramesSent c) s = .next
        (if (s.chan c).wake.fromSleep = true ∧ (s.chan c).stored.isSome = true then
          ((s.modWake c fun y => { y with sending := none }).result p q item 0 0 0).beginFast c 0x28 1 none
            (some s.clock.sf)
         else ((s.modWake c fun y => { y with sending := none }).result p q item 0 0 0).arrive c .search 1)) ∧
    (∀ t, s.runs = true → (s.chan c).stands .fast = true → (s.chan c).train.fast = .f1 →
      (s.chan c).train.answer = some t → s.passedSf t (s.elem 0x0602 c) = true →
      exec (.wakeAnswerLimit c) s = .next (s.arrive c .search 0x27)) ∧
    (∀ t, s.runs = true → ((s.chan c).link.awake = true ∨ (s.chan c).link = .sleep ∧
        ((s.chan c).wake.restoring = true ∨ (s.chan c).bring.toSearch.isSome = true)) →
      (s.chan c).wake.falseSince = some t →
      t + 256 * s.elem 0x0603 c ≤ s.clock.symbols → exec (.falseWakeTimeout c) s = .next
        (if (s.chan c).stands .data = true ∨ (s.chan c).stands .quiet = true then
          (s.modWake c fun w => { w with falseSince := none }).leaveNoticed c sleepNotice .sleep 0x26
         else (s.modWake c fun w => { w with falseSince := none }).move c .sleep 0x26))

/-! ### Transport arrivals and timers -/

/-- RESTART drops the partial packet of the logical link and, in a bonded group, what the restart outranks. RESUME with a number that names
one of the kept codewords takes those before it as acknowledged, renumbers the rest and sends them again; one with no valid number gives
up. DISCARD_NOTICE loses the operations whose bytes the named codewords carried: those from the first
sequence number to the last, in a bonded group from the one member's codeword to the other's. PAD is taken and changes nothing else. RETRANSMIT_TIMEOUT on the oldest codeword sends all
again, RETRY_BUDGET_EXPIRY gives up, and a header whose check failed counts kind 1. -/
def Obligations.RetryMessagesAct : Prop :=
  ∀ (c : ChanId) (msg : Bytes) (s t : State),
    (Delivered s c msg 0x40 t → exec (.restart c msg) s = .next ((t.modRetry (t.owner c) fun r => { r with
      partial' := []
      hunting := none
      merge := r.merge.filter fun x => !earlierThan x (t.instant c 0) }).abandonChan c)) ∧
    (Delivered s c msg 0x41 t →
      (∀ acked rest n, (t.chan c).retry.resumption = .running false acked → n = BitVec.ofNat 12 (field msg 2 2) →
        rest = renumber (t.chan c).retry.next ((t.chan c).retry.kept.filter fun w => !before w.seq n) →
        ((field msg 1 1).testBit 0 = true →
          (∀ w v, (t.chan c).retry.kept = w :: v →
            (n - w.seq).toNat ≤ ((t.chan c).retry.oldNext - w.seq).toNat →
            exec (.resume c msg) s = .next (State.refsAcked c
              (refsIn ((t.chan c).retry.kept.filter fun w => before w.seq n)) (t.modRetry c fun x => { x with
                kept := [], retain := x.retain ++ rest, resend := x.resend ++ rest
                next := x.next + BitVec.ofNat 12 rest.length
                resumption := if acked then .complete else .running true false
                history := keepHistory (x.history ++ rest.map fun w => (w.seq, w.ops)) })).advance)) ∧
        ((field msg 1 1).testBit 0 = false → exec (.resume c msg) s = .next ((t.modRetry c fun x =>
          { x with resumption := if acked then .complete else .running true false }).giveUp c true))) ∧
      ((∀ acked, (t.chan c).retry.resumption ≠ .running false acked) →
        exec (.resume c msg) s = .next (t.giveUp c true))) ∧
    (Delivered s c msg 0x42 t → ∀ (first last oa ob : Nat), first = field msg 4 2 → last = field msg 6 2 →
      oa = field msg 1 1 → ob = field msg 2 1 →
      exec (.discardNotice c msg) s = .next (State.loseRefs c ((t.bond c).flatMap fun d =>
        ((t.chan d).retry.history.filter fun h =>
          (if oa = ob then (if (t.chan d).partner.bondedLink then t.pairOffset d else 0) == oa &&
              inRange (BitVec.ofNat 12 first) (BitVec.ofNat 12 last) h.1
           else if (if (t.chan d).partner.bondedLink then t.pairOffset d else 0) = oa then
            decide ((h.1 - BitVec.ofNat 12 first).toNat < 2048)
           else if (if (t.chan d).partner.bondedLink then t.pairOffset d else 0) = ob then
            decide ((BitVec.ofNat 12 last - h.1).toNat < 2048)
           else false)).flatMap (·.2)) t).advance) ∧
    (Delivered s c msg 0x43 t → exec (.pad c msg) s = .next t) ∧
    (s.runs = true → (s.chan c).txData = true →
      (∀ w v n, (s.chan c).retry.retain = w :: v → w.latest = some n →
        n + s.retransmitTime c < (s.chan c).retry.clock → (s.chan c).retry.resend = [] →
        exec (.retransmitTimeout c) s = .next (s.modRetry c fun x => { x with resend := x.retain })) ∧
      (∀ w n, w ∈ (s.chan c).retry.retain → w.first = some n → n + s.elem 0x0705 c ≤ (s.chan c).retry.clock →
        exec (.retryBudgetExpiry c) s = .next (s.giveUp c false))) ∧
    (∀ header, s.runs = true → (s.chan (s.owner c)).retry.bad.contains header = true →
      exec (.headerCheckFailed c header) s = .next ((s.modRetry (s.owner c) fun r =>
        { r with bad := eraseFirst (· == header) r.bad }).occurChan 1 c (addrPacket (readHead header) 0xFF)))

/-- A packet that has arrived from a source other than the partner is discarded and counted as kind 1, whatever its kind. A request with a
reserved field is refused with 0x0B, one for another node with 0x0A, and one at a quiesced device with 0x08. A request that passes is
acted on: write, read and atomic requests at their window, a message's first packet at its queue and a later one in its message, a flush
among those in progress. A read response puts its chunk in place where its array and length are right and fails the chunk with 0x0B
otherwise; an atomic response writes the prior value and completes; a flush response completes its operation with the failure that the
operation or its pair has met, or its status; a status packet refuses the chunk that it names, or is kept for the next flush where no
operation is outstanding. A response that names no operation changes nothing but that it is taken. -/
def Obligations.PacketsAreChecked : Prop :=
  ∀ (c : ChanId) (pkt : Packet) (s t : State) (h : Head) (k : Nat) (cmd : Instr),
    (k, cmd) ∈ [(1, .writePacket c pkt), (2, .readRequest c pkt), (3, .readResponse c pkt), (4, .messagePacket c pkt),
      (5, .atomicRequest c pkt), (6, .atomicResponse c pkt), (7, .flushRequest c pkt), (8, .flushResponse c pkt),
      (9, .statusPacket c pkt)] →
    (s.runs = true → h = readHead pkt.header → h.kind = k →
      (s.chan (s.owner c)).retry.arrived.contains pkt = true → h.source ≠ (s.chan c).partner.node →
      exec cmd s = .next ((s.modRetry (s.owner c) fun r => { r with arrived := eraseFirst (· == pkt) r.arrived }).occurChan
        1 c (addrPacket h 0xFF))) ∧
    (Arrived s c pkt k h t →
      (k ∈ [1, 2, 4, 5, 7] → headFieldsOk h = false → exec cmd s = .next (t.refuse c h 0xB)) ∧
      (k ∈ [1, 2, 4, 5, 7] → headFieldsOk h = true → h.dest.toNat ≠ t.node → exec cmd s = .next (t.refuse c h 0xA)) ∧
      (k ∈ [1, 2, 4, 5, 7] → headFieldsOk h = true → h.dest.toNat = t.node → t.faults.quiesced = true →
        exec cmd s = .next (t.refuse c h 8)) ∧
      (k ∈ [3, 6, 8] → t.op h.txn = none → exec cmd s = .next t)) ∧
    (Passed s c pkt k h t →
      (k ∈ [1, 2, 5] → exec cmd s = .next (t.windowRequest c pkt h)) ∧
      (k = 4 → h.flags.testBit 0 = true → exec cmd s = .next (t.firstPacket c pkt h)) ∧
      (k = 4 → h.flags.testBit 0 = false → exec cmd s = .next (match t.messageOf c h with
        | none => t
        | some m =>
          if m.dropped then (if h.flags.testBit 1 then t.dropMessage m else t)
          else if (t.role m.port m.queue).stream = 2 then t.drainChunk c h pkt m
          else t.placeChunk c h pkt m h.offset.toNat)) ∧
      (k = 7 → exec cmd s = .next (t.addReq c pkt .flushing).afterReq)) ∧
    (Arrived s c pkt k h t → ∀ o, t.op h.txn = some o →
      (k = 3 → o.kind = .read ∨ o.kind = .relay → ∀ i, i = (h.offset - o.offset).toNat / 4096 →
        (o.out.any fun e => e.1 == i) = true →
        (h.status ≠ 0 → exec cmd s = .next (t.refused o i h.status)) ∧
        (h.status = 0 → ∀ r, r = t.checkFixity c h 0xFF pkt.payload pkt.trailer.toNat
            (match o.expected.find? fun e => e.1 == i with | some e => e.2.toNat | none => pkt.trailer.toNat) →
          exec cmd s = .next (if r.1 = true ∧ pkt.payload.length = o.chunkLen i then r.2.placeRead o i pkt
            else (r.2.failChunk o 0x0B i).advance))) ∧
      (k = 6 → o.kind = .atomic → o.next = 1 → exec cmd s = .next (if h.status ≠ 0 then t.refused o 0 h.status
        else ((t.hostWrite o.port o.addr (fit 8 pkt.payload)).endOp o 0x00 0).advance)) ∧
      (k = 8 → o.kind = .flush ∨ o.kind = .relay → o.flushing = true → ∀ r,
        r = t.takeFailure o.port o.queue (if o.kind = .relay then o.chan2 else o.chan) → exec cmd s = .next
          (match o.failed, r.1 with
           | some f, _ => (r.2.endOp o f.1 f.2).advance
           | none, some index => (r.2.endOp o 0x10 index.toNat).advance
           | none, none => (r.2.endOp o (statusCode h.status)
              (if o.kind = .relay then (if h.status = 0 then o.chunks else o.nextWrite) else 0)).advance)) ∧
      (k = 9 →
        (o.kind = .write → exec cmd s = .next (t.refused o ((h.offset - o.offset).toNat / 4096) h.status)) ∧
        (o.kind = .relay → exec cmd s = .next (t.refused o ((h.offset - o.addr).toNat / 4096) h.status)) ∧
        (o.kind = .send → exec cmd s = .next
          (t.refused o (if h.offset.toNat = o.length then 0 else h.offset.toNat / 4096) h.status)))) ∧
    (Arrived s c pkt k h t → k = 9 → t.op h.txn = none → exec cmd s =
      .next (t.recordFailure (txnQueue h.txn).1 (txnQueue h.txn).2 c (t.txnItem h.txn)))

/-- A request held longer than the stall limit is refused with status 0x06. A chunk whose back-off has passed is sent again. An operation
whose chunk has had no response within the limit fails it with code 0x0F. A translation of age 4 leaves the cache. A deduplication entry
that has answered and is older than its life leaves its table, which is dropped once empty; every other table is kept. -/
def Obligations.TransportTimersExpire : Prop :=
  ∀ (s : State),
    (∀ req r n v, s.runs = true → s.req req = some r → r.stage = .held n v → s.passedFrom v (s.par 0x0800) = true →
      exec (.stallLimitExpiry req) s = .next (s.failReq r 6 none)) ∧
    (∀ txn chunk o x due, s.runs = true → s.op txn = some o → o.prep = none → (chunk, x, some due) ∈ o.resends →
      due ≤ s.clock.symbols → exec (.resendBackoffExpiry txn chunk) s = .next (s.resendChunk o chunk)) ∧
    (∀ txn o e, s.runs = true → s.op txn = some o → (o.kind = .read ∨ o.kind = .relay) →
      (o.out.find? fun e => match e.2 with
        | some a => s.passedFrom a (s.responseLimit o.chan)
        | none => false) = some e →
      exec (.responseLimitExpiry txn) s = .next (s.failChunk o 0x0F e.1).advance) ∧
    (∀ (entry : Fin 4096) x, (entry.val, x) ∈ s.transport.cache → x.age = 4 →
      exec (.translationAgedOut entry) s = .next (s.modCache fun t => Tab.erase t entry.val)) ∧
    (∀ (table : Fin 1024) (nonce : BitVec 64) d, s.runs = true → d ∈ Tab.get [] s.transport.dedup table.val →
      d.nonce = nonce → d.prior.isSome = true → s.passedFrom d.since (s.par 0x0708) = true →
      ∃ t, exec (.dedupEntryExpired table nonce) s = .next t ∧
        t = { s with transport := { s.transport with dedup := t.transport.dedup } } ∧
        d ∉ Tab.get [] t.transport.dedup table.val ∧
        ∀ k, k ≠ table.val → Tab.get [] t.transport.dedup k = Tab.get [] s.transport.dedup k)

/-! ### Calibration, background tasks and timers of the device -/

/-- CAL_N high for its time arms it, and falling armed, with no calibration that it commanded waiting or running, commands one. A measure
phase that lasts to the wait limit goes on without its unmeasured elements. MEASURE_PHASE_END, in a clearing of the calibrator's, with nothing unmeasured of what the channels' states allowed, or past the limit,
adopts the set within 4 °C of its point, and fails with outcome 2 otherwise. Each status poll while the flash is
busy changes nothing, and once it is ready goes on to the next step. A flash that stays busy fails the store with cause 1 or 2; the copy read
back is stored where it is good and has its sequence number, and fails with cause 3 otherwise. -/
def Obligations.CalibrationActs : Prop :=
  ∀ (s : State),
    (∀ t, s.runs = true → s.calib.highSince = some t → s.pins.calN = true → s.passedFrom t 814 = true →
      exec .calNArmed s = .next (s.modCalib fun k => { k with armed := true, highSince := none })) ∧
    (s.pins.calN = false → s.watchesCal = true → exec .calNRising s = .next
      ({ s with pins := { s.pins with calN := true } }.modCalib fun k => { k with highSince := some s.clock.symbols })) ∧
    (∀ t, t = ({ s with pins := { s.pins with calN := false } }.modCalib fun k =>
        { k with armed := false, highSince := none }) → s.pins.calN = true → s.watchesCal = true →
      exec .calNFalling s = .next (if s.calib.armed = true ∧ s.pinTask = false then t.commandByPin else t)) ∧
    (∀ t x, s.runs = true → s.calibrating = some t → t.started = some x → s.calib.adopted = none →
      s.passedSf x (s.par 0x0B01) = true →
      exec .calibrationWaitLimit s = .next (s.setTask t { t with waited := true })) ∧
    (∀ t x point store channels ports (m0 m : CalMeasured) payload, s.runs = true → s.mayRun 84 1 = true →
      m = s.allowedOf m0 → s.calibrating = some t →
      t.kind = .calibration point store channels ports → t.started = some x → s.calib.adopted = none →
      (channels &&& ~~~m.noSpare = 0 ∨ t.waited = true) →
      payload = mixPayload point (if t.origin.item.isSome then 1 else 2) channels (s.laneMask ports)
        ((s.calib.sets.find? fun e => e.1 == point).map (·.2)) m → s.payloadOk point payload = true →
      exec (.measurePhaseEnd m0) s = .next (if s.nearPoint point then
          s.adopt t point payload (channels &&& ~~~m.noSpare) (s.since x)
        else s.failCalibration t 2 s.calib.t (s.since x) (channels &&& ~~~m.noSpare).toNat)) ∧
    (∀ x, s.runs = true → s.calib.store = some x →
      (x.step ≠ .readback → x.step ≠ .lastRead → ∀ area,
        exec (.flashStatusPoll true area) s = .next (s.say (.flash x.dev 0x05 0 [])) ∧
        exec (.flashStatusPoll false area) s = .next ((s.say (.flash x.dev 0x05 0 [])).storeAdvance x)) ∧
      (x.step = .lastRead → ∀ busy area,
        exec (.flashStatusPoll busy area) s = .next ((s.select x.dev false).placeEntry x area)) ∧
      ((∃ k, x.step = .erase k) ∨ (∃ k a, x.step = .lastErase k a) →
        exec .flashBusyLimit s = .next (s.storeFailed x 1)) ∧
      ((∃ k, x.step = .program k) ∨ x.step = .lastProgram → exec .flashBusyLimit s = .next (s.storeFailed x 2)) ∧
      (x.step = .readback → (s.armedFor 6 0).isSome = false → ∀ copy,
        exec (.storeReadbackDone copy) s = .next
          (if s.copyOk x.point copy = true ∧ field copy 8 4 = x.seq then (s.select x.dev false).copyStored x
           else (s.select x.dev false).storeFailed x 3)))

/-- QUALITY_PERIOD_BOUNDARY at the channel's period, in a clearing of the telemetry writer's, writes its quality record.
BACKGROUND_TASK_START at a boundary starts the task that waits of its class, writes the wake records that are held, or begins a scrub
pass where none is in progress. SOUNDING_END and NOISE_FLOOR_MEASUREMENT_END, in a clearing of the diagnostics engine's, end a
measurement that has run its time or is broken, with their result. GRACE_TIMER_EXPIRY at or after its symbol escalates the instance.
INJECTION_LIMIT_EXPIRY after 65,536 superframes disarms the checker and completes its item with result 5. -/
def Obligations.BackgroundTasksAct : Prop :=
  ∀ (s : State),
    (∀ c m, s.runs = true → s.mayRun 87 4 = true → s.period c ≠ 0 → s.clock.sf.toNat % s.period c = 0 → 0 < (s.chan c).quality.counted →
      exec (.qualityPeriodBoundary c m) s = .next ((s.modChan c fun x =>
        { x with quality := { x.quality with last := x.measured m } }).writeQuality c false)) ∧
    (s.atBoundary = true → s.startsTasks = true →
      (∀ t, s.nextTask true = some t → exec (.backgroundTaskStart .calibration) s = .next (s.startTask t)) ∧
      (∀ t, s.nextTask false = some t → exec (.backgroundTaskStart .diagnostics) s = .next (s.startTask t)) ∧
      exec (.backgroundTaskStart .telemetry) s = .next ((s.wakeRecords .a).wakeRecords .b) ∧
      (s.sched.scrub = none → exec (.backgroundTaskStart .scrub) s =
        .next { s with sched := { s.sched with scrub := some 0 } }) ∧
      (s.sched.scrub.isSome = true → exec (.backgroundTaskStart .scrub) s = .next s)) ∧
    (∀ m t c mode, s.sounding [1, 2] = some (t, c, mode) → s.runs = true → s.mayRun 85 2 = true →
      (t.broken ≠ 0 ∨ ∃ x, t.started = some x ∧ s.passedSf x (measureTime mode) = true) → exec (.soundingEnd m) s =
      .next (s.soundingEnds t c mode (if t.broken ≠ 0 then t.broken else
        if measuredChange m (s.elem 0x0C00 c) (s.elem 0x0C01 c) then 1 else 0) m)) ∧
    (∀ n noise changed t c mode, s.sounding [3] = some (t, c, mode) → s.runs = true → s.mayRun 85 2 = true →
      (t.broken ≠ 0 ∨ ∃ x, t.started = some x ∧ s.passedSf x (measureTime mode) = true) →
      exec (.noiseFloorMeasurementEnd n noise changed) s =
        .next (s.noiseEnds t c (if t.broken ≠ 0 then t.broken else if changed then 1 else 0) n noise)) ∧
    (∀ i r t, s.runs = true → s.reaction i = some r → r.expires = some t → t ≤ s.clock.symbols →
      exec (.graceTimerExpiry i) s = .next (s.escalate r)) ∧
    (∀ (k : Fin 8) f p q item t, s.runs = true →
      (s.faults.armed.find? fun a => a.1 == k.val) = some (k.val, f, p, q, item, t) → s.passedSf t 65536 = true →
      exec (.injectionLimitExpiry k) s = .next ({ s with faults := { s.faults with
        armed := s.faults.armed.filter fun a => !(a.1 == k.val) } }.result p q item 5 0 0))

/-! ### Completion and fault counting -/

/-- When an item that has not completed completes, on a port with an anchor, the queue writes exactly the finished items at the head of its
list: the items that remain are those from the first unfinished one on, so an item finished before an earlier one is held; the producer
index of the queue's completion ring goes on by the number written, and the last item done is the last of them. No other queue changes.
An item that has completed, or is no longer held, completes no more: the state is left as it was. -/
def Obligations.CompletionsInOrder : Prop :=
  ∀ (s : State) (p : Port) (q : Fin 512) (index : BitVec 32) (code : Byte) (detail : BitVec 32) (c : Option ChanId),
    (∀ i a l t n, s.findItem p q index = some i → i.isDone = false → (s.rings p).anchor = some a →
      n = descRing (a.desc q) →
      l = updateIf (fun x => x.index == index) (fun x => { x with phase := .done code detail }) (s.queue p q).items →
      t = s.complete p q index code detail c →
      (t.queue p q).items = l.dropWhile Item.isDone ∧
      ((t.rings p).completionRing n).producer =
        ((s.rings p).completionRing n).producer + BitVec.ofNat 32 (l.takeWhile Item.isDone).length ∧
      (∀ x, (l.takeWhile Item.isDone).getLast? = some x → (t.queue p q).lastDone = some x.index) ∧
      (∀ p' q', (p', q') ≠ (p, q) → t.queue p' q' = s.queue p' q')) ∧
    ((∀ i, s.findItem p q index = some i → i.isDone = true) → s.complete p q index code detail c = s)

/-- An occurrence at any source but the two of record loss adds one to the source's total, up to 2^32 - 1. At a severe source nothing else
of its window changes. At another the window opens anew if it was empty or has lasted W superframes, and its count goes on by one; at N
the source becomes severe, its sticky bit is set and ERR_N is asserted, and below N they are left. Every source but this one and the two of record loss is left
as it was, and nothing outside the fault side, ERR_N and the ports' buffered records changes. -/
def Obligations.OccurrencesAreCounted : Prop :=
  ∀ (s t : State) (k n w : Nat) (i : Option Scope) (addr : Bytes) (x y : Source) (opens : Bool),
    k ≠ 0x394 → k ≠ 0x395 → n = s.threshold ((sourceKind k).getD 0) → w = s.window ((sourceKind k).getD 0) →
    t = s.occur k i addr → x = s.source k → y = t.source k →
    opens = (decide (x.count = 0) || decide (w ≤ (s.clock.sf - x.start).toNat)) →
    Reported s t ∧ (∀ j, j ≠ k → j ≠ 0x394 → j ≠ 0x395 → t.source j = s.source j) ∧
    y.total = min (x.total + 1) (2 ^ 32 - 1) ∧
    (x.severe = true → y.severe = true ∧ y.sticky = x.sticky ∧ y.count = x.count ∧ y.start = x.start ∧
      y.inst = x.inst) ∧
    (x.severe = false → y.start = (if opens then s.clock.sf else x.start) ∧
      y.count = (if opens then 1 else x.count + 1) ∧ y.severe = decide (n ≤ y.count) ∧
      (n ≤ y.count → y.sticky = true ∧ t.pins.errLow = true) ∧
      (y.count < n → y.sticky = x.sticky ∧ y.inst = x.inst))
end

