-- ==== Sys2Proof/Laws/Tab.lean ====
section
/-! SUPPORT. Laws of the keyed tables and of the small list operations. -/

namespace Sys2Proof.Machine

theorem keysRise_weaken {α : Type} {lo lo' bound : Nat} (t : Tab α) (h : lo' ≤ lo) (r : keysRise lo bound t = true) :
    keysRise lo' bound t = true := by
  cases t with
  | nil => rfl
  | cons e t =>
    obtain ⟨k, v⟩ := e
    simp only [keysRise, Bool.and_eq_true, decide_eq_true_eq] at r ⊢
    exact ⟨⟨by omega, r.1.2⟩, r.2⟩

/-- Setting a key in range keeps the canonical form. -/
theorem keysRise_set {α : Type} {lo bound : Nat} (t : Tab α) (k : Nat) (v : α) (r : keysRise lo bound t = true)
    (h1 : lo ≤ k) (h2 : k < bound) : keysRise lo bound (Tab.set t k v) = true := by
  induction t generalizing lo with
  | nil => simp [Tab.set, keysRise, h1, h2]
  | cons e t ih =>
    obtain ⟨j, w⟩ := e
    simp only [keysRise, Bool.and_eq_true, decide_eq_true_eq] at r
    unfold Tab.set
    split
    · subst j
      simp only [keysRise, Bool.and_eq_true, decide_eq_true_eq]
      exact ⟨⟨h1, h2⟩, r.2⟩
    · split
      · simp only [keysRise, Bool.and_eq_true, decide_eq_true_eq]
        exact ⟨⟨h1, h2⟩, ⟨by omega, r.1.2⟩, r.2⟩
      · simp only [keysRise, Bool.and_eq_true, decide_eq_true_eq]
        exact ⟨⟨r.1.1, r.1.2⟩, ih r.2 (by omega)⟩

/-- Reading back the key that was set. -/
@[simp] theorem tab_get_set {α : Type} (d : α) (t : Tab α) (k : Nat) (v : α) : Tab.get d (Tab.set t k v) k = v := by
  induction t with
  | nil => simp [Tab.set, Tab.get]
  | cons e t ih =>
    obtain ⟨j, w⟩ := e
    unfold Tab.set
    split
    · simp [Tab.get]
    · split
      · simp [Tab.get]
      · simp [Tab.get, *]

/-- Setting one key leaves every other key's entry. -/
theorem tab_get_set_ne {α : Type} (d : α) (t : Tab α) (k j : Nat) (v : α) (h : j ≠ k) :
    Tab.get d (Tab.set t k v) j = Tab.get d t j := by
  induction t with
  | nil => simp [Tab.set, Tab.get, Ne.symm h]
  | cons e t ih =>
    obtain ⟨i, w⟩ := e
    unfold Tab.set
    split
    · next e1 => simp [Tab.get, e1, Ne.symm h]
    · split
      · simp [Tab.get, Ne.symm h]
      · simp [Tab.get, ih]

end Sys2Proof.Machine
end

