-- ==== Sys2Proof/Laws/State.lean ====
section
/-! SUPPORT. What each update of the state leaves and gives: one lemma per field and update. -/

namespace Sys2Proof.Machine

@[simp] theorem setChan_pending (s : State) (c : ChanId) (x : Chan) : (s.setChan c x).pending = s.pending := rfl
@[simp] theorem setChan_pins (s : State) (c : ChanId) (x : Chan) : (s.setChan c x).pins = s.pins := rfl
@[simp] theorem setChan_start (s : State) (c : ChanId) (x : Chan) : (s.setChan c x).start = s.start := rfl
@[simp] theorem setChan_image (s : State) (c : ChanId) (x : Chan) : (s.setChan c x).image = s.image := rfl
@[simp] theorem setChan_clock (s : State) (c : ChanId) (x : Chan) : (s.setChan c x).clock = s.clock := rfl
@[simp] theorem setChan_linkA (s : State) (c : ChanId) (x : Chan) : (s.setChan c x).linkA = s.linkA := rfl
@[simp] theorem setChan_linkB (s : State) (c : ChanId) (x : Chan) : (s.setChan c x).linkB = s.linkB := rfl
@[simp] theorem setChan_ringsA (s : State) (c : ChanId) (x : Chan) : (s.setChan c x).ringsA = s.ringsA := rfl
@[simp] theorem setChan_ringsB (s : State) (c : ChanId) (x : Chan) : (s.setChan c x).ringsB = s.ringsB := rfl
@[simp] theorem setChan_queues (s : State) (c : ChanId) (x : Chan) : (s.setChan c x).queues = s.queues := rfl
@[simp] theorem setChan_transport (s : State) (c : ChanId) (x : Chan) : (s.setChan c x).transport = s.transport := rfl
@[simp] theorem setChan_faults (s : State) (c : ChanId) (x : Chan) : (s.setChan c x).faults = s.faults := rfl
@[simp] theorem setChan_tasks (s : State) (c : ChanId) (x : Chan) : (s.setChan c x).tasks = s.tasks := rfl
@[simp] theorem setChan_calib (s : State) (c : ChanId) (x : Chan) : (s.setChan c x).calib = s.calib := rfl
@[simp] theorem setChan_telemA (s : State) (c : ChanId) (x : Chan) : (s.setChan c x).telemA = s.telemA := rfl
@[simp] theorem setChan_telemB (s : State) (c : ChanId) (x : Chan) : (s.setChan c x).telemB = s.telemB := rfl
@[simp] theorem setChan_sched (s : State) (c : ChanId) (x : Chan) : (s.setChan c x).sched = s.sched := rfl
@[simp] theorem setChan_entry (s : State) (c : ChanId) (x : Chan) : (s.setChan c x).entry = s.entry := rfl
@[simp] theorem setChan_exitHeld (s : State) (c : ChanId) (x : Chan) : (s.setChan c x).exitHeld = s.exitHeld := rfl
@[simp] theorem setChan_tap (s : State) (c : ChanId) (x : Chan) : (s.setChan c x).tap = s.tap := rfl
@[simp] theorem setChan_fresh (s : State) (c : ChanId) (x : Chan) : (s.setChan c x).fresh = s.fresh := rfl
@[simp] theorem setChan_out (s : State) (c : ChanId) (x : Chan) : (s.setChan c x).out = s.out := rfl

@[simp] theorem modChan_pending (s : State) (c : ChanId) (f : Chan → Chan) : (s.modChan c f).pending = s.pending := rfl
@[simp] theorem modChan_pins (s : State) (c : ChanId) (f : Chan → Chan) : (s.modChan c f).pins = s.pins := rfl
@[simp] theorem modChan_start (s : State) (c : ChanId) (f : Chan → Chan) : (s.modChan c f).start = s.start := rfl
@[simp] theorem modChan_image (s : State) (c : ChanId) (f : Chan → Chan) : (s.modChan c f).image = s.image := rfl
@[simp] theorem modChan_clock (s : State) (c : ChanId) (f : Chan → Chan) : (s.modChan c f).clock = s.clock := rfl
@[simp] theorem modChan_linkA (s : State) (c : ChanId) (f : Chan → Chan) : (s.modChan c f).linkA = s.linkA := rfl
@[simp] theorem modChan_linkB (s : State) (c : ChanId) (f : Chan → Chan) : (s.modChan c f).linkB = s.linkB := rfl
@[simp] theorem modChan_ringsA (s : State) (c : ChanId) (f : Chan → Chan) : (s.modChan c f).ringsA = s.ringsA := rfl
@[simp] theorem modChan_ringsB (s : State) (c : ChanId) (f : Chan → Chan) : (s.modChan c f).ringsB = s.ringsB := rfl
@[simp] theorem modChan_queues (s : State) (c : ChanId) (f : Chan → Chan) : (s.modChan c f).queues = s.queues := rfl
@[simp] theorem modChan_transport (s : State) (c : ChanId) (f : Chan → Chan) : (s.modChan c f).transport = s.transport := rfl
@[simp] theorem modChan_faults (s : State) (c : ChanId) (f : Chan → Chan) : (s.modChan c f).faults = s.faults := rfl
@[simp] theorem modChan_tasks (s : State) (c : ChanId) (f : Chan → Chan) : (s.modChan c f).tasks = s.tasks := rfl
@[simp] theorem modChan_calib (s : State) (c : ChanId) (f : Chan → Chan) : (s.modChan c f).calib = s.calib := rfl
@[simp] theorem modChan_telemA (s : State) (c : ChanId) (f : Chan → Chan) : (s.modChan c f).telemA = s.telemA := rfl
@[simp] theorem modChan_telemB (s : State) (c : ChanId) (f : Chan → Chan) : (s.modChan c f).telemB = s.telemB := rfl
@[simp] theorem modChan_sched (s : State) (c : ChanId) (f : Chan → Chan) : (s.modChan c f).sched = s.sched := rfl
@[simp] theorem modChan_entry (s : State) (c : ChanId) (f : Chan → Chan) : (s.modChan c f).entry = s.entry := rfl
@[simp] theorem modChan_exitHeld (s : State) (c : ChanId) (f : Chan → Chan) : (s.modChan c f).exitHeld = s.exitHeld := rfl
@[simp] theorem modChan_tap (s : State) (c : ChanId) (f : Chan → Chan) : (s.modChan c f).tap = s.tap := rfl
@[simp] theorem modChan_fresh (s : State) (c : ChanId) (f : Chan → Chan) : (s.modChan c f).fresh = s.fresh := rfl
@[simp] theorem modChan_out (s : State) (c : ChanId) (f : Chan → Chan) : (s.modChan c f).out = s.out := rfl

@[simp] theorem setQueue_pending (s : State) (p : Port) (q : Fin 512) (x : Queue) : (s.setQueue p q x).pending = s.pending := rfl
@[simp] theorem setQueue_pins (s : State) (p : Port) (q : Fin 512) (x : Queue) : (s.setQueue p q x).pins = s.pins := rfl
@[simp] theorem setQueue_start (s : State) (p : Port) (q : Fin 512) (x : Queue) : (s.setQueue p q x).start = s.start := rfl
@[simp] theorem setQueue_image (s : State) (p : Port) (q : Fin 512) (x : Queue) : (s.setQueue p q x).image = s.image := rfl
@[simp] theorem setQueue_clock (s : State) (p : Port) (q : Fin 512) (x : Queue) : (s.setQueue p q x).clock = s.clock := rfl
@[simp] theorem setQueue_linkA (s : State) (p : Port) (q : Fin 512) (x : Queue) : (s.setQueue p q x).linkA = s.linkA := rfl
@[simp] theorem setQueue_linkB (s : State) (p : Port) (q : Fin 512) (x : Queue) : (s.setQueue p q x).linkB = s.linkB := rfl
@[simp] theorem setQueue_ringsA (s : State) (p : Port) (q : Fin 512) (x : Queue) : (s.setQueue p q x).ringsA = s.ringsA := rfl
@[simp] theorem setQueue_ringsB (s : State) (p : Port) (q : Fin 512) (x : Queue) : (s.setQueue p q x).ringsB = s.ringsB := rfl
@[simp] theorem setQueue_chans (s : State) (p : Port) (q : Fin 512) (x : Queue) : (s.setQueue p q x).chans = s.chans := rfl
@[simp] theorem setQueue_transport (s : State) (p : Port) (q : Fin 512) (x : Queue) : (s.setQueue p q x).transport = s.transport := rfl
@[simp] theorem setQueue_faults (s : State) (p : Port) (q : Fin 512) (x : Queue) : (s.setQueue p q x).faults = s.faults := rfl
@[simp] theorem setQueue_tasks (s : State) (p : Port) (q : Fin 512) (x : Queue) : (s.setQueue p q x).tasks = s.tasks := rfl
@[simp] theorem setQueue_calib (s : State) (p : Port) (q : Fin 512) (x : Queue) : (s.setQueue p q x).calib = s.calib := rfl
@[simp] theorem setQueue_telemA (s : State) (p : Port) (q : Fin 512) (x : Queue) : (s.setQueue p q x).telemA = s.telemA := rfl
@[simp] theorem setQueue_telemB (s : State) (p : Port) (q : Fin 512) (x : Queue) : (s.setQueue p q x).telemB = s.telemB := rfl
@[simp] theorem setQueue_sched (s : State) (p : Port) (q : Fin 512) (x : Queue) : (s.setQueue p q x).sched = s.sched := rfl
@[simp] theorem setQueue_entry (s : State) (p : Port) (q : Fin 512) (x : Queue) : (s.setQueue p q x).entry = s.entry := rfl
@[simp] theorem setQueue_exitHeld (s : State) (p : Port) (q : Fin 512) (x : Queue) : (s.setQueue p q x).exitHeld = s.exitHeld := rfl
@[simp] theorem setQueue_tap (s : State) (p : Port) (q : Fin 512) (x : Queue) : (s.setQueue p q x).tap = s.tap := rfl
@[simp] theorem setQueue_fresh (s : State) (p : Port) (q : Fin 512) (x : Queue) : (s.setQueue p q x).fresh = s.fresh := rfl
@[simp] theorem setQueue_out (s : State) (p : Port) (q : Fin 512) (x : Queue) : (s.setQueue p q x).out = s.out := rfl

@[simp] theorem modQueue_pending (s : State) (p : Port) (q : Fin 512) (f : Queue → Queue) : (s.modQueue p q f).pending = s.pending := rfl
@[simp] theorem modQueue_pins (s : State) (p : Port) (q : Fin 512) (f : Queue → Queue) : (s.modQueue p q f).pins = s.pins := rfl
@[simp] theorem modQueue_start (s : State) (p : Port) (q : Fin 512) (f : Queue → Queue) : (s.modQueue p q f).start = s.start := rfl
@[simp] theorem modQueue_image (s : State) (p : Port) (q : Fin 512) (f : Queue → Queue) : (s.modQueue p q f).image = s.image := rfl
@[simp] theorem modQueue_clock (s : State) (p : Port) (q : Fin 512) (f : Queue → Queue) : (s.modQueue p q f).clock = s.clock := rfl
@[simp] theorem modQueue_linkA (s : State) (p : Port) (q : Fin 512) (f : Queue → Queue) : (s.modQueue p q f).linkA = s.linkA := rfl
@[simp] theorem modQueue_linkB (s : State) (p : Port) (q : Fin 512) (f : Queue → Queue) : (s.modQueue p q f).linkB = s.linkB := rfl
@[simp] theorem modQueue_ringsA (s : State) (p : Port) (q : Fin 512) (f : Queue → Queue) : (s.modQueue p q f).ringsA = s.ringsA := rfl
@[simp] theorem modQueue_ringsB (s : State) (p : Port) (q : Fin 512) (f : Queue → Queue) : (s.modQueue p q f).ringsB = s.ringsB := rfl
@[simp] theorem modQueue_chans (s : State) (p : Port) (q : Fin 512) (f : Queue → Queue) : (s.modQueue p q f).chans = s.chans := rfl
@[simp] theorem modQueue_transport (s : State) (p : Port) (q : Fin 512) (f : Queue → Queue) : (s.modQueue p q f).transport = s.transport := rfl
@[simp] theorem modQueue_faults (s : State) (p : Port) (q : Fin 512) (f : Queue → Queue) : (s.modQueue p q f).faults = s.faults := rfl
@[simp] theorem modQueue_tasks (s : State) (p : Port) (q : Fin 512) (f : Queue → Queue) : (s.modQueue p q f).tasks = s.tasks := rfl
@[simp] theorem modQueue_calib (s : State) (p : Port) (q : Fin 512) (f : Queue → Queue) : (s.modQueue p q f).calib = s.calib := rfl
@[simp] theorem modQueue_telemA (s : State) (p : Port) (q : Fin 512) (f : Queue → Queue) : (s.modQueue p q f).telemA = s.telemA := rfl
@[simp] theorem modQueue_telemB (s : State) (p : Port) (q : Fin 512) (f : Queue → Queue) : (s.modQueue p q f).telemB = s.telemB := rfl
@[simp] theorem modQueue_sched (s : State) (p : Port) (q : Fin 512) (f : Queue → Queue) : (s.modQueue p q f).sched = s.sched := rfl
@[simp] theorem modQueue_entry (s : State) (p : Port) (q : Fin 512) (f : Queue → Queue) : (s.modQueue p q f).entry = s.entry := rfl
@[simp] theorem modQueue_exitHeld (s : State) (p : Port) (q : Fin 512) (f : Queue → Queue) : (s.modQueue p q f).exitHeld = s.exitHeld := rfl
@[simp] theorem modQueue_tap (s : State) (p : Port) (q : Fin 512) (f : Queue → Queue) : (s.modQueue p q f).tap = s.tap := rfl
@[simp] theorem modQueue_fresh (s : State) (p : Port) (q : Fin 512) (f : Queue → Queue) : (s.modQueue p q f).fresh = s.fresh := rfl
@[simp] theorem modQueue_out (s : State) (p : Port) (q : Fin 512) (f : Queue → Queue) : (s.modQueue p q f).out = s.out := rfl

@[simp] theorem setLink_pending (s : State) (p : Port) (l : HostLink) : (s.setLink p l).pending = s.pending := by cases p <;> rfl
@[simp] theorem setLink_pins (s : State) (p : Port) (l : HostLink) : (s.setLink p l).pins = s.pins := by cases p <;> rfl
@[simp] theorem setLink_start (s : State) (p : Port) (l : HostLink) : (s.setLink p l).start = s.start := by cases p <;> rfl
@[simp] theorem setLink_image (s : State) (p : Port) (l : HostLink) : (s.setLink p l).image = s.image := by cases p <;> rfl
@[simp] theorem setLink_clock (s : State) (p : Port) (l : HostLink) : (s.setLink p l).clock = s.clock := by cases p <;> rfl
@[simp] theorem setLink_ringsA (s : State) (p : Port) (l : HostLink) : (s.setLink p l).ringsA = s.ringsA := by cases p <;> rfl
@[simp] theorem setLink_ringsB (s : State) (p : Port) (l : HostLink) : (s.setLink p l).ringsB = s.ringsB := by cases p <;> rfl
@[simp] theorem setLink_queues (s : State) (p : Port) (l : HostLink) : (s.setLink p l).queues = s.queues := by cases p <;> rfl
@[simp] theorem setLink_chans (s : State) (p : Port) (l : HostLink) : (s.setLink p l).chans = s.chans := by cases p <;> rfl
@[simp] theorem setLink_transport (s : State) (p : Port) (l : HostLink) : (s.setLink p l).transport = s.transport := by cases p <;> rfl
@[simp] theorem setLink_faults (s : State) (p : Port) (l : HostLink) : (s.setLink p l).faults = s.faults := by cases p <;> rfl
@[simp] theorem setLink_tasks (s : State) (p : Port) (l : HostLink) : (s.setLink p l).tasks = s.tasks := by cases p <;> rfl
@[simp] theorem setLink_calib (s : State) (p : Port) (l : HostLink) : (s.setLink p l).calib = s.calib := by cases p <;> rfl
@[simp] theorem setLink_telemA (s : State) (p : Port) (l : HostLink) : (s.setLink p l).telemA = s.telemA := by cases p <;> rfl
@[simp] theorem setLink_telemB (s : State) (p : Port) (l : HostLink) : (s.setLink p l).telemB = s.telemB := by cases p <;> rfl
@[simp] theorem setLink_sched (s : State) (p : Port) (l : HostLink) : (s.setLink p l).sched = s.sched := by cases p <;> rfl
@[simp] theorem setLink_entry (s : State) (p : Port) (l : HostLink) : (s.setLink p l).entry = s.entry := by cases p <;> rfl
@[simp] theorem setLink_exitHeld (s : State) (p : Port) (l : HostLink) : (s.setLink p l).exitHeld = s.exitHeld := by cases p <;> rfl
@[simp] theorem setLink_tap (s : State) (p : Port) (l : HostLink) : (s.setLink p l).tap = s.tap := by cases p <;> rfl
@[simp] theorem setLink_fresh (s : State) (p : Port) (l : HostLink) : (s.setLink p l).fresh = s.fresh := by cases p <;> rfl
@[simp] theorem setLink_out (s : State) (p : Port) (l : HostLink) : (s.setLink p l).out = s.out := by cases p <;> rfl

@[simp] theorem modLink_pending (s : State) (p : Port) (f : HostLink → HostLink) : (s.modLink p f).pending = s.pending := by cases p <;> rfl
@[simp] theorem modLink_pins (s : State) (p : Port) (f : HostLink → HostLink) : (s.modLink p f).pins = s.pins := by cases p <;> rfl
@[simp] theorem modLink_start (s : State) (p : Port) (f : HostLink → HostLink) : (s.modLink p f).start = s.start := by cases p <;> rfl
@[simp] theorem modLink_image (s : State) (p : Port) (f : HostLink → HostLink) : (s.modLink p f).image = s.image := by cases p <;> rfl
@[simp] theorem modLink_clock (s : State) (p : Port) (f : HostLink → HostLink) : (s.modLink p f).clock = s.clock := by cases p <;> rfl
@[simp] theorem modLink_ringsA (s : State) (p : Port) (f : HostLink → HostLink) : (s.modLink p f).ringsA = s.ringsA := by cases p <;> rfl
@[simp] theorem modLink_ringsB (s : State) (p : Port) (f : HostLink → HostLink) : (s.modLink p f).ringsB = s.ringsB := by cases p <;> rfl
@[simp] theorem modLink_queues (s : State) (p : Port) (f : HostLink → HostLink) : (s.modLink p f).queues = s.queues := by cases p <;> rfl
@[simp] theorem modLink_chans (s : State) (p : Port) (f : HostLink → HostLink) : (s.modLink p f).chans = s.chans := by cases p <;> rfl
@[simp] theorem modLink_transport (s : State) (p : Port) (f : HostLink → HostLink) : (s.modLink p f).transport = s.transport := by cases p <;> rfl
@[simp] theorem modLink_faults (s : State) (p : Port) (f : HostLink → HostLink) : (s.modLink p f).faults = s.faults := by cases p <;> rfl
@[simp] theorem modLink_tasks (s : State) (p : Port) (f : HostLink → HostLink) : (s.modLink p f).tasks = s.tasks := by cases p <;> rfl
@[simp] theorem modLink_calib (s : State) (p : Port) (f : HostLink → HostLink) : (s.modLink p f).calib = s.calib := by cases p <;> rfl
@[simp] theorem modLink_telemA (s : State) (p : Port) (f : HostLink → HostLink) : (s.modLink p f).telemA = s.telemA := by cases p <;> rfl
@[simp] theorem modLink_telemB (s : State) (p : Port) (f : HostLink → HostLink) : (s.modLink p f).telemB = s.telemB := by cases p <;> rfl
@[simp] theorem modLink_sched (s : State) (p : Port) (f : HostLink → HostLink) : (s.modLink p f).sched = s.sched := by cases p <;> rfl
@[simp] theorem modLink_entry (s : State) (p : Port) (f : HostLink → HostLink) : (s.modLink p f).entry = s.entry := by cases p <;> rfl
@[simp] theorem modLink_exitHeld (s : State) (p : Port) (f : HostLink → HostLink) : (s.modLink p f).exitHeld = s.exitHeld := by cases p <;> rfl
@[simp] theorem modLink_tap (s : State) (p : Port) (f : HostLink → HostLink) : (s.modLink p f).tap = s.tap := by cases p <;> rfl
@[simp] theorem modLink_fresh (s : State) (p : Port) (f : HostLink → HostLink) : (s.modLink p f).fresh = s.fresh := by cases p <;> rfl
@[simp] theorem modLink_out (s : State) (p : Port) (f : HostLink → HostLink) : (s.modLink p f).out = s.out := by cases p <;> rfl

@[simp] theorem setRings_pending (s : State) (p : Port) (r : PortRings) : (s.setRings p r).pending = s.pending := by cases p <;> rfl
@[simp] theorem setRings_pins (s : State) (p : Port) (r : PortRings) : (s.setRings p r).pins = s.pins := by cases p <;> rfl
@[simp] theorem setRings_start (s : State) (p : Port) (r : PortRings) : (s.setRings p r).start = s.start := by cases p <;> rfl
@[simp] theorem setRings_image (s : State) (p : Port) (r : PortRings) : (s.setRings p r).image = s.image := by cases p <;> rfl
@[simp] theorem setRings_clock (s : State) (p : Port) (r : PortRings) : (s.setRings p r).clock = s.clock := by cases p <;> rfl
@[simp] theorem setRings_linkA (s : State) (p : Port) (r : PortRings) : (s.setRings p r).linkA = s.linkA := by cases p <;> rfl
@[simp] theorem setRings_linkB (s : State) (p : Port) (r : PortRings) : (s.setRings p r).linkB = s.linkB := by cases p <;> rfl
@[simp] theorem setRings_queues (s : State) (p : Port) (r : PortRings) : (s.setRings p r).queues = s.queues := by cases p <;> rfl
@[simp] theorem setRings_chans (s : State) (p : Port) (r : PortRings) : (s.setRings p r).chans = s.chans := by cases p <;> rfl
@[simp] theorem setRings_transport (s : State) (p : Port) (r : PortRings) : (s.setRings p r).transport = s.transport := by cases p <;> rfl
@[simp] theorem setRings_faults (s : State) (p : Port) (r : PortRings) : (s.setRings p r).faults = s.faults := by cases p <;> rfl
@[simp] theorem setRings_tasks (s : State) (p : Port) (r : PortRings) : (s.setRings p r).tasks = s.tasks := by cases p <;> rfl
@[simp] theorem setRings_calib (s : State) (p : Port) (r : PortRings) : (s.setRings p r).calib = s.calib := by cases p <;> rfl
@[simp] theorem setRings_telemA (s : State) (p : Port) (r : PortRings) : (s.setRings p r).telemA = s.telemA := by cases p <;> rfl
@[simp] theorem setRings_telemB (s : State) (p : Port) (r : PortRings) : (s.setRings p r).telemB = s.telemB := by cases p <;> rfl
@[simp] theorem setRings_sched (s : State) (p : Port) (r : PortRings) : (s.setRings p r).sched = s.sched := by cases p <;> rfl
@[simp] theorem setRings_entry (s : State) (p : Port) (r : PortRings) : (s.setRings p r).entry = s.entry := by cases p <;> rfl
@[simp] theorem setRings_exitHeld (s : State) (p : Port) (r : PortRings) : (s.setRings p r).exitHeld = s.exitHeld := by cases p <;> rfl
@[simp] theorem setRings_tap (s : State) (p : Port) (r : PortRings) : (s.setRings p r).tap = s.tap := by cases p <;> rfl
@[simp] theorem setRings_fresh (s : State) (p : Port) (r : PortRings) : (s.setRings p r).fresh = s.fresh := by cases p <;> rfl
@[simp] theorem setRings_out (s : State) (p : Port) (r : PortRings) : (s.setRings p r).out = s.out := by cases p <;> rfl

@[simp] theorem modRings_pending (s : State) (p : Port) (f : PortRings → PortRings) : (s.modRings p f).pending = s.pending := by cases p <;> rfl
@[simp] theorem modRings_pins (s : State) (p : Port) (f : PortRings → PortRings) : (s.modRings p f).pins = s.pins := by cases p <;> rfl
@[simp] theorem modRings_start (s : State) (p : Port) (f : PortRings → PortRings) : (s.modRings p f).start = s.start := by cases p <;> rfl
@[simp] theorem modRings_image (s : State) (p : Port) (f : PortRings → PortRings) : (s.modRings p f).image = s.image := by cases p <;> rfl
@[simp] theorem modRings_clock (s : State) (p : Port) (f : PortRings → PortRings) : (s.modRings p f).clock = s.clock := by cases p <;> rfl
@[simp] theorem modRings_linkA (s : State) (p : Port) (f : PortRings → PortRings) : (s.modRings p f).linkA = s.linkA := by cases p <;> rfl
@[simp] theorem modRings_linkB (s : State) (p : Port) (f : PortRings → PortRings) : (s.modRings p f).linkB = s.linkB := by cases p <;> rfl
@[simp] theorem modRings_queues (s : State) (p : Port) (f : PortRings → PortRings) : (s.modRings p f).queues = s.queues := by cases p <;> rfl
@[simp] theorem modRings_chans (s : State) (p : Port) (f : PortRings → PortRings) : (s.modRings p f).chans = s.chans := by cases p <;> rfl
@[simp] theorem modRings_transport (s : State) (p : Port) (f : PortRings → PortRings) : (s.modRings p f).transport = s.transport := by cases p <;> rfl
@[simp] theorem modRings_faults (s : State) (p : Port) (f : PortRings → PortRings) : (s.modRings p f).faults = s.faults := by cases p <;> rfl
@[simp] theorem modRings_tasks (s : State) (p : Port) (f : PortRings → PortRings) : (s.modRings p f).tasks = s.tasks := by cases p <;> rfl
@[simp] theorem modRings_calib (s : State) (p : Port) (f : PortRings → PortRings) : (s.modRings p f).calib = s.calib := by cases p <;> rfl
@[simp] theorem modRings_telemA (s : State) (p : Port) (f : PortRings → PortRings) : (s.modRings p f).telemA = s.telemA := by cases p <;> rfl
@[simp] theorem modRings_telemB (s : State) (p : Port) (f : PortRings → PortRings) : (s.modRings p f).telemB = s.telemB := by cases p <;> rfl
@[simp] theorem modRings_sched (s : State) (p : Port) (f : PortRings → PortRings) : (s.modRings p f).sched = s.sched := by cases p <;> rfl
@[simp] theorem modRings_entry (s : State) (p : Port) (f : PortRings → PortRings) : (s.modRings p f).entry = s.entry := by cases p <;> rfl
@[simp] theorem modRings_exitHeld (s : State) (p : Port) (f : PortRings → PortRings) : (s.modRings p f).exitHeld = s.exitHeld := by cases p <;> rfl
@[simp] theorem modRings_tap (s : State) (p : Port) (f : PortRings → PortRings) : (s.modRings p f).tap = s.tap := by cases p <;> rfl
@[simp] theorem modRings_fresh (s : State) (p : Port) (f : PortRings → PortRings) : (s.modRings p f).fresh = s.fresh := by cases p <;> rfl
@[simp] theorem modRings_out (s : State) (p : Port) (f : PortRings → PortRings) : (s.modRings p f).out = s.out := by cases p <;> rfl

@[simp] theorem say_pending (s : State) (o : Out) : (s.say o).pending = s.pending := rfl
@[simp] theorem say_pins (s : State) (o : Out) : (s.say o).pins = s.pins := rfl
@[simp] theorem say_start (s : State) (o : Out) : (s.say o).start = s.start := rfl
@[simp] theorem say_image (s : State) (o : Out) : (s.say o).image = s.image := rfl
@[simp] theorem say_clock (s : State) (o : Out) : (s.say o).clock = s.clock := rfl
@[simp] theorem say_linkA (s : State) (o : Out) : (s.say o).linkA = s.linkA := rfl
@[simp] theorem say_linkB (s : State) (o : Out) : (s.say o).linkB = s.linkB := rfl
@[simp] theorem say_ringsA (s : State) (o : Out) : (s.say o).ringsA = s.ringsA := rfl
@[simp] theorem say_ringsB (s : State) (o : Out) : (s.say o).ringsB = s.ringsB := rfl
@[simp] theorem say_queues (s : State) (o : Out) : (s.say o).queues = s.queues := rfl
@[simp] theorem say_chans (s : State) (o : Out) : (s.say o).chans = s.chans := rfl
@[simp] theorem say_transport (s : State) (o : Out) : (s.say o).transport = s.transport := rfl
@[simp] theorem say_faults (s : State) (o : Out) : (s.say o).faults = s.faults := rfl
@[simp] theorem say_tasks (s : State) (o : Out) : (s.say o).tasks = s.tasks := rfl
@[simp] theorem say_calib (s : State) (o : Out) : (s.say o).calib = s.calib := rfl
@[simp] theorem say_telemA (s : State) (o : Out) : (s.say o).telemA = s.telemA := rfl
@[simp] theorem say_telemB (s : State) (o : Out) : (s.say o).telemB = s.telemB := rfl
@[simp] theorem say_sched (s : State) (o : Out) : (s.say o).sched = s.sched := rfl
@[simp] theorem say_entry (s : State) (o : Out) : (s.say o).entry = s.entry := rfl
@[simp] theorem say_exitHeld (s : State) (o : Out) : (s.say o).exitHeld = s.exitHeld := rfl
@[simp] theorem say_tap (s : State) (o : Out) : (s.say o).tap = s.tap := rfl
@[simp] theorem say_fresh (s : State) (o : Out) : (s.say o).fresh = s.fresh := rfl

@[simp] theorem setChan_chan (s : State) (c : ChanId) (x : Chan) : (s.setChan c x).chan c = x := by
  simp [State.setChan, State.chan]

theorem setChan_chan_ne (s : State) (c d : ChanId) (x : Chan) (h : d ≠ c) : (s.setChan c x).chan d = s.chan d := by
  have : d.val ≠ c.val := fun e => h (Fin.ext e)
  simp [State.setChan, State.chan, tab_get_set_ne _ _ _ _ _ this]

@[simp] theorem modChan_chan (s : State) (c : ChanId) (f : Chan → Chan) : (s.modChan c f).chan c = f (s.chan c) := by
  simp [State.modChan]

theorem modChan_chan_ne (s : State) (c d : ChanId) (f : Chan → Chan) (h : d ≠ c) :
    (s.modChan c f).chan d = s.chan d :=
  setChan_chan_ne s c d _ h

theorem queueKey_lt (p : Port) (q : Fin 512) : queueKey p q < 1024 := by
  have := q.isLt
  cases p <;> simp [queueKey, Port.num] <;> omega

theorem queueKey_inj {p p' : Port} {q q' : Fin 512} (h : queueKey p q = queueKey p' q') : p = p' ∧ q = q' := by
  have h1 := q.isLt
  have h2 := q'.isLt
  cases p <;> cases p' <;> simp [queueKey, Port.num] at h ⊢ <;> omega

@[simp] theorem setQueue_queue (s : State) (p : Port) (q : Fin 512) (x : Queue) : (s.setQueue p q x).queue p q = x := by
  simp [State.setQueue, State.queue]

theorem setQueue_queue_ne (s : State) (p p' : Port) (q q' : Fin 512) (x : Queue) (h : ¬(p' = p ∧ q' = q)) :
    (s.setQueue p q x).queue p' q' = s.queue p' q' := by
  have : queueKey p' q' ≠ queueKey p q := fun e => h (queueKey_inj e)
  simp [State.setQueue, State.queue, tab_get_set_ne _ _ _ _ _ this]

@[simp] theorem modQueue_queue (s : State) (p : Port) (q : Fin 512) (f : Queue → Queue) :
    (s.modQueue p q f).queue p q = f (s.queue p q) := by
  simp [State.modQueue]

theorem modQueue_queue_ne (s : State) (p p' : Port) (q q' : Fin 512) (f : Queue → Queue) (h : ¬(p' = p ∧ q' = q)) :
    (s.modQueue p q f).queue p' q' = s.queue p' q' :=
  setQueue_queue_ne s p p' q q' _ h

@[simp] theorem setLink_link (s : State) (p : Port) (l : HostLink) : (s.setLink p l).link p = l := by
  cases p <;> rfl

theorem setLink_link_ne (s : State) (p p' : Port) (l : HostLink) (h : p' ≠ p) : (s.setLink p l).link p' = s.link p' := by
  cases p <;> cases p' <;> first | rfl | exact absurd rfl h

@[simp] theorem modLink_link (s : State) (p : Port) (f : HostLink → HostLink) : (s.modLink p f).link p = f (s.link p) := by
  simp [State.modLink]

theorem modLink_link_ne (s : State) (p p' : Port) (f : HostLink → HostLink) (h : p' ≠ p) :
    (s.modLink p f).link p' = s.link p' :=
  setLink_link_ne s p p' _ h

@[simp] theorem setRings_rings (s : State) (p : Port) (r : PortRings) : (s.setRings p r).rings p = r := by
  cases p <;> rfl

@[simp] theorem modRings_rings (s : State) (p : Port) (f : PortRings → PortRings) :
    (s.modRings p f).rings p = f (s.rings p) := by
  simp [State.modRings]

@[simp] theorem say_out (s : State) (o : Out) : (s.say o).out = s.out ++ [o] := rfl

@[simp] theorem modChan_link' (s : State) (c : ChanId) (f : Chan → Chan) (d : Port) : (s.modChan c f).link d = s.link d := by cases d <;> rfl
@[simp] theorem modChan_queue' (s : State) (c : ChanId) (f : Chan → Chan) (d : Port) (k : Fin 512) : (s.modChan c f).queue d k = s.queue d k := rfl
@[simp] theorem modChan_rings' (s : State) (c : ChanId) (f : Chan → Chan) (d : Port) : (s.modChan c f).rings d = s.rings d := by cases d <;> rfl
@[simp] theorem modChan_elem (s : State) (c : ChanId) (f : Chan → Chan) (k i : Nat) : (s.modChan c f).elem k i = s.elem k i := rfl
@[simp] theorem modChan_runs (s : State) (c : ChanId) (f : Chan → Chan) : (s.modChan c f).runs = s.runs := rfl
@[simp] theorem modLink_chan' (s : State) (p : Port) (f : HostLink → HostLink) (d : ChanId) : (s.modLink p f).chan d = s.chan d := by cases p <;> rfl
@[simp] theorem modLink_queue' (s : State) (p : Port) (f : HostLink → HostLink) (d : Port) (k : Fin 512) : (s.modLink p f).queue d k = s.queue d k := by cases p <;> rfl
@[simp] theorem modLink_rings' (s : State) (p : Port) (f : HostLink → HostLink) (d : Port) : (s.modLink p f).rings d = s.rings d := by cases d <;> cases p <;> rfl
@[simp] theorem modLink_elem (s : State) (p : Port) (f : HostLink → HostLink) (k i : Nat) : (s.modLink p f).elem k i = s.elem k i := by cases p <;> rfl
@[simp] theorem modLink_runs (s : State) (p : Port) (f : HostLink → HostLink) : (s.modLink p f).runs = s.runs := by cases p <;> rfl
@[simp] theorem modQueue_chan' (s : State) (p : Port) (q : Fin 512) (f : Queue → Queue) (d : ChanId) : (s.modQueue p q f).chan d = s.chan d := rfl
@[simp] theorem modQueue_link' (s : State) (p : Port) (q : Fin 512) (f : Queue → Queue) (d : Port) : (s.modQueue p q f).link d = s.link d := by cases d <;> rfl
@[simp] theorem modQueue_rings' (s : State) (p : Port) (q : Fin 512) (f : Queue → Queue) (d : Port) : (s.modQueue p q f).rings d = s.rings d := by cases d <;> rfl
@[simp] theorem modQueue_elem (s : State) (p : Port) (q : Fin 512) (f : Queue → Queue) (k i : Nat) : (s.modQueue p q f).elem k i = s.elem k i := rfl
@[simp] theorem modQueue_runs (s : State) (p : Port) (q : Fin 512) (f : Queue → Queue) : (s.modQueue p q f).runs = s.runs := rfl
@[simp] theorem say_chan' (s : State) (o : Out) (d : ChanId) : (s.say o).chan d = s.chan d := rfl
@[simp] theorem say_link' (s : State) (o : Out) (d : Port) : (s.say o).link d = s.link d := by cases d <;> rfl
@[simp] theorem say_queue' (s : State) (o : Out) (d : Port) (k : Fin 512) : (s.say o).queue d k = s.queue d k := rfl
@[simp] theorem say_rings' (s : State) (o : Out) (d : Port) : (s.say o).rings d = s.rings d := by cases d <;> rfl
@[simp] theorem say_elem (s : State) (o : Out) (k i : Nat) : (s.say o).elem k i = s.elem k i := rfl
@[simp] theorem say_runs (s : State) (o : Out) : (s.say o).runs = s.runs := rfl
@[simp] theorem modRings_chan' (s : State) (p : Port) (f : PortRings → PortRings) (d : ChanId) : (s.modRings p f).chan d = s.chan d := by cases p <;> rfl
@[simp] theorem modRings_link' (s : State) (p : Port) (f : PortRings → PortRings) (d : Port) : (s.modRings p f).link d = s.link d := by cases d <;> cases p <;> rfl
@[simp] theorem modRings_queue' (s : State) (p : Port) (f : PortRings → PortRings) (d : Port) (k : Fin 512) : (s.modRings p f).queue d k = s.queue d k := by cases p <;> rfl
@[simp] theorem modRings_elem (s : State) (p : Port) (f : PortRings → PortRings) (k i : Nat) : (s.modRings p f).elem k i = s.elem k i := by cases p <;> rfl
@[simp] theorem modRings_runs (s : State) (p : Port) (f : PortRings → PortRings) : (s.modRings p f).runs = s.runs := by cases p <;> rfl

end Sys2Proof.Machine
end

