-- ==== Sys2Proof/Laws/Within.lean ====
section
/-! SUPPORT. What almost every operation of the block leaves as it was: the queue of commands, the test access port, the
image, the clock, the stage and straps of the start and the input levels; and the canonical form of the keyed tables. -/

namespace Sys2Proof.Machine

/-- The same of an operation that may not come about. -/
def WithinO (o : State) : Option State → Prop
  | none => True
  | some t => Within o t

/-- The same of a meaning, which answers a next state. -/
def WithinR (o : State) : Host.Outcome State Fault Refusal → Prop
  | .next t => Within o t
  | _ => False

theorem Within.refl (s : State) : Within s s :=
  ⟨rfl, rfl, rfl, rfl, rfl, rfl, rfl, rfl, rfl, Nat.le_refl _, id, id, fun _ _ e => e⟩

theorem Within.trans {o s t : State} (h : Within o s) (k : Within s t) : Within o t where
  pending := k.pending.trans h.pending
  tap := k.tap.trans h.tap
  image := k.image.trans h.image
  clock := k.clock.trans h.clock
  start := by rw [k.start, h.start]
  resetN := k.resetN.trans h.resetN
  pwrok := k.pwrok.trans h.pwrok
  tsel := k.tsel.trans h.tsel
  calN := k.calN.trans h.calN
  fresh := Nat.le_trans h.fresh k.fresh
  chans := fun x => k.chans (h.chans x)
  queues := fun x => k.queues (h.queues x)
  anchors := fun p a x => k.anchors p a (h.anchors p a x)

theorem Within.stage {o t : State} (h : Within o t) : t.start.stage = o.start.stage := by rw [h.start]
theorem Within.straps {o t : State} (h : Within o t) : t.start.straps = o.start.straps := by rw [h.start]
theorem Within.codes {o t : State} (h : Within o t) : t.start.codes = o.start.codes := by rw [h.start]

theorem WithinO.none {o : State} : WithinO o none := trivial
theorem WithinO.some {o t : State} (h : Within o t) : WithinO o (some t) := h
theorem WithinR.next {o t : State} (h : Within o t) : WithinR o (.next t) := h

theorem WithinO.getD {o t : State} {x : Option State} (h : WithinO o x) (k : Within o t) : Within o (x.getD t) := by
  cases x <;> assumption

theorem WithinO.elim {o t : State} {x : Option α} {f : α → State} (h : ∀ a, Within o (f a)) (k : Within o t) :
    Within o (x.elim t f) := by
  cases x
  · exact k
  · exact h _

theorem Within.foldl {o : State} {f : State → α → State} (l : List α) {s : State} (h : Within o s)
    (k : ∀ t a, Within o t → Within o (f t a)) : Within o (l.foldl f s) := by
  induction l generalizing s with
  | nil => exact h
  | cons a l ih => exact ih (k _ _ h)

theorem Within.ite {o a b : State} {c : Prop} [Decidable c] (h : c → Within o a) (k : ¬c → Within o b) :
    Within o (if c then a else b) := by
  split
  · exact h ‹_›
  · exact k ‹_›

theorem WithinO.ite {o : State} {a b : Option State} {c : Prop} [Decidable c] (h : c → WithinO o a)
    (k : ¬c → WithinO o b) : WithinO o (if c then a else b) := by
  split
  · exact h ‹_›
  · exact k ‹_›

theorem WithinR.ite {o : State} {a b : Host.Outcome State Fault Refusal} {c : Prop} [Decidable c] (h : c → WithinR o a)
    (k : ¬c → WithinR o b) : WithinR o (if c then a else b) := by
  split
  · exact h ‹_›
  · exact k ‹_›

/-- A state with the fields replaced that an operation may change. -/
def State.upd (s : State) (pins : Pins) (start : Start) (linkA linkB : HostLink) (ringsA ringsB : PortRings)
    (transport : Transport) (faults : Faults) (tasks : List Task) (calib : Calib) (telemA telemB : Telemetry)
    (sched : Sched) (entry : Option Entry) (exitHeld : Bool) (fresh : Nat) (out : List Out) : State :=
  ⟨s.pending, pins, start, s.image, s.clock, linkA, linkB, ringsA, ringsB, s.queues, s.chans, transport, faults, tasks,
    calib, telemA, telemB, sched, entry, exitHeld, s.tap, fresh, out⟩

theorem mk_upd (s : State) {pins : Pins} {start : Start} {linkA linkB : HostLink} {ringsA ringsB : PortRings}
    {transport : Transport} {faults : Faults} {tasks : List Task} {calib : Calib} {telemA telemB : Telemetry}
    {sched : Sched} {entry : Option Entry} {exitHeld : Bool} {fresh : Nat} {out : List Out} :
    State.mk s.pending pins start s.image s.clock linkA linkB ringsA ringsB s.queues s.chans transport faults tasks calib
      telemA telemB sched entry exitHeld s.tap fresh out =
    s.upd pins start linkA linkB ringsA ringsB transport faults tasks calib telemA telemB sched entry exitHeld fresh out := rfl

theorem Within.upd {o s : State} (h : Within o s) {pins : Pins} {start : Start} {linkA linkB : HostLink}
    {ringsA ringsB : PortRings} {transport : Transport} {faults : Faults} {tasks : List Task} {calib : Calib}
    {telemA telemB : Telemetry} {sched : Sched} {entry : Option Entry} {exitHeld : Bool} {fresh : Nat} {out : List Out}
    (hs : start = { s.start with record := start.record }) (h1 : pins.resetN = s.pins.resetN)
    (h2 : pins.pwrok = s.pins.pwrok) (h3 : pins.tsel = s.pins.tsel) (h4 : pins.calN = s.pins.calN)
    (hf : s.fresh ≤ fresh) (ha : ∀ a, s.ringsA.anchor = some a → ringsA.anchor = some a)
    (hb : ∀ a, s.ringsB.anchor = some a → ringsB.anchor = some a) :
    Within o (s.upd pins start linkA linkB ringsA ringsB transport faults tasks calib telemA telemB sched entry exitHeld
      fresh out) :=
  h.trans ⟨rfl, rfl, rfl, rfl, hs, h1, h2, h3, h4, hf, id, id,
    fun p a e => by cases p; exact ha a e; exact hb a e⟩

theorem within_setChan {o s : State} (h : Within o s) {c : ChanId} {x : Chan} : Within o (s.setChan c x) :=
  h.trans ⟨rfl, rfl, rfl, rfl, rfl, rfl, rfl, rfl, rfl, Nat.le_refl _,
    fun k => keysRise_set _ _ _ k (Nat.zero_le _) c.isLt, id, fun p _ e => by cases p <;> exact e⟩

theorem within_useFresh {o s : State} (h : Within o s) : Within o s.useFresh :=
  h.trans ⟨rfl, rfl, rfl, rfl, rfl, rfl, rfl, rfl, rfl, Nat.le_succ _, id, id, fun p _ e => by cases p <;> exact e⟩

theorem within_setQueue {o s : State} (h : Within o s) {p : Port} {q : Fin 512} {x : Queue} :
    Within o (s.setQueue p q x) :=
  h.trans ⟨rfl, rfl, rfl, rfl, rfl, rfl, rfl, rfl, rfl, Nat.le_refl _, id,
    fun k => keysRise_set _ _ _ k (Nat.zero_le _) (queueKey_lt p q), fun p _ e => by cases p <;> exact e⟩

theorem within_setRings {o s : State} (h : Within o s) {p : Port} {x : PortRings}
    (k : ∀ a, (s.rings p).anchor = some a → x.anchor = some a) : Within o (s.setRings p x) :=
  h.trans (by
    cases p
    · exact ⟨rfl, rfl, rfl, rfl, rfl, rfl, rfl, rfl, rfl, Nat.le_refl _, id, id,
        fun q a e => by cases q; exact k a e; exact e⟩
    · exact ⟨rfl, rfl, rfl, rfl, rfl, rfl, rfl, rfl, rfl, Nat.le_refl _, id, id,
        fun q a e => by cases q; exact e; exact k a e⟩)

theorem within_modRings {o s : State} (h : Within o s) {p : Port} {f : PortRings → PortRings}
    (k : ∀ r a, r.anchor = some a → (f r).anchor = some a) : Within o (s.modRings p f) :=
  within_setRings h (fun a e => k _ a e)

end Sys2Proof.Machine
end

