-- ==== Sys2Proof/Laws/WithinOps.lean ====
section
/-! SUPPORT. Every operation of the ports, rings, records, queues and link states stays inside a stage (`Within`). -/

namespace Sys2Proof.Machine

theorem within_setLink {o s : State} (h : Within o s) {x2 x3} :
    Within o (State.setLink s x2 x3) := by
  unfold State.setLink
  repeat' first
    | with_reducible assumption | with_reducible apply Within.upd | rw [mk_upd] | with_reducible rfl
    | exact Nat.le_refl _ | intro _ | split

theorem within_modLink {o s : State} (h : Within o s) {x2 x3} :
    Within o (State.modLink s x2 x3) := by
  unfold State.modLink
  repeat' first
    | with_reducible assumption | with_reducible apply within_setLink

theorem within_say {o s : State} (h : Within o s) {x2} :
    Within o (State.say s x2) := by
  unfold State.say
  repeat' first
    | with_reducible assumption | with_reducible apply Within.upd | rw [mk_upd] | with_reducible rfl
    | exact Nat.le_refl _ | intro _

theorem within_sayLink {o s} (h : Within o s) {x2 x3 x4 x5} :
    Within o (State.sayLink s x2 x3 x4 x5) := by
  unfold State.sayLink
  try dsimp only
  repeat' first
    | with_reducible assumption | with_reducible apply within_modLink | with_reducible apply within_say | intro _
    | split

theorem within_sayNak {o s : State} (h : Within o s) {x2} :
    Within o (State.sayNak s x2) := by
  unfold State.sayNak
  repeat' first
    | with_reducible assumption | with_reducible apply within_modLink | with_reducible apply within_sayLink | intro _
    | split

theorem within_sayAck {o s : State} (h : Within o s) {x2} :
    Within o (State.sayAck s x2) := by
  unfold State.sayAck
  repeat' first
    | with_reducible assumption | with_reducible apply within_sayLink

theorem within_acceptFrame {o s : State} (h : Within o s) {x2 x3} :
    Within o (State.acceptFrame s x2 x3).2 := by
  unfold State.acceptFrame
  repeat' first
    | with_reducible assumption | with_reducible apply within_modLink | with_reducible apply within_sayNak
    | with_reducible apply within_sayAck | split

theorem within_sendHost {o s : State} (h : Within o s) {x2 x3} :
    Within o (State.sendHost s x2 x3) := by
  unfold State.sendHost
  repeat' first
    | with_reducible assumption | with_reducible apply within_modLink

theorem within_fence {o s : State} (h : Within o s) {x2 x3} :
    Within o (State.fence s x2 x3) := by
  unfold State.fence
  repeat' first
    | with_reducible assumption | with_reducible apply within_sendHost

theorem within_hostRead {o s : State} (h : Within o s) {x2 x3 x4 x5} :
    Within o (State.hostRead s x2 x3 x4 x5) := by
  unfold State.hostRead
  repeat' first
    | with_reducible assumption | with_reducible apply within_sendHost

theorem within_writePieces {o s : State} (h : Within o s) {x1 x2 x3} :
    Within o (writePieces x1 x2 x3 s) := by
  fun_induction writePieces x1 x2 x3 s
  repeat' first
    | with_reducible assumption | with_reducible refine (‹Within o _ → Within o _›) ?_
    | with_reducible apply within_sendHost

theorem within_hostWrite {o s : State} (h : Within o s) {x2 x3 x4} :
    Within o (State.hostWrite s x2 x3 x4) := by
  unfold State.hostWrite
  repeat' first
    | with_reducible assumption | with_reducible apply within_writePieces

theorem within_modChan {o s : State} (h : Within o s) {x2 x3} :
    Within o (State.modChan s x2 x3) := by
  unfold State.modChan
  repeat' first
    | with_reducible assumption | with_reducible apply within_setChan

theorem within_modQueue {o s : State} (h : Within o s) {x2 x3 x4} :
    Within o (State.modQueue s x2 x3 x4) := by
  unfold State.modQueue
  repeat' first
    | with_reducible assumption | with_reducible apply within_setQueue

theorem within_pump {o s : State} (h : Within o s) {x2} :
    Within o (State.pump s x2) := by
  unfold State.pump
  repeat' first
    | with_reducible assumption | with_reducible apply within_modLink

theorem within_grantDoorbells {o s} (h : Within o s) {x2 x3} :
    Within o (State.grantDoorbells s x2 x3) := by
  unfold State.grantDoorbells
  try dsimp only
  repeat' first
    | with_reducible assumption | with_reducible apply within_modLink | with_reducible apply within_sayLink
    | with_reducible apply Within.upd | rw [mk_upd] | with_reducible rfl | exact Nat.le_refl _ | intro _ | split

theorem within_returnCredit {o s} (h : Within o s) {x2} :
    Within o (State.returnCredit s x2) := by
  unfold State.returnCredit
  try dsimp only
  repeat' first
    | with_reducible assumption | with_reducible apply within_modLink | with_reducible apply within_grantDoorbells
    | with_reducible apply Within.upd | rw [mk_upd] | with_reducible rfl | exact Nat.le_refl _ | intro _ | split

theorem within_setSource {o s : State} (h : Within o s) {x2 x3} :
    Within o (State.setSource s x2 x3) := by
  unfold State.setSource
  repeat' first
    | with_reducible assumption | with_reducible apply Within.upd | rw [mk_upd] | with_reducible rfl
    | exact Nat.le_refl _ | intro _

theorem within_setReaction {o s : State} (h : Within o s) {x2 x3} :
    Within o (State.setReaction s x2 x3) := by
  unfold State.setReaction
  repeat' first
    | with_reducible assumption | with_reducible apply Within.upd | rw [mk_upd] | with_reducible rfl
    | exact Nat.le_refl _ | intro _

theorem within_forgetEpisode {o s : State} (h : Within o s) {x2} :
    Within o (State.forgetEpisode s x2) := by
  unfold State.forgetEpisode
  repeat' first
    | with_reducible assumption | with_reducible apply Within.upd | rw [mk_upd] | with_reducible rfl
    | exact Nat.le_refl _ | intro _

theorem within_reactFault {o s : State} (h : Within o s) {x2 x3} :
    Within o (State.reactFault s x2 x3) := by
  unfold State.reactFault
  repeat' first
    | with_reducible assumption | with_reducible apply within_setReaction | with_reducible apply within_forgetEpisode
    | split

theorem within_countOne {o s : State} (h : Within o s) {x2 x3 x4} :
    Within o (State.countOne s x2 x3 x4).2 := by
  unfold State.countOne
  try dsimp only
  repeat' first
    | with_reducible assumption | with_reducible apply within_setSource | with_reducible apply within_reactFault
    | with_reducible apply Within.upd | rw [mk_upd] | with_reducible rfl | exact Nat.le_refl _ | intro _ | split

theorem within_pushRecord {o s : State} (h : Within o s) {x2} :
    Within o (State.pushRecord s x2).2 := by
  unfold State.pushRecord
  try dsimp only
  repeat' first
    | with_reducible assumption | with_reducible apply within_setRings | intro _ | split

theorem within_produceList {o s : State} (h : Within o s) {x1 x2} :
    Within o (produceList x1 x2 s) := by
  fun_induction produceList x1 x2 s
  repeat' first
    | with_reducible assumption | with_reducible refine (‹Within o _ → Within o _›) ?_
    | with_reducible apply within_pushRecord | with_reducible apply within_countOne

theorem within_produce {o s : State} (h : Within o s) {x2} :
    Within o (State.produce s x2) := by
  unfold State.produce
  repeat' first
    | with_reducible assumption | with_reducible apply within_produceList

theorem within_occur {o s : State} (h : Within o s) {x2 x3 x4} :
    Within o (State.occur s x2 x3 x4) := by
  unfold State.occur
  repeat' first
    | with_reducible assumption | with_reducible apply within_countOne | with_reducible apply within_produce

theorem within_hostLinkError {o s : State} (h : Within o s) {x2 x3 x4} :
    Within o (State.hostLinkError s x2 x3 x4) := by
  unfold State.hostLinkError
  repeat' first
    | with_reducible assumption | with_reducible apply within_occur

theorem within_occurChan {o s : State} (h : Within o s) {x2 x3 x4} :
    Within o (State.occurChan s x2 x3 x4) := by
  unfold State.occurChan
  repeat' first
    | with_reducible assumption | with_reducible apply within_occur

theorem within_occurN {o s : State} (h : Within o s) {x1 x2 x3 x4} :
    Within o (State.occurN x1 x2 x3 x4 s) := by
  fun_induction State.occurN x1 x2 x3 x4 s
  repeat' first
    | with_reducible assumption | with_reducible refine (‹Within o _ → Within o _›) ?_
    | with_reducible apply within_occur

theorem within_occurQueue {o s : State} (h : Within o s) {x2 x3 x4 x5} :
    Within o (State.occurQueue s x2 x3 x4 x5) := by
  unfold State.occurQueue
  repeat' first
    | with_reducible assumption | with_reducible apply within_occur

theorem within_record {o s : State} (h : Within o s) {x2 x3 x4} :
    Within o (State.record s x2 x3 x4) := by
  unfold State.record
  repeat' first
    | with_reducible assumption | with_reducible apply within_produce

theorem within_deferredList {o s : State} (h : Within o s) {x1} :
    Within o (deferredList x1 s) := by
  fun_induction deferredList x1 s
  repeat' first
    | with_reducible assumption | with_reducible refine (‹Within o _ → Within o _›) ?_
    | with_reducible apply within_setSource | with_reducible apply within_produce

theorem within_sendDeferred {o s : State} (h : Within o s) :
    Within o (State.sendDeferred s) := by
  unfold State.sendDeferred
  repeat' first
    | with_reducible assumption | with_reducible apply within_deferredList

theorem within_writeEntry {o s : State} (h : Within o s) {x2 x3 x4 x5 x6} :
    Within o (State.writeEntry s x2 x3 x4 x5 x6) := by
  unfold State.writeEntry
  repeat' first
    | with_reducible assumption | with_reducible apply within_modRings | with_reducible apply within_hostWrite
    | with_reducible apply within_modQueue | exact fun _ _ e => e | split

theorem within_flushItems {o s : State} (h : Within o s) {x1 x2 x3} :
    Within o (flushItems x1 x2 x3 s) := by
  fun_induction flushItems x1 x2 x3 s
  repeat' first
    | with_reducible assumption | with_reducible refine (‹Within o _ → Within o _›) ?_
    | with_reducible apply within_writeEntry | with_reducible apply within_modQueue

theorem within_flushQueue {o s : State} (h : Within o s) {x2 x3} :
    Within o (State.flushQueue s x2 x3) := by
  unfold State.flushQueue
  repeat' first
    | with_reducible assumption | with_reducible apply within_flushItems

theorem within_setPhase {o s : State} (h : Within o s) {x2 x3 x4 x5} :
    Within o (State.setPhase s x2 x3 x4 x5) := by
  unfold State.setPhase
  repeat' first
    | with_reducible assumption | with_reducible apply within_modQueue

theorem within_complete {o s : State} (h : Within o s) {x2 x3 x4 x5 x6 x7} :
    Within o (State.complete s x2 x3 x4 x5 x6 x7) := by
  unfold State.complete
  repeat' first
    | with_reducible assumption | with_reducible apply within_flushQueue | with_reducible apply within_occurQueue
    | with_reducible apply within_setPhase | split

theorem within_result {o s : State} (h : Within o s) {x2 x3 x4 x5 x6 x7} :
    Within o (State.result s x2 x3 x4 x5 x6 x7) := by
  unfold State.result
  repeat' first
    | with_reducible assumption | with_reducible apply within_complete

theorem within_injected {o s : State} (h : Within o s) {x2 x3 x4} :
    Within o (State.injected s x2 x3 x4) := by
  unfold State.injected
  repeat' first
    | with_reducible assumption | with_reducible apply within_result | with_reducible apply Within.upd | rw [mk_upd]
    | with_reducible rfl | exact Nat.le_refl _ | intro _ | split

theorem within_startItem {o s : State} (h : Within o s) {x2 x3 x4} :
    Within o (State.startItem s x2 x3 x4) := by
  unfold State.startItem
  repeat' first
    | with_reducible assumption | with_reducible apply within_setPhase

theorem within_sendReply {o s : State} (h : Within o s) {x2 x3 x4 x5} :
    Within o (State.sendReply s x2 x3 x4 x5) := by
  unfold State.sendReply
  repeat' first
    | with_reducible assumption | with_reducible apply within_sendHost

theorem within_actAnchor {o s} (h : Within o s) {x2 x3} :
    Within o (State.actAnchor s x2 x3) := by
  unfold State.actAnchor
  try dsimp only
  repeat' first
    | with_reducible assumption | with_reducible apply within_hostLinkError | with_reducible apply within_sendReply
    | with_reducible apply within_modRings | with_reducible apply within_hostRead | with_reducible apply Within.upd
    | rw [mk_upd] | with_reducible rfl | exact Nat.le_refl _ | intro _ | split

theorem within_setInt {o s : State} (h : Within o s) {x2 x3} :
    Within o (State.setInt s x2 x3) := by
  unfold State.setInt
  repeat' first
    | with_reducible assumption | with_reducible apply Within.upd | rw [mk_upd] | with_reducible rfl
    | exact Nat.le_refl _ | intro _ | split

theorem within_badConsumed {o s : State} (h : Within o s) {x2 x3 x4 x5} :
    Within o (State.badConsumed s x2 x3 x4 x5) := by
  unfold State.badConsumed
  repeat' first
    | with_reducible assumption | with_reducible apply within_occur

theorem within_actConsumedDoorbell {o s : State} (h : Within o s) {x2 x3 x4} :
    Within o (State.actConsumedDoorbell s x2 x3 x4) := by
  unfold State.actConsumedDoorbell
  try dsimp only
  repeat' first
    | with_reducible assumption | with_reducible apply within_hostLinkError | with_reducible apply within_setInt
    | with_reducible apply within_modRings | with_reducible apply within_badConsumed | exact fun _ _ e => e | intro _
    | split

theorem within_actWorkDoorbell {o s : State} (h : Within o s) {x2 x3 x4} :
    Within o (State.actWorkDoorbell s x2 x3 x4) := by
  unfold State.actWorkDoorbell
  try dsimp only
  repeat' first
    | with_reducible assumption | with_reducible apply within_hostLinkError | with_reducible apply within_setQueue
    | with_reducible apply within_occurQueue | intro _ | split

theorem within_assertInt {o s : State} (h : Within o s) {x2} :
    Within o (State.assertInt s x2) := by
  unfold State.assertInt
  try dsimp only
  repeat' first
    | with_reducible assumption | with_reducible apply within_setInt | intro _ | split

theorem within_badFrame {o s : State} (h : Within o s) {x2 x3} :
    Within o (State.badFrame s x2 x3) := by
  unfold State.badFrame
  repeat' first
    | with_reducible assumption | with_reducible apply within_hostLinkError | with_reducible apply within_sayNak

theorem within_unreserve {o s : State} (h : Within o s) {x2 x3 x4} :
    Within o (State.unreserve s x2 x3 x4) := by
  unfold State.unreserve
  repeat' first
    | with_reducible assumption | with_reducible apply within_modRings | exact fun _ _ e => e | split

theorem within_writeConsumed {o s : State} (h : Within o s) {x2 x3} :
    Within o (State.writeConsumed s x2 x3) := by
  unfold State.writeConsumed
  repeat' first
    | with_reducible assumption | with_reducible apply within_hostWrite | split

theorem within_fetchDone {o s : State} (h : Within o s) {x2 x3 x4 x5 x6} :
    Within o (State.fetchDone s x2 x3 x4 x5 x6) := by
  unfold State.fetchDone
  repeat' first
    | with_reducible assumption | with_reducible apply within_setQueue | with_reducible apply within_unreserve
    | with_reducible apply within_writeConsumed | intro _ | split

theorem within_fetchFailed {o s} (h : Within o s) {x2 x3 x4 x5} :
    Within o (State.fetchFailed s x2 x3 x4 x5) := by
  unfold State.fetchFailed
  try dsimp only
  repeat' first
    | with_reducible assumption | with_reducible apply within_setQueue | with_reducible apply within_unreserve
    | with_reducible apply within_writeConsumed | with_reducible apply within_flushQueue
    | with_reducible apply Within.upd | rw [mk_upd] | with_reducible rfl | exact Nat.le_refl _ | intro _ | split

theorem within_fetchItems {o s : State} (h : Within o s) {x2 x3} :
    Within o (State.fetchItems s x2 x3) := by
  unfold State.fetchItems
  try dsimp only
  repeat' first
    | with_reducible assumption | with_reducible apply within_setQueue | with_reducible apply within_modRings
    | with_reducible apply within_hostRead | exact fun _ _ e => e | intro _ | split

theorem within_onFrame {o s : State} (h : Within o s) {x2 x3 x4 x5} (k : ∀ t, Within o t → Within o (x5 t)) :
    Within o (State.onFrame s x2 x3 x4 x5) := by
  unfold State.onFrame
  try dsimp only
  repeat' first
    | with_reducible assumption | with_reducible apply k | with_reducible apply within_injected
    | with_reducible apply within_badFrame | with_reducible apply within_acceptFrame | intro _ | split

theorem within_writeRecord {o s : State} (h : Within o s) {x2 x3 x4 x5} :
    Within o (State.writeRecord s x2 x3 x4 x5) := by
  unfold State.writeRecord
  repeat' first
    | with_reducible assumption | with_reducible apply within_modRings | with_reducible apply within_hostWrite
    | exact fun _ _ e => e | intro _ | split

theorem within_releaseWake {o s : State} (h : Within o s) :
    Within o (State.releaseWake s) := by
  unfold State.releaseWake
  repeat' first
    | with_reducible assumption | with_reducible apply Within.upd | rw [mk_upd] | with_reducible rfl
    | exact Nat.le_refl _ | intro _ | split

theorem within_recordWrite {o s} (h : Within o s) {x2} :
    Within o (State.recordWrite s x2) := by
  unfold State.recordWrite
  try dsimp only
  repeat' first
    | with_reducible assumption | with_reducible apply within_setRings | with_reducible apply within_writeRecord
    | with_reducible apply within_releaseWake | with_reducible apply within_fence | with_reducible apply Within.upd
    | rw [mk_upd] | with_reducible rfl | exact Nat.le_refl _ | exact fun _ _ e => e | exact fun _ e => e | intro _
    | split

theorem within_sendEvent {o s : State} (h : Within o s) {x2 x3 x4} :
    Within o (State.sendEvent s x2 x3 x4) := by
  unfold State.sendEvent
  try dsimp only
  repeat' first
    | with_reducible assumption | with_reducible apply within_setRings | with_reducible apply within_sendHost
    | exact fun _ e => e | intro _ | split

theorem within_takeFrame {o s : State} (h : Within o s) {x2 x3 x4} (k : ∀ t, Within o t → Within o (x4 t)) :
    Within o (State.takeFrame s x2 x3 x4) := by
  unfold State.takeFrame
  repeat' first
    | with_reducible assumption | with_reducible apply k | with_reducible apply within_modLink
    | with_reducible apply within_returnCredit | intro _ | split

theorem within_writeEach {o s : State} (h : Within o s) {x1 x2} :
    Within o (writeEach x1 x2 s) := by
  fun_induction writeEach x1 x2 s
  repeat' first
    | with_reducible assumption | with_reducible refine (‹Within o _ → Within o _›) ?_
    | with_reducible apply within_recordWrite

theorem within_writeBuffered {o s : State} (h : Within o s) {x2} :
    Within o (State.writeBuffered s x2) := by
  unfold State.writeBuffered
  repeat' first
    | with_reducible assumption | with_reducible apply within_writeEach

theorem within_execAnchorMessage {o s : State} (h : Within o s) {x1 x2 x3} :
    WithinR o (execAnchorMessage x1 x2 x3 s) := by
  unfold execAnchorMessage
  repeat' first
    | with_reducible assumption | with_reducible apply within_onFrame | with_reducible apply within_actAnchor
    | with_reducible apply within_takeFrame | with_reducible apply WithinR.next | intro _

theorem within_execConsumedDoorbell {o s : State} (h : Within o s) {x1 x2 x3 x4} :
    WithinR o (execConsumedDoorbell x1 x2 x3 x4 s) := by
  unfold execConsumedDoorbell
  repeat' first
    | with_reducible assumption | with_reducible apply within_actConsumedDoorbell
    | with_reducible apply within_onFrame | with_reducible apply within_takeFrame | with_reducible apply WithinR.next
    | intro _

theorem within_execEventFrame {o s : State} (h : Within o s) {x1 x2 x3} :
    WithinR o (execEventFrame x1 x2 x3 s) := by
  unfold execEventFrame
  repeat' first
    | with_reducible assumption | with_reducible apply within_sendEvent | with_reducible apply WithinR.next

theorem within_execItemFetch {o s : State} (h : Within o s) {x1 x2} :
    WithinR o (execItemFetch x1 x2 s) := by
  unfold execItemFetch
  repeat' first
    | with_reducible assumption | with_reducible apply within_fetchItems | with_reducible apply WithinR.next

theorem within_execRecordWrite {o s : State} (h : Within o s) {x1} :
    WithinR o (execRecordWrite x1 s) := by
  unfold execRecordWrite
  repeat' first
    | with_reducible assumption | with_reducible apply within_recordWrite | with_reducible apply WithinR.next

theorem within_execWorkQueueDoorbell {o s : State} (h : Within o s) {x1 x2 x3 x4} :
    WithinR o (execWorkQueueDoorbell x1 x2 x3 x4 s) := by
  unfold execWorkQueueDoorbell
  repeat' first
    | with_reducible assumption | with_reducible apply within_actWorkDoorbell | with_reducible apply within_onFrame
    | with_reducible apply within_takeFrame | with_reducible apply WithinR.next | intro _

theorem within_writeQuality {o s : State} (h : Within o s) {x2 x3} :
    Within o (State.writeQuality s x2 x3) := by
  unfold State.writeQuality
  repeat' first
    | with_reducible assumption | with_reducible apply within_modChan | with_reducible apply within_record | intro _
    | split

theorem within_measure {o s} (h : Within o s) {x2 x3} :
    Within o (State.measure s x2 x3) := by
  unfold State.measure
  try dsimp only
  repeat' first
    | with_reducible assumption | with_reducible apply within_modChan | with_reducible apply Within.upd | rw [mk_upd]
    | with_reducible rfl | exact Nat.le_refl _ | intro _ | split

theorem within_closeQuality {o s} (h : Within o s) {x2} :
    Within o (State.closeQuality s x2) := by
  unfold State.closeQuality
  try dsimp only
  repeat' first
    | with_reducible assumption | with_reducible apply within_measure | with_reducible apply within_useFresh
    | with_reducible apply within_writeQuality | intro _ | split

theorem within_linkRecord {o s : State} (h : Within o s) {x2 x3 x4} :
    Within o (State.linkRecord s x2 x3 x4) := by
  unfold State.linkRecord
  repeat' first
    | with_reducible assumption | with_reducible apply within_record

theorem within_writeWake {o s : State} (h : Within o s) {x2 x3 x4 x5 x6 x7} :
    Within o (State.writeWake s x2 x3 x4 x5 x6 x7) := by
  unfold State.writeWake
  repeat' first
    | with_reducible assumption | with_reducible apply within_modChan | with_reducible apply within_record

theorem within_execQualityPeriodBoundary {o s} (h : Within o s) {x1 x2} :
    WithinR o (execQualityPeriodBoundary x1 x2 s) := by
  unfold execQualityPeriodBoundary
  try dsimp only
  repeat' first
    | with_reducible assumption | with_reducible apply within_measure | with_reducible apply within_writeQuality
    | with_reducible apply WithinR.next | intro _ | split

theorem within_modTransport {o s : State} (h : Within o s) {x2} :
    Within o (State.modTransport s x2) := by
  unfold State.modTransport
  repeat' first
    | with_reducible assumption | with_reducible apply Within.upd | rw [mk_upd] | with_reducible rfl
    | exact Nat.le_refl _ | intro _

theorem within_abandonMessage {o s : State} (h : Within o s) {x2} :
    Within o (State.abandonMessage s x2) := by
  unfold State.abandonMessage
  repeat' first
    | with_reducible assumption | with_reducible apply within_complete | with_reducible apply within_modTransport
    | intro _ | split

theorem within_abandonAll {o s : State} (h : Within o s) {x1} :
    Within o (abandonAll x1 s) := by
  fun_induction abandonAll x1 s
  repeat' first
    | with_reducible assumption | with_reducible refine (‹Within o _ → Within o _›) ?_
    | with_reducible apply within_abandonMessage

theorem within_abandonChan {o s : State} (h : Within o s) {x2} :
    Within o (State.abandonChan s x2) := by
  unfold State.abandonChan
  repeat' first
    | with_reducible assumption | with_reducible apply within_abandonAll

theorem within_modRetry {o s : State} (h : Within o s) {x2 x3} :
    Within o (State.modRetry s x2 x3) := by
  unfold State.modRetry
  repeat' first
    | with_reducible assumption | with_reducible apply within_modChan

theorem within_removeOp {o s : State} (h : Within o s) {x2} :
    Within o (State.removeOp s x2) := by
  unfold State.removeOp
  repeat' first
    | with_reducible assumption | with_reducible apply within_modRetry | with_reducible apply within_modTransport

theorem within_endOp {o s : State} (h : Within o s) {x2 x3 x4} :
    Within o (State.endOp s x2 x3 x4) := by
  unfold State.endOp
  repeat' first
    | with_reducible assumption | with_reducible apply within_complete | with_reducible apply within_removeOp

theorem within_endOps {o s : State} (h : Within o s) {x1} :
    Within o (endOps x1 s) := by
  fun_induction endOps x1 s
  repeat' first
    | with_reducible assumption | with_reducible refine (‹Within o _ → Within o _›) ?_
    | with_reducible apply within_endOp

theorem within_endChanOps {o s : State} (h : Within o s) {x2} :
    Within o (State.endChanOps s x2) := by
  unfold State.endChanOps
  repeat' first
    | with_reducible assumption | with_reducible apply within_endOps

theorem within_modOp {o s : State} (h : Within o s) {x2 x3} :
    Within o (State.modOp s x2 x3) := by
  unfold State.modOp
  repeat' first
    | with_reducible assumption | with_reducible apply within_modTransport

theorem within_failChunk {o s : State} (h : Within o s) {x2 x3 x4} :
    Within o (State.failChunk s x2 x3 x4) := by
  unfold State.failChunk
  repeat' first
    | with_reducible assumption | with_reducible apply within_endOp | with_reducible apply within_modOp | intro _
    | split

theorem within_recordFailure {o s : State} (h : Within o s) {x2 x3 x4 x5} :
    Within o (State.recordFailure s x2 x3 x4 x5) := by
  unfold State.recordFailure
  try dsimp only
  repeat' first
    | with_reducible assumption | with_reducible apply within_modTransport | intro _ | split

theorem within_loseCompleted {o s : State} (h : Within o s) {x2 x3} :
    Within o (State.loseCompleted s x2 x3) := by
  unfold State.loseCompleted
  repeat' first
    | with_reducible assumption | with_reducible apply within_recordFailure | with_reducible apply within_occurQueue

theorem within_loseRunning {o s : State} (h : Within o s) {x2} :
    Within o (State.loseRunning s x2) := by
  unfold State.loseRunning
  repeat' first
    | with_reducible assumption | with_reducible apply within_failChunk | split

theorem within_loseRunningList {o s : State} (h : Within o s) {x1} :
    Within o (loseRunningList x1 s) := by
  fun_induction loseRunningList x1 s
  repeat' first
    | with_reducible assumption | with_reducible refine (‹Within o _ → Within o _›) ?_
    | with_reducible apply within_loseRunning

theorem within_loseCompletedList {o s : State} (h : Within o s) {x1 x2} :
    Within o (loseCompletedList x1 x2 s) := by
  fun_induction loseCompletedList x1 x2 s
  repeat' first
    | with_reducible assumption | with_reducible refine (‹Within o _ → Within o _›) ?_
    | with_reducible apply within_loseCompleted

theorem within_loseRefs {o s : State} (h : Within o s) {x1 x2} :
    Within o (State.loseRefs x1 x2 s) := by
  unfold State.loseRefs
  repeat' first
    | with_reducible assumption | with_reducible apply within_loseRunningList
    | with_reducible apply within_loseCompletedList

theorem within_breakSounding {o s : State} (h : Within o s) {x2 x3} :
    Within o (State.breakSounding s x2 x3) := by
  unfold State.breakSounding
  repeat' first
    | with_reducible assumption | with_reducible apply Within.upd | rw [mk_upd] | with_reducible rfl
    | exact Nat.le_refl _ | intro _

theorem within_settleItem {o s : State} (h : Within o s) {x2 x3} :
    Within o (State.settleItem s x2 x3) := by
  unfold State.settleItem
  repeat' first
    | with_reducible assumption | with_reducible apply within_result | split

theorem within_settle {o s : State} (h : Within o s) {x2 x3} :
    Within o (State.settle s x2 x3) := by
  unfold State.settle
  repeat' first
    | with_reducible assumption | with_reducible apply within_modChan | with_reducible apply within_settleItem
    | intro _ | split

theorem within_moveStream {o s : State} (h : Within o s) {x2 x3} :
    Within o (State.moveStream s x2 x3) := by
  unfold State.moveStream
  repeat' first
    | with_reducible assumption | with_reducible apply within_modRetry

theorem within_restartAll {o s : State} (h : Within o s) {x1} :
    Within o (restartAll x1 s) := by
  fun_induction restartAll x1 s
  repeat' first
    | with_reducible assumption | with_reducible refine (‹Within o _ → Within o _›) ?_
    | with_reducible apply within_modRetry | intro _ | split

theorem within_restartBond {o s : State} (h : Within o s) {x2 x3} :
    Within o (State.restartBond s x2 x3) := by
  unfold State.restartBond
  repeat' first
    | with_reducible assumption | with_reducible apply within_modRetry | with_reducible apply within_loseRefs
    | with_reducible apply within_restartAll

theorem within_dropLink {o s : State} (h : Within o s) {x2} :
    Within o (State.dropLink s x2) := by
  unfold State.dropLink
  repeat' first
    | with_reducible assumption | with_reducible apply within_modChan | with_reducible apply within_moveStream
    | with_reducible apply within_endChanOps | with_reducible apply within_restartBond
    | with_reducible apply within_abandonChan | intro _ | split

theorem within_stopSending {o s} (h : Within o s) {x2} :
    Within o (State.stopSending s x2) := by
  unfold State.stopSending
  try dsimp only
  repeat' first
    | with_reducible assumption | with_reducible apply within_modChan | with_reducible apply within_result
    | with_reducible apply WithinO.some | with_reducible exact WithinO.none | with_reducible apply Within.upd
    | rw [mk_upd] | with_reducible rfl | exact Nat.le_refl _ | intro _ | split

theorem within_move {o s} (h : Within o s) {x2 x3 x4} :
    Within o (State.move s x2 x3 x4) := by
  unfold State.move
  try dsimp only
  repeat' first
    | with_reducible assumption | with_reducible apply within_closeQuality | with_reducible apply within_dropLink
    | with_reducible apply within_modRetry | with_reducible apply within_stopSending
    | with_reducible apply within_modChan | with_reducible apply within_breakSounding
    | with_reducible apply within_linkRecord | with_reducible apply within_occurChan
    | with_reducible apply within_writeWake | with_reducible apply within_settle | intro _ | split

theorem within_onRelease {o s : State} (h : Within o s) {x2} :
    Within o (State.onRelease s x2) := by
  unfold State.onRelease
  repeat' first
    | with_reducible assumption | with_reducible apply within_modChan | intro _ | split

theorem within_arrive {o s : State} (h : Within o s) {x2 x3 x4} :
    Within o (State.arrive s x2 x3 x4) := by
  unfold State.arrive
  repeat' first
    | with_reducible assumption | with_reducible apply within_modChan | with_reducible apply within_move
    | with_reducible apply within_onRelease | intro _ | split

theorem within_beginFast {o s : State} (h : Within o s) {x2 x3 x4 x5 x6} :
    Within o (State.beginFast s x2 x3 x4 x5 x6) := by
  unfold State.beginFast
  repeat' first
    | with_reducible assumption | with_reducible apply within_modChan | with_reducible apply within_arrive
    | with_reducible apply within_move | split

theorem within_enterFast {o s : State} (h : Within o s) {x2 x3 x4} :
    Within o (State.enterFast s x2 x3 x4) := by
  unfold State.enterFast
  repeat' first
    | with_reducible assumption | with_reducible apply within_beginFast | with_reducible apply within_arrive | intro _
    | split

theorem within_holdLink {o s} (h : Within o s) {x2} :
    Within o (State.holdLink s x2) := by
  unfold State.holdLink
  try dsimp only
  repeat' first
    | with_reducible assumption | with_reducible apply within_move | with_reducible apply within_arrive
    | with_reducible apply WithinO.some | with_reducible exact WithinO.none | intro _ | split

theorem within_holdChan {o s} (h : Within o s) {x2} :
    Within o (State.holdChan s x2) := by
  unfold State.holdChan
  try dsimp only
  repeat' first
    | with_reducible assumption | with_reducible apply within_modChan | with_reducible apply within_holdLink
    | with_reducible apply Within.upd | rw [mk_upd] | with_reducible rfl | exact Nat.le_refl _ | intro _ | split

theorem within_eachChan {o s : State} (h : Within o s) {x1 x2} (k : ∀ t c, Within o t → Within o (x1 t c)) :
    Within o (eachChan x1 x2 s) := by
  fun_induction eachChan x1 x2 s
  repeat' first
    | with_reducible assumption | with_reducible refine (‹Within o _ → Within o _›) ?_ | with_reducible apply k

theorem within_holdLinks {o s : State} (h : Within o s) :
    Within o (State.holdLinks s) := by
  unfold State.holdLinks
  repeat' first
    | with_reducible assumption | with_reducible apply within_eachChan | with_reducible apply within_holdChan
    | intro _

theorem within_leaveNoticed {o s : State} (h : Within o s) {x2 x3 x4 x5} :
    Within o (State.leaveNoticed s x2 x3 x4 x5) := by
  unfold State.leaveNoticed
  try dsimp only
  repeat' first
    | with_reducible assumption | with_reducible apply within_modChan | with_reducible apply within_modRetry | intro _
    | split

theorem within_leave {o s : State} (h : Within o s) {x2 x3 x4} :
    Within o (State.leave s x2 x3 x4) := by
  unfold State.leave
  repeat' first
    | with_reducible assumption | with_reducible apply within_leaveNoticed | with_reducible apply within_arrive
    | intro _ | split

theorem within_noticeSent {o s : State} (h : Within o s) {x2} :
    Within o (State.noticeSent s x2) := by
  unfold State.noticeSent
  repeat' first
    | with_reducible assumption | with_reducible apply within_modChan | with_reducible apply within_arrive | intro _
    | split

theorem within_resumeChan {o s : State} (h : Within o s) {x2} :
    Within o (State.resumeChan s x2) := by
  unfold State.resumeChan
  repeat' first
    | with_reducible assumption | with_reducible apply within_enterFast | intro _ | split

theorem within_resumeLinks {o s : State} (h : Within o s) :
    Within o (State.resumeLinks s) := by
  unfold State.resumeLinks
  repeat' first
    | with_reducible assumption | with_reducible apply within_resumeChan | with_reducible apply within_eachChan
    | intro _

theorem within_sendLm {o s : State} (h : Within o s) {x2 x3} :
    Within o (State.sendLm s x2 x3) := by
  unfold State.sendLm
  repeat' first
    | with_reducible assumption | with_reducible apply within_modRetry

theorem within_addPacket {o s : State} (h : Within o s) {x2 x3 x4} :
    Within o (State.addPacket s x2 x3 x4) := by
  unfold State.addPacket
  repeat' first
    | with_reducible assumption | with_reducible apply within_modRetry

theorem within_checkFixity {o s : State} (h : Within o s) {x2 x3 x4 x5 x6 x7} :
    Within o (State.checkFixity s x2 x3 x4 x5 x6 x7).2 := by
  unfold State.checkFixity
  try dsimp only
  repeat' first
    | with_reducible assumption | with_reducible apply within_injected | with_reducible apply within_occurChan | split

theorem within_respond {o s : State} (h : Within o s) {x2 x3 x4 x5 x6 x7} :
    Within o (State.respond s x2 x3 x4 x5 x6 x7) := by
  unfold State.respond
  repeat' first
    | with_reducible assumption | with_reducible apply within_addPacket

end Sys2Proof.Machine
end

