-- ==== Sys2Proof/Laws/WithinTransport.lean ====
section
/-! SUPPORT. Every operation of the initiator, the retry layer and the streams stays inside a stage (`Within`). -/

namespace Sys2Proof.Machine

theorem within_readPieces {o s : State} (h : Within o s) {x1 x2 x3 x4} :
    Within o (readPieces x1 x2 x3 x4 s) := by
  fun_induction readPieces x1 x2 x3 x4 s
  repeat' first
    | with_reducible assumption | with_reducible refine (‹Within o _ → Within o _›) ?_
    | with_reducible apply within_hostRead

theorem within_beginChunk {o s : State} (h : Within o s) {x2 x3} :
    Within o (State.beginChunk s x2 x3) := by
  unfold State.beginChunk
  repeat' first
    | with_reducible assumption | with_reducible apply within_modOp | with_reducible apply within_hostRead
    | with_reducible apply within_readPieces | intro _ | split

theorem within_sendSingle {o s : State} (h : Within o s) {x2} :
    Within o (State.sendSingle s x2) := by
  unfold State.sendSingle
  repeat' first
    | with_reducible assumption | with_reducible apply within_addPacket | intro _ | split

theorem within_sendRequest {o s : State} (h : Within o s) {x2 x3} :
    Within o (State.sendRequest s x2 x3) := by
  unfold State.sendRequest
  repeat' first
    | with_reducible assumption | with_reducible apply within_addPacket

theorem within_nextChunk {o s : State} (h : Within o s) {x2} :
    Within o (State.nextChunk s x2) := by
  unfold State.nextChunk
  repeat' first
    | with_reducible assumption | with_reducible apply within_modOp | with_reducible apply within_beginChunk
    | with_reducible apply within_sendSingle | with_reducible apply within_sendRequest | intro _ | split

theorem within_advanceOp {o s : State} (h : Within o s) {x1 x2} :
    Within o (State.advanceOp x1 x2 s) := by
  fun_induction State.advanceOp x1 x2 s
  repeat' first
    | with_reducible assumption | with_reducible refine (‹Within o _ → Within o _›) ?_
    | with_reducible apply within_nextChunk

theorem within_sendData {o s : State} (h : Within o s) {x2 x3 x4 x5} :
    Within o (State.sendData s x2 x3 x4 x5) := by
  unfold State.sendData
  repeat' first
    | with_reducible assumption | with_reducible apply within_addPacket

theorem within_relayWrites {o s : State} (h : Within o s) {x1 x2} :
    Within o (State.relayWrites x1 x2 s) := by
  fun_induction State.relayWrites x1 x2 s
  repeat' first
    | with_reducible assumption | with_reducible refine (‹Within o _ → Within o _›) ?_
    | with_reducible apply within_sendData | with_reducible apply within_modOp
    | with_reducible apply within_sendSingle

theorem within_advanceList {o s : State} (h : Within o s) {x1} :
    Within o (advanceList x1 s) := by
  fun_induction advanceList x1 s
  repeat' first
    | with_reducible assumption | with_reducible refine (‹Within o _ → Within o _›) ?_
    | with_reducible apply within_advanceOp | with_reducible apply within_relayWrites | intro _ | split

theorem within_advance {o s : State} (h : Within o s) :
    Within o (State.advance s) := by
  unfold State.advance
  repeat' first
    | with_reducible assumption | with_reducible apply within_advanceList

theorem within_chunkRead {o s : State} (h : Within o s) {x2 x3} :
    Within o (State.chunkRead s x2 x3) := by
  unfold State.chunkRead
  repeat' first
    | with_reducible assumption | with_reducible apply within_sendData | with_reducible apply within_modOp
    | with_reducible apply within_sendRequest | intro _ | split

theorem within_chunkPart {o s : State} (h : Within o s) {x2 x3 x4} :
    Within o (State.chunkPart s x2 x3 x4) := by
  unfold State.chunkPart
  try dsimp only
  repeat' first
    | with_reducible assumption | with_reducible apply within_modOp | with_reducible apply within_chunkRead
    | with_reducible apply within_advance | intro _ | split

theorem within_chunkReadFailed {o s : State} (h : Within o s) {x2 x3} :
    Within o (State.chunkReadFailed s x2 x3) := by
  unfold State.chunkReadFailed
  repeat' first
    | with_reducible assumption | with_reducible apply within_modOp | with_reducible apply within_failChunk
    | with_reducible apply within_advance | split

theorem within_placeRead {o s : State} (h : Within o s) {x2 x3 x4} :
    Within o (State.placeRead s x2 x3 x4) := by
  unfold State.placeRead
  repeat' first
    | with_reducible assumption | with_reducible apply within_endOp | with_reducible apply within_modOp
    | with_reducible apply within_hostWrite | with_reducible apply within_advance | intro _ | split

theorem within_writeDone {o s : State} (h : Within o s) {x2} :
    Within o (State.writeDone s x2) := by
  unfold State.writeDone
  repeat' first
    | with_reducible assumption | with_reducible apply within_endOp | with_reducible apply within_modOp | intro _
    | split

theorem within_refAcked {o s : State} (h : Within o s) {x2} :
    Within o (State.refAcked s x2) := by
  unfold State.refAcked
  repeat' first
    | with_reducible assumption | with_reducible apply within_writeDone | with_reducible apply within_modOp | intro _
    | split

theorem within_refsAcked {o s : State} (h : Within o s) {x1 x2} :
    Within o (State.refsAcked x1 x2 s) := by
  fun_induction State.refsAcked x1 x2 s
  repeat' first
    | with_reducible assumption | with_reducible refine (‹Within o _ → Within o _›) ?_
    | with_reducible apply within_refAcked | intro _ | split

theorem within_refused {o s : State} (h : Within o s) {x2 x3 x4} :
    Within o (State.refused s x2 x3 x4) := by
  unfold State.refused
  try dsimp only
  repeat' first
    | with_reducible assumption | with_reducible apply within_modOp | with_reducible apply within_failChunk
    | with_reducible apply within_advance | intro _ | split

theorem within_resendChunk {o s : State} (h : Within o s) {x2 x3} :
    Within o (State.resendChunk s x2 x3) := by
  unfold State.resendChunk
  repeat' first
    | with_reducible assumption | with_reducible apply within_modRetry | with_reducible apply within_sendData
    | with_reducible apply within_modOp | with_reducible apply within_beginChunk
    | with_reducible apply within_sendSingle | with_reducible apply within_sendRequest | split

theorem within_startTransport {o s : State} (h : Within o s) {x2 x3 x4} :
    Within o (State.startTransport s x2 x3 x4) := by
  unfold State.startTransport
  repeat' first
    | with_reducible assumption | with_reducible apply within_complete | with_reducible apply within_startItem
    | with_reducible apply within_modTransport | with_reducible apply within_advance | intro _ | split

theorem within_takeFailure {o s : State} (h : Within o s) {x2 x3 x4} :
    Within o (State.takeFailure s x2 x3 x4).2 := by
  unfold State.takeFailure
  try dsimp only
  repeat' first
    | with_reducible assumption | with_reducible apply within_modTransport | split

theorem within_takePacket {o s : State} (h : Within o s) {c pkt kind hd b t}
    (e : s.takePacket c pkt kind = some (hd, b, t)) : Within o t := by
  unfold State.takePacket at e
  dsimp only at e
  repeat' split at e
  · cases e
    exact within_modRetry h
  · cases e
    exact within_occurChan (within_modRetry h)
  · cases e

theorem within_execAtomicItem {o s : State} (h : Within o s) {x1 x2} :
    WithinR o (execAtomicItem x1 x2 s) := by
  unfold execAtomicItem
  repeat' first
    | with_reducible assumption | with_reducible apply within_startTransport | with_reducible apply WithinR.next

theorem within_execAtomicResponse {o s : State} (h : Within o s) {x1 x2} :
    WithinR o (execAtomicResponse x1 x2 s) := by
  unfold execAtomicResponse
  repeat' first
    | with_reducible assumption | with_reducible exact within_takePacket h (by assumption)
    | with_reducible apply within_refused | with_reducible apply within_endOp | with_reducible apply within_hostWrite
    | with_reducible apply within_advance | with_reducible apply WithinR.next | intro _ | split

theorem within_execFlushItem {o s : State} (h : Within o s) {x1 x2} :
    WithinR o (execFlushItem x1 x2 s) := by
  unfold execFlushItem
  repeat' first
    | with_reducible assumption | with_reducible apply within_startTransport | with_reducible apply WithinR.next

theorem within_execFlushResponse {o s : State} (h : Within o s) {x1 x2} :
    WithinR o (execFlushResponse x1 x2 s) := by
  unfold execFlushResponse
  try dsimp only
  repeat' first
    | with_reducible assumption | with_reducible exact within_takePacket h (by assumption)
    | with_reducible apply within_takeFailure | with_reducible apply within_endOp
    | with_reducible apply within_advance | with_reducible apply WithinR.next | split

theorem within_execMalformedItem {o s : State} (h : Within o s) {x1 x2} :
    WithinR o (execMalformedItem x1 x2 s) := by
  unfold execMalformedItem
  repeat' first
    | with_reducible assumption | with_reducible apply within_complete | with_reducible apply within_startItem
    | with_reducible apply WithinR.next | split

theorem within_execReadItem {o s : State} (h : Within o s) {x1 x2} :
    WithinR o (execReadItem x1 x2 s) := by
  unfold execReadItem
  repeat' first
    | with_reducible assumption | with_reducible apply within_startTransport | with_reducible apply WithinR.next

theorem within_execReadResponse {o s : State} (h : Within o s) {x1 x2} :
    WithinR o (execReadResponse x1 x2 s) := by
  unfold execReadResponse
  try dsimp only
  repeat' first
    | with_reducible assumption | with_reducible exact within_takePacket h (by assumption)
    | with_reducible apply within_refused | with_reducible apply within_checkFixity
    | with_reducible apply within_placeRead | with_reducible apply within_failChunk
    | with_reducible apply within_advance | with_reducible apply WithinR.next | intro _ | split

theorem within_execReceiveItem {o s : State} (h : Within o s) {x1 x2} :
    WithinR o (execReceiveItem x1 x2 s) := by
  unfold execReceiveItem
  repeat' first
    | with_reducible assumption | with_reducible apply within_startItem | with_reducible apply WithinR.next | split

theorem within_execRelayItem {o s : State} (h : Within o s) {x1 x2} :
    WithinR o (execRelayItem x1 x2 s) := by
  unfold execRelayItem
  repeat' first
    | with_reducible assumption | with_reducible apply within_startTransport | with_reducible apply WithinR.next

theorem within_execResendBackoffExpiry {o s : State} (h : Within o s) {x1 x2} :
    WithinR o (execResendBackoffExpiry x1 x2 s) := by
  unfold execResendBackoffExpiry
  repeat' first
    | with_reducible assumption | with_reducible apply within_resendChunk | with_reducible apply WithinR.next
    | intro _ | split

theorem within_execResponseLimitExpiry {o s : State} (h : Within o s) {x1} :
    WithinR o (execResponseLimitExpiry x1 s) := by
  unfold execResponseLimitExpiry
  try dsimp only
  repeat' first
    | with_reducible assumption | with_reducible apply within_endOp | with_reducible apply within_failChunk
    | with_reducible apply within_advance | with_reducible apply WithinR.next | intro _ | split

theorem within_execSendItem {o s : State} (h : Within o s) {x1 x2} :
    WithinR o (execSendItem x1 x2 s) := by
  unfold execSendItem
  repeat' first
    | with_reducible assumption | with_reducible apply within_startTransport | with_reducible apply WithinR.next

theorem within_execStatusPacket {o s : State} (h : Within o s) {x1 x2} :
    WithinR o (execStatusPacket x1 x2 s) := by
  unfold execStatusPacket
  repeat' first
    | with_reducible assumption | with_reducible exact within_takePacket h (by assumption)
    | with_reducible apply within_recordFailure | with_reducible apply within_refused
    | with_reducible apply WithinR.next | split

theorem within_execWriteItem {o s : State} (h : Within o s) {x1 x2} :
    WithinR o (execWriteItem x1 x2 s) := by
  unfold execWriteItem
  repeat' first
    | with_reducible assumption | with_reducible apply within_startTransport | with_reducible apply WithinR.next

theorem within_takeAck {o s : State} (h : Within o s) {x2 x3} :
    Within o (State.takeAck s x2 x3) := by
  unfold State.takeAck
  try dsimp only
  repeat' first
    | with_reducible assumption | with_reducible apply within_modRetry | with_reducible apply within_refsAcked
    | with_reducible apply within_advance | intro _ | split

theorem within_modQuality {o s : State} (h : Within o s) {x2 x3} :
    Within o (State.modQuality s x2 x3) := by
  unfold State.modQuality
  repeat' first
    | with_reducible assumption | with_reducible apply within_modChan

theorem within_notePosition {o s : State} (h : Within o s) {x2 x3} :
    Within o (State.notePosition s x2 x3) := by
  unfold State.notePosition
  try dsimp only
  repeat' first
    | with_reducible assumption | with_reducible apply within_modRetry | intro _ | split

theorem within_passCodeword {o s : State} (h : Within o s) {x2} :
    Within o (State.passCodeword s x2) := by
  unfold State.passCodeword
  repeat' first
    | with_reducible assumption | with_reducible apply within_modChan

theorem within_fillPosition {o s : State} (h : Within o s) {x2 x3 x4} :
    Within o (State.fillPosition s x2 x3 x4) := by
  unfold State.fillPosition
  repeat' first
    | with_reducible assumption | with_reducible apply within_modRetry

theorem within_feedCodeword {o s : State} (h : Within o s) {x2 x3 x4 x5} :
    Within o (State.feedCodeword s x2 x3 x4 x5) := by
  unfold State.feedCodeword
  try dsimp only
  repeat' first
    | with_reducible assumption | with_reducible apply within_injected | with_reducible apply within_modRetry
    | intro _ | split

theorem within_drainMerge {o s : State} (h : Within o s) {x1 x2} :
    Within o (drainMerge x1 x2 s) := by
  fun_induction drainMerge x1 x2 s
  repeat' first
    | with_reducible assumption | with_reducible refine (‹Within o _ → Within o _›) ?_
    | with_reducible apply within_feedCodeword | with_reducible apply within_modRetry

theorem within_stopFalseWake {o s : State} (h : Within o s) {x2} :
    Within o (State.stopFalseWake s x2) := by
  unfold State.stopFalseWake
  repeat' first
    | with_reducible assumption | with_reducible apply within_modChan | with_reducible apply within_eachChan | intro _

theorem within_deliver {o s : State} (h : Within o s) {x2 x3 x4} :
    Within o (State.deliver s x2 x3 x4) := by
  unfold State.deliver
  try dsimp only
  repeat' first
    | with_reducible assumption | with_reducible apply within_fillPosition | with_reducible apply within_feedCodeword
    | with_reducible apply within_modRetry | with_reducible apply within_drainMerge
    | with_reducible apply within_stopFalseWake | intro _ | split

theorem within_takeSequenced {o s : State} (h : Within o s) {x2 x3 x4} :
    Within o (State.takeSequenced s x2 x3 x4) := by
  unfold State.takeSequenced
  try dsimp only
  repeat' first
    | with_reducible assumption | with_reducible apply within_modChan | with_reducible apply within_modRetry
    | with_reducible apply within_deliver | intro _ | split

theorem within_dataCodeword {o s} (h : Within o s) {x2 x3} :
    Within o (State.dataCodeword s x2 x3) := by
  unfold State.dataCodeword
  try dsimp only
  repeat' first
    | with_reducible assumption | with_reducible apply within_modQuality | with_reducible apply within_occurChan
    | with_reducible apply within_notePosition | with_reducible apply within_modRetry
    | with_reducible apply within_passCodeword | with_reducible apply within_takeAck
    | with_reducible apply within_modChan | with_reducible apply within_takeSequenced
    | with_reducible apply WithinO.some | with_reducible exact WithinO.none | with_reducible apply Within.upd
    | rw [mk_upd] | with_reducible rfl | exact Nat.le_refl _ | intro _ | split

theorem within_messageSent {o s : State} (h : Within o s) {x2 x3} :
    Within o (State.messageSent s x2 x3) := by
  unfold State.messageSent
  try dsimp only
  repeat' first
    | with_reducible assumption | with_reducible apply within_modChan | with_reducible apply within_noticeSent
    | intro _ | split

theorem within_endCodeword {o s : State} (h : Within o s) {x2 x3 x4} :
    Within o (State.endCodeword s x2 x3 x4) := by
  unfold State.endCodeword
  repeat' first
    | with_reducible assumption | with_reducible apply within_modChan | with_reducible apply within_messageSent
    | intro _ | split

theorem within_giveUp {o s : State} (h : Within o s) {x2 x3} :
    Within o (State.giveUp s x2 x3) := by
  unfold State.giveUp
  repeat' first
    | with_reducible assumption | with_reducible apply within_modRetry | with_reducible apply within_occurChan
    | with_reducible apply within_loseRefs | with_reducible apply within_restartAll
    | with_reducible apply within_advance

theorem within_launch {o s : State} (h : Within o s) {x2 x3 x4} :
    Within o (State.launch s x2 x3 x4) := by
  unfold State.launch
  repeat' first
    | with_reducible assumption | with_reducible apply within_modChan | with_reducible apply within_say

theorem within_onMessage {o s : State} (h : Within o s) {x2 x3 x4 x5} (k : ∀ t, Within o t → Within o (x5 t)) :
    Within o (State.onMessage s x2 x3 x4 x5) := by
  unfold State.onMessage
  repeat' first
    | with_reducible assumption | with_reducible apply k | with_reducible apply within_modRetry | intro _ | split

theorem within_startCodeword {o s : State} (h : Within o s) {x2} :
    Within o (State.startCodeword s x2) := by
  unfold State.startCodeword
  repeat' first
    | with_reducible assumption | with_reducible apply within_modChan | with_reducible apply within_launch
    | with_reducible apply within_modRetry | with_reducible apply within_stopFalseWake | intro _ | split

theorem within_dealBits {o s} (h : Within o s) {x2 x3} :
    Within o (State.dealBits s x2 x3) := by
  unfold State.dealBits
  try dsimp only
  repeat' first
    | with_reducible assumption | with_reducible apply within_modChan | with_reducible apply Within.upd | rw [mk_upd]
    | with_reducible rfl | exact Nat.le_refl _ | intro _ | split

theorem within_sendOut {o s : State} (h : Within o s) {x1 x2} :
    Within o (sendOut x1 x2 s).2 := by
  fun_induction sendOut x1 x2 s
  repeat' first
    | with_reducible assumption | with_reducible refine (‹Within o _ → Within o _›) ?_
    | with_reducible apply within_modRetry | with_reducible apply within_endCodeword
    | with_reducible apply within_dealBits
    | intro _
    | split

theorem within_sendSymbol {o s : State} (h : Within o s) {x1 x2} :
    Within o (sendSymbol x1 x2 s) := by
  fun_induction sendSymbol x1 x2 s
  repeat' first
    | with_reducible assumption | with_reducible refine (‹Within o _ → Within o _›) ?_
    | with_reducible apply within_startCodeword | with_reducible apply within_sendOut

theorem within_txSymbol {o s : State} (h : Within o s) {x2} :
    Within o (State.txSymbol s x2) := by
  unfold State.txSymbol
  try dsimp only
  repeat' first
    | with_reducible assumption | with_reducible apply within_sendSymbol | intro _ | split

theorem within_trainingCodeword {o s} (h : Within o s) {x2 x3} :
    Within o (State.trainingCodeword s x2 x3) := by
  unfold State.trainingCodeword
  try dsimp only
  repeat' first
    | with_reducible assumption | with_reducible apply within_passCodeword | with_reducible apply within_modRetry
    | with_reducible apply WithinO.some | with_reducible exact WithinO.none | with_reducible apply Within.upd
    | rw [mk_upd] | with_reducible rfl | exact Nat.le_refl _ | intro _ | split

theorem within_execCodewordDecoded {o s} (h : Within o s) {x1 x2} :
    WithinR o (execCodewordDecoded x1 x2 s) := by
  unfold execCodewordDecoded
  try dsimp only
  repeat' first
    | with_reducible assumption | with_reducible apply within_modRetry | with_reducible apply within_dataCodeword
    | with_reducible apply within_trainingCodeword | with_reducible apply within_injected
    | with_reducible apply WithinR.next | with_reducible apply Within.upd | rw [mk_upd] | with_reducible rfl
    | exact Nat.le_refl _ | intro _ | split

theorem within_execDiscardNotice {o s : State} (h : Within o s) {x1 x2} :
    WithinR o (execDiscardNotice x1 x2 s) := by
  unfold execDiscardNotice
  repeat' first
    | with_reducible assumption | with_reducible apply within_onMessage | with_reducible apply within_loseRefs
    | with_reducible apply within_advance | with_reducible apply WithinR.next | intro _

theorem within_execHeaderCheckFailed {o s : State} (h : Within o s) {x1 x2} :
    WithinR o (execHeaderCheckFailed x1 x2 s) := by
  unfold execHeaderCheckFailed
  repeat' first
    | with_reducible assumption | with_reducible apply within_modRetry | with_reducible apply within_occurChan
    | with_reducible apply WithinR.next | intro _ | split

theorem within_execPad {o s : State} (h : Within o s) {x1 x2} :
    WithinR o (execPad x1 x2 s) := by
  exact within_onMessage h (fun _ k => k)

theorem within_execRestart {o s : State} (h : Within o s) {x1 x2} :
    WithinR o (execRestart x1 x2 s) := by
  unfold execRestart
  repeat' first
    | with_reducible assumption | with_reducible apply within_onMessage | with_reducible apply within_modRetry
    | with_reducible apply within_abandonChan | with_reducible apply WithinR.next | intro _

theorem within_execResume {o s : State} (h : Within o s) {x1 x2} :
    WithinR o (execResume x1 x2 s) := by
  unfold execResume
  try dsimp only
  repeat' first
    | with_reducible assumption | with_reducible apply within_onMessage | with_reducible apply within_modRetry
    | with_reducible apply within_giveUp | with_reducible apply within_refsAcked | with_reducible apply within_advance
    | with_reducible apply WithinR.next | intro _ | split

theorem within_execRetransmitTimeout {o s : State} (h : Within o s) {x1} :
    WithinR o (execRetransmitTimeout x1 s) := by
  unfold execRetransmitTimeout
  try dsimp only
  repeat' first
    | with_reducible assumption | with_reducible apply within_modRetry | with_reducible apply WithinR.next | intro _
    | split

theorem within_execRetryBudgetExpiry {o s : State} (h : Within o s) {x1} :
    WithinR o (execRetryBudgetExpiry x1 s) := by
  unfold execRetryBudgetExpiry
  try dsimp only
  repeat' first
    | with_reducible assumption | with_reducible apply within_giveUp | with_reducible apply WithinR.next | intro _
    | split

theorem within_modStream {o s : State} (h : Within o s) {x2 x3 x4} :
    Within o (State.modStream s x2 x3 x4) := by
  unfold State.modStream
  repeat' first
    | with_reducible assumption | with_reducible apply within_modQueue

theorem within_streamRecord {o s : State} (h : Within o s) {x2 x3 x4} :
    Within o (State.streamRecord s x2 x3 x4) := by
  unfold State.streamRecord
  repeat' first
    | with_reducible assumption | with_reducible apply within_record

theorem within_disposition {o s : State} (h : Within o s) {x2 x3 x4 x5 x6} :
    Within o (State.disposition s x2 x3 x4 x5 x6) := by
  unfold State.disposition
  repeat' first
    | with_reducible assumption | with_reducible apply within_endOp | with_reducible apply within_modStream
    | with_reducible apply within_streamRecord | with_reducible apply within_advance | split

theorem within_feedEvent {o s : State} (h : Within o s) {x2 x3 x4 x5 x6} :
    Within o (State.feedEvent s x2 x3 x4 x5 x6) := by
  unfold State.feedEvent
  repeat' first
    | with_reducible assumption | with_reducible apply within_streamRecord

theorem within_exhaust {o s : State} (h : Within o s) {x2 x3 x4 x5} :
    Within o (State.exhaust s x2 x3 x4 x5) := by
  unfold State.exhaust
  repeat' first
    | with_reducible assumption | with_reducible apply within_feedEvent | with_reducible apply within_occurQueue
    | with_reducible apply within_modStream

theorem within_signal {o s : State} (h : Within o s) {x2 x3 x4 x5 x6 x7} :
    Within o (State.signal s x2 x3 x4 x5 x6 x7) := by
  unfold State.signal
  repeat' first
    | with_reducible assumption | with_reducible apply within_sendLm

theorem within_overtake {o s : State} (h : Within o s) {x2 x3 x4 x5} :
    Within o (State.overtake s x2 x3 x4 x5) := by
  unfold State.overtake
  repeat' first
    | with_reducible assumption | with_reducible apply within_signal | with_reducible apply within_modTransport
    | split

theorem within_firebreak {o s : State} (h : Within o s) {x2 x3 x4 x5} :
    Within o (State.firebreak s x2 x3 x4 x5) := by
  unfold State.firebreak
  try dsimp only
  repeat' first
    | with_reducible assumption | with_reducible apply within_feedEvent | with_reducible apply within_overtake
    | with_reducible apply within_hostWrite | with_reducible apply within_fence | with_reducible apply within_modQueue
    | intro _ | split

theorem within_firebreakDone {o s : State} (h : Within o s) {x2 x3 x4 x5} :
    Within o (State.firebreakDone s x2 x3 x4 x5) := by
  unfold State.firebreakDone
  repeat' first
    | with_reducible assumption | with_reducible apply within_feedEvent | with_reducible apply within_complete

theorem within_onItem {o s : State} (h : Within o s) {x2 x3 x4} (k : ∀ i b, WithinO o (x4 i b)) :
    Within o (State.onItem s x2 x3 x4) := by
  unfold State.onItem
  repeat' first
    | with_reducible assumption | with_reducible apply k | with_reducible apply WithinO.getD | split

theorem within_takeBuffer {o s : State} (h : Within o s) {x2 x3} :
    Within o (State.takeBuffer s x2 x3) := by
  unfold State.takeBuffer
  repeat' first
    | with_reducible assumption | with_reducible apply within_onItem | with_reducible apply within_startItem
    | with_reducible apply within_modStream | with_reducible apply WithinO.ite | with_reducible apply WithinO.some
    | with_reducible exact WithinO.none | intro _ | split

theorem within_slotFalls {o s : State} (h : Within o s) {x2 x3 x4} :
    Within o (State.slotFalls s x2 x3 x4) := by
  unfold State.slotFalls
  try dsimp only
  repeat' first
    | with_reducible assumption | with_reducible apply within_firebreak | with_reducible apply within_exhaust
    | with_reducible apply within_modStream | intro _ | split

theorem within_slotDue {o s : State} (h : Within o s) {x2 x3} :
    Within o (State.slotDue s x2 x3) := by
  unfold State.slotDue
  try dsimp only
  repeat' first
    | with_reducible assumption | with_reducible apply within_takeBuffer | with_reducible apply within_slotFalls
    | intro _ | split

theorem within_execReserveRelease {o s : State} (h : Within o s) {x1 x2} :
    WithinR o (execReserveRelease x1 x2 s) := by
  unfold execReserveRelease
  repeat' first
    | with_reducible assumption | with_reducible apply within_onItem | with_reducible apply within_complete
    | with_reducible apply within_startItem | with_reducible apply within_signal
    | with_reducible apply within_modStream | with_reducible apply within_streamRecord
    | with_reducible apply WithinO.ite | with_reducible apply WithinO.some | with_reducible exact WithinO.none
    | with_reducible apply WithinR.next | intro _ | split

theorem within_execStreamBuffer {o s : State} (h : Within o s) {x1 x2} :
    WithinR o (execStreamBuffer x1 x2 s) := by
  unfold execStreamBuffer
  repeat' first
    | with_reducible assumption | with_reducible apply within_takeBuffer | with_reducible apply WithinR.next

theorem within_execStreamSignal {o s : State} (h : Within o s) {x1 x2} :
    WithinR o (execStreamSignal x1 x2 s) := by
  unfold execStreamSignal
  try dsimp only
  repeat' first
    | with_reducible assumption | with_reducible apply within_onMessage | with_reducible apply within_disposition
    | with_reducible apply within_streamRecord | with_reducible apply WithinR.next | intro _ | split

theorem within_execStreamSlotDue {o s : State} (h : Within o s) {x1 x2} :
    WithinR o (execStreamSlotDue x1 x2 s) := by
  unfold execStreamSlotDue
  repeat' first
    | with_reducible assumption | with_reducible apply within_slotDue | with_reducible apply WithinR.next

theorem within_execStreamStart {o s : State} (h : Within o s) {x1 x2} :
    WithinR o (execStreamStart x1 x2 s) := by
  unfold execStreamStart
  repeat' first
    | with_reducible assumption | with_reducible apply within_onItem | with_reducible apply within_complete
    | with_reducible apply within_startItem | with_reducible apply within_modStream | with_reducible apply WithinO.ite
    | with_reducible apply WithinO.some | with_reducible exact WithinO.none | with_reducible apply WithinR.next
    | intro _ | split

theorem within_execStreamStop {o s : State} (h : Within o s) {x1 x2} :
    WithinR o (execStreamStop x1 x2 s) := by
  unfold execStreamStop
  repeat' first
    | with_reducible assumption | with_reducible apply within_onItem | with_reducible apply within_complete
    | with_reducible apply within_startItem | with_reducible apply within_modStream | with_reducible apply WithinO.ite
    | with_reducible apply WithinO.some | with_reducible exact WithinO.none | with_reducible apply WithinR.next
    | intro _ | split

end Sys2Proof.Machine
end

