-- ==== Sys2Proof/Laws/WithinLine.lean ====
section
/-! SUPPORT. Every operation of the fault reactions and the line stays inside a stage (`Within`). -/

namespace Sys2Proof.Machine

theorem within_acknowledge {o s : State} (h : Within o s) {x2 x3} :
    Within o (State.acknowledge s x2 x3) := by
  unfold State.acknowledge
  repeat' first
    | with_reducible assumption | with_reducible apply within_setReaction | with_reducible apply within_forgetEpisode
    | with_reducible apply within_produce | with_reducible apply Within.upd | rw [mk_upd] | with_reducible rfl
    | exact Nat.le_refl _ | intro _

theorem within_release {o s : State} (h : Within o s) {x2} :
    Within o (State.release s x2) := by
  unfold State.release
  repeat' first
    | with_reducible assumption | with_reducible apply within_modChan | with_reducible apply within_arrive
    | with_reducible apply within_modQueue | with_reducible apply Within.upd | rw [mk_upd] | with_reducible rfl
    | exact Nat.le_refl _ | intro _ | split

theorem within_unhold {o s : State} (h : Within o s) {x2 x3} :
    Within o (State.unhold s x2 x3) := by
  unfold State.unhold
  repeat' first
    | with_reducible assumption | with_reducible apply within_setReaction | with_reducible apply within_release
    | intro _ | split

theorem within_unholdAll {o s : State} (h : Within o s) {x1 x2} :
    Within o (unholdAll x1 x2 s) := by
  fun_induction unholdAll x1 x2 s
  repeat' first
    | with_reducible assumption | with_reducible refine (‹Within o _ → Within o _›) ?_
    | with_reducible apply within_unhold

theorem within_clearSource {o s : State} (h : Within o s) {x2} :
    Within o (State.clearSource s x2) := by
  unfold State.clearSource
  repeat' first
    | with_reducible assumption | with_reducible apply within_setSource | with_reducible apply within_unholdAll
    | with_reducible apply within_produce | intro _ | split

theorem within_dropOps {o s : State} (h : Within o s) {x1} :
    Within o (dropOps x1 s) := by
  fun_induction dropOps x1 s
  repeat' first
    | with_reducible assumption | with_reducible refine (‹Within o _ → Within o _›) ?_
    | with_reducible apply within_removeOp

theorem within_discardWork {o s : State} (h : Within o s) {x2 x3} :
    Within o (State.discardWork s x2 x3) := by
  unfold State.discardWork
  repeat' first
    | with_reducible assumption | with_reducible apply within_unreserve | with_reducible apply within_dropOps
    | with_reducible apply within_modQueue | with_reducible apply within_modTransport

theorem within_discardQueue {o s : State} (h : Within o s) {x2 x3 x4 x5} :
    Within o (State.discardQueue s x2 x3 x4 x5) := by
  unfold State.discardQueue
  repeat' first
    | with_reducible assumption | with_reducible apply within_discardWork | with_reducible apply within_record

theorem within_haltQueue {o s : State} (h : Within o s) {x2 x3 x4} :
    Within o (State.haltQueue s x2 x3 x4) := by
  unfold State.haltQueue
  repeat' first
    | with_reducible assumption | with_reducible apply within_discardQueue | with_reducible apply within_modQueue

theorem within_discardKeys {o s : State} (h : Within o s) {x1 x2 x3} :
    Within o (discardKeys x1 x2 x3 s) := by
  fun_induction discardKeys x1 x2 x3 s
  repeat' first
    | with_reducible assumption | with_reducible refine (‹Within o _ → Within o _›) ?_
    | with_reducible apply within_discardWork | with_reducible apply within_discardQueue | intro _ | split

theorem within_quiesce {o s : State} (h : Within o s) {x2} :
    Within o (State.quiesce s x2) := by
  unfold State.quiesce
  repeat' first
    | with_reducible assumption | with_reducible apply within_discardKeys | with_reducible apply Within.upd
    | rw [mk_upd] | with_reducible rfl | exact Nat.le_refl _ | intro _

theorem within_refuseUp {o s : State} (h : Within o s) {x2} :
    Within o (State.refuseUp s x2) := by
  unfold State.refuseUp
  repeat' first
    | with_reducible assumption | with_reducible apply within_modChan | with_reducible apply within_settleItem | intro _ | split

theorem within_quarantine {o s : State} (h : Within o s) {x2} :
    Within o (State.quarantine s x2) := by
  unfold State.quarantine
  repeat' first
    | with_reducible assumption | with_reducible apply within_modChan | with_reducible apply within_leave
    | with_reducible apply within_refuseUp | split

theorem within_escalateScope {o s : State} (h : Within o s) {x2 x3} :
    Within o (State.escalateScope s x2 x3) := by
  unfold State.escalateScope
  repeat' first
    | with_reducible assumption | with_reducible apply within_haltQueue | with_reducible apply within_quiesce
    | with_reducible apply within_quarantine | split

theorem within_escalate {o s : State} (h : Within o s) {x2} :
    Within o (State.escalate s x2) := by
  unfold State.escalate
  repeat' first
    | with_reducible assumption | with_reducible apply within_escalateScope | with_reducible apply within_setReaction
    | with_reducible apply within_produce

theorem within_releaseErr {o s : State} (h : Within o s) :
    Within o (State.releaseErr s) := by
  unfold State.releaseErr
  repeat' first
    | with_reducible assumption | with_reducible apply Within.upd | rw [mk_upd] | with_reducible rfl
    | exact Nat.le_refl _ | intro _

theorem within_tableError {o s : State} (h : Within o s) {x2} :
    Within o (State.tableError s x2) := by
  unfold State.tableError
  try dsimp only
  repeat' first
    | with_reducible assumption | with_reducible apply within_occur | with_reducible apply within_escalate
    | with_reducible apply within_forgetEpisode | intro _ | split

theorem within_clearSources {o s : State} (h : Within o s) {x1} :
    Within o (clearSources x1 s) := by
  fun_induction clearSources x1 s
  repeat' first
    | with_reducible assumption | with_reducible refine (‹Within o _ → Within o _›) ?_
    | with_reducible apply within_clearSource

theorem within_execFaultAcknowledge {o s : State} (h : Within o s) {x1 x2} :
    WithinR o (execFaultAcknowledge x1 x2 s) := by
  unfold execFaultAcknowledge
  try dsimp only
  repeat' first
    | with_reducible assumption | with_reducible apply within_onItem | with_reducible apply within_acknowledge
    | with_reducible apply within_result | with_reducible apply within_startItem | with_reducible apply WithinO.ite
    | with_reducible apply WithinO.some | with_reducible exact WithinO.none | with_reducible apply WithinR.next
    | intro _ | split

theorem within_execFaultClear {o s : State} (h : Within o s) {x1 x2} :
    WithinR o (execFaultClear x1 x2 s) := by
  unfold execFaultClear
  repeat' first
    | with_reducible assumption | with_reducible apply within_onItem | with_reducible apply within_clearSources
    | with_reducible apply within_result | with_reducible apply within_startItem
    | with_reducible apply within_releaseErr | with_reducible apply WithinO.ite | with_reducible apply WithinO.some
    | with_reducible exact WithinO.none | with_reducible apply WithinR.next | intro _ | split

theorem within_execGraceTimerExpiry {o s : State} (h : Within o s) {x1} :
    WithinR o (execGraceTimerExpiry x1 s) := by
  unfold execGraceTimerExpiry
  repeat' first
    | with_reducible assumption | with_reducible apply within_escalate | with_reducible apply WithinR.next | intro _
    | split

theorem within_modBring {o s : State} (h : Within o s) {x2 x3} :
    Within o (State.modBring s x2 x3) := by
  unfold State.modBring
  repeat' first
    | with_reducible assumption | with_reducible apply within_modChan

theorem within_beginCountdown {o s : State} (h : Within o s) {x2 x3 x4} :
    Within o (State.beginCountdown s x2 x3 x4) := by
  unfold State.beginCountdown
  repeat' first
    | with_reducible assumption | with_reducible apply within_modBring

theorem within_enterAssemble {o s : State} (h : Within o s) {x2 x3} :
    Within o (State.enterAssemble s x2 x3) := by
  unfold State.enterAssemble
  repeat' first
    | with_reducible assumption | with_reducible apply within_move | with_reducible apply within_modBring

theorem within_afterRoles {o s : State} (h : Within o s) {x2} :
    Within o (State.afterRoles s x2) := by
  unfold State.afterRoles
  repeat' first
    | with_reducible assumption | with_reducible apply within_beginCountdown
    | with_reducible apply within_enterAssemble | intro _ | split

theorem within_enterExchange {o s : State} (h : Within o s) {x2} :
    Within o (State.enterExchange s x2) := by
  unfold State.enterExchange
  repeat' first
    | with_reducible assumption | with_reducible apply within_move | with_reducible apply within_modBring

theorem within_enterSearch {o s : State} (h : Within o s) {x2 x3 x4} :
    Within o (State.enterSearch s x2 x3 x4) := by
  unfold State.enterSearch
  repeat' first
    | with_reducible assumption | with_reducible apply within_modChan | with_reducible apply within_move
    | with_reducible apply within_modBring

theorem within_enterTraining {o s} (h : Within o s) {x2 x3 x4 x5} :
    Within o (State.enterTraining s x2 x3 x4 x5) := by
  unfold State.enterTraining
  try dsimp only
  repeat' first
    | with_reducible assumption | with_reducible apply within_modChan | with_reducible apply within_move
    | with_reducible apply within_linkRecord | with_reducible apply Within.upd | rw [mk_upd] | with_reducible rfl
    | exact Nat.le_refl _ | intro _ | split

theorem within_newRound {o s} (h : Within o s) {x2 x3 x4} :
    Within o (State.newRound s x2 x3 x4) := by
  unfold State.newRound
  try dsimp only
  repeat' first
    | with_reducible assumption | with_reducible apply within_modChan | with_reducible apply Within.upd | rw [mk_upd]
    | with_reducible rfl | exact Nat.le_refl _ | intro _ | split

theorem within_epoch {o s} (h : Within o s) {x2 x3 x4} :
    Within o (State.epoch s x2 x3 x4) := by
  unfold State.epoch
  try dsimp only
  repeat' first
    | with_reducible assumption | with_reducible apply within_newRound | with_reducible apply within_modBring
    | with_reducible apply Within.upd | rw [mk_upd] | with_reducible rfl | exact Nat.le_refl _ | intro _ | split

theorem within_formMember {o s} (h : Within o s) {x2} :
    Within o (State.formMember s x2) := by
  unfold State.formMember
  try dsimp only
  repeat' first
    | with_reducible assumption | with_reducible apply within_enterTraining | intro _ | split

theorem within_refuseBringup {o s : State} (h : Within o s) {x2 x3} :
    Within o (State.refuseBringup s x2 x3) := by
  unfold State.refuseBringup
  repeat' first
    | with_reducible assumption | with_reducible apply within_modBring

theorem within_takeAssembled {o s : State} (h : Within o s) {x2 x3} :
    Within o (State.takeAssembled s x2 x3) := by
  unfold State.takeAssembled
  try dsimp only
  repeat' first
    | with_reducible assumption | with_reducible apply within_beginCountdown | with_reducible apply within_modBring
    | intro _ | split

theorem within_trainAlone {o s} (h : Within o s) {x2} :
    Within o (State.trainAlone s x2) := by
  unfold State.trainAlone
  try dsimp only
  repeat' first
    | with_reducible assumption | with_reducible apply within_enterTraining | intro _ | split

theorem within_execAssembledFrame {o s : State} (h : Within o s) {x1 x2 x3} :
    WithinR o (execAssembledFrame x1 x2 x3 s) := by
  unfold execAssembledFrame
  try dsimp only
  repeat' first
    | with_reducible assumption | with_reducible apply within_enterAssemble
    | with_reducible apply within_takeAssembled | with_reducible apply within_modBring
    | with_reducible apply WithinR.next | intro _ | split

theorem within_execAssemblyTimeout {o s : State} (h : Within o s) {x1} :
    WithinR o (execAssemblyTimeout x1 s) := by
  unfold execAssemblyTimeout
  try dsimp only
  repeat' first
    | with_reducible assumption | with_reducible apply within_beginCountdown | with_reducible apply WithinR.next
    | intro _ | split

theorem within_execCapabilityFrame {o s : State} (h : Within o s) {x1 x2 x3} :
    WithinR o (execCapabilityFrame x1 x2 x3 s) := by
  unfold execCapabilityFrame
  try dsimp only
  repeat' first
    | with_reducible assumption | with_reducible apply within_enterExchange | with_reducible apply within_modChan
    | with_reducible apply within_refuseBringup | with_reducible apply WithinR.next | intro _ | split

theorem within_execCountdownEnd {o s : State} (h : Within o s) {x1} :
    WithinR o (execCountdownEnd x1 s) := by
  unfold execCountdownEnd
  try dsimp only
  repeat' first
    | with_reducible assumption | with_reducible apply within_trainAlone | with_reducible apply within_eachChan
    | with_reducible apply within_formMember | with_reducible apply WithinR.next | intro _ | split

theorem within_execExchangeTimeout {o s : State} (h : Within o s) {x1} :
    WithinR o (execExchangeTimeout x1 s) := by
  unfold execExchangeTimeout
  try dsimp only
  repeat' first
    | with_reducible assumption | with_reducible apply within_refuseBringup | with_reducible apply WithinR.next
    | intro _ | split

theorem within_execHoldFrame {o s : State} (h : Within o s) {x1 x2 x3} :
    WithinR o (execHoldFrame x1 x2 x3 s) := by
  unfold execHoldFrame
  try dsimp only
  repeat' first
    | with_reducible assumption | with_reducible apply within_enterAssemble | with_reducible apply within_modBring
    | with_reducible apply WithinR.next | intro _ | split

theorem within_execRoleFrame {o s : State} (h : Within o s) {x1 x2 x3} :
    WithinR o (execRoleFrame x1 x2 x3 s) := by
  unfold execRoleFrame
  try dsimp only
  repeat' first
    | with_reducible assumption | with_reducible apply within_modChan | with_reducible apply within_afterRoles
    | with_reducible apply within_refuseBringup | with_reducible apply within_modBring
    | with_reducible apply WithinR.next | intro _ | split

theorem within_execSearchRoundStart {o s} (h : Within o s) {x1 x2 x3} :
    WithinR o (execSearchRoundStart x1 x2 x3 s) := by
  unfold execSearchRoundStart
  try dsimp only
  repeat' first
    | with_reducible assumption | with_reducible apply within_enterSearch | with_reducible apply within_epoch
    | with_reducible apply WithinR.next | intro _ | split

theorem within_execStartFrame {o s : State} (h : Within o s) {x1 x2 x3} :
    WithinR o (execStartFrame x1 x2 x3 s) := by
  unfold execStartFrame
  try dsimp only
  repeat' first
    | with_reducible assumption | with_reducible apply within_modBring | with_reducible apply WithinR.next | intro _
    | split

theorem within_reachData {o s : State} (h : Within o s) {x2} :
    Within o (State.reachData s x2) := by
  unfold State.reachData
  try dsimp only
  repeat' first
    | with_reducible assumption | with_reducible apply within_modChan | with_reducible apply within_moveStream
    | with_reducible apply within_leaveNoticed | with_reducible apply within_move
    | with_reducible apply within_advance | intro _ | split

theorem within_checkData {o s : State} (h : Within o s) {x2} :
    Within o (State.checkData s x2) := by
  unfold State.checkData
  try dsimp only
  repeat' first
    | with_reducible assumption | with_reducible apply within_reachData | intro _ | split

theorem within_failTraining {o s : State} (h : Within o s) {x2 x3} :
    Within o (State.failTraining s x2 x3) := by
  unfold State.failTraining
  repeat' first
    | with_reducible assumption | with_reducible apply within_leaveNoticed

theorem within_modTrain {o s : State} (h : Within o s) {x2 x3} :
    Within o (State.modTrain s x2 x3) := by
  unfold State.modTrain
  repeat' first
    | with_reducible assumption | with_reducible apply within_modChan

theorem within_nextPhase {o s : State} (h : Within o s) {x2 x3} :
    Within o (State.nextPhase s x2 x3) := by
  unfold State.nextPhase
  repeat' first
    | with_reducible assumption | with_reducible apply within_modTrain | with_reducible apply within_move

theorem within_rxStreamBegins {o s} (h : Within o s) {x2} :
    Within o (State.rxStreamBegins s x2) := by
  unfold State.rxStreamBegins
  try dsimp only
  repeat' first
    | with_reducible assumption | with_reducible apply within_modChan | with_reducible apply Within.upd | rw [mk_upd]
    | with_reducible rfl | exact Nat.le_refl _ | intro _ | split

theorem within_rxTableBegins {o s : State} (h : Within o s) {x2 x3} :
    Within o (State.rxTableBegins s x2 x3) := by
  unfold State.rxTableBegins
  repeat' first
    | with_reducible assumption | with_reducible apply within_checkData | with_reducible apply within_modChan

theorem within_sayState {o s : State} (h : Within o s) {x2} :
    Within o (State.sayState s x2) := by
  unfold State.sayState
  repeat' first
    | with_reducible assumption | with_reducible apply within_sendLm | with_reducible apply within_modTrain

theorem within_sayTable {o s : State} (h : Within o s) {x2} :
    Within o (State.sayTable s x2) := by
  unfold State.sayTable
  repeat' first
    | with_reducible assumption | with_reducible apply within_sendLm | with_reducible apply within_modTrain | split

theorem within_setEcho {o s : State} (h : Within o s) {x2} :
    Within o (State.setEcho s x2) := by
  unfold State.setEcho
  repeat' first
    | with_reducible assumption | with_reducible apply within_modChan | with_reducible apply within_useFresh

theorem within_setMatrix {o s : State} (h : Within o s) {x2} :
    Within o (State.setMatrix s x2) := by
  unfold State.setMatrix
  repeat' first
    | with_reducible assumption | with_reducible apply within_modChan | with_reducible apply within_useFresh

theorem within_setPreEq {o s : State} (h : Within o s) {x2} :
    Within o (State.setPreEq s x2) := by
  unfold State.setPreEq
  repeat' first
    | with_reducible assumption | with_reducible apply within_modChan | with_reducible apply within_useFresh

theorem within_startStream {o s} (h : Within o s) {x2} :
    Within o (State.startStream s x2) := by
  unfold State.startStream
  try dsimp only
  repeat' first
    | with_reducible assumption | with_reducible apply within_modRetry | with_reducible apply within_modChan
    | with_reducible apply within_say | with_reducible apply within_sayState | intro _ | split

theorem within_startF3 {o s : State} (h : Within o s) {x2} :
    Within o (State.startF3 s x2) := by
  unfold State.startF3
  repeat' first
    | with_reducible assumption | with_reducible apply within_modChan | with_reducible apply within_startStream

theorem within_startLoading {o s : State} (h : Within o s) {x2 x3} :
    Within o (State.startLoading s x2 x3) := by
  unfold State.startLoading
  try dsimp only
  repeat' first
    | with_reducible assumption | with_reducible apply within_sayTable | with_reducible apply within_modChan
    | with_reducible apply within_failTraining | intro _ | split

theorem within_stateInF3 {o s : State} (h : Within o s) {x2 x3} :
    Within o (State.stateInF3 s x2 x3) := by
  unfold State.stateInF3
  repeat' first
    | with_reducible assumption | with_reducible apply within_sayState | with_reducible apply within_leave
    | with_reducible apply within_modTrain | intro _ | split

theorem within_stateInTrain5 {o s : State} (h : Within o s) {x2 x3} :
    Within o (State.stateInTrain5 s x2 x3) := by
  unfold State.stateInTrain5
  repeat' first
    | with_reducible assumption | with_reducible apply within_failTraining | with_reducible apply within_modTrain
    | intro _ | split

theorem within_swapBegins {o s : State} (h : Within o s) {x2} :
    Within o (State.swapBegins s x2) := by
  unfold State.swapBegins
  repeat' first
    | with_reducible assumption | with_reducible apply within_modChan | with_reducible apply within_modQuality
    | with_reducible apply within_occurChan | split

theorem within_trainTick {o s : State} (h : Within o s) {x2} :
    Within o (State.trainTick s x2) := by
  unfold State.trainTick
  try dsimp only
  repeat' first
    | with_reducible assumption | with_reducible apply within_sayState | with_reducible apply within_sayTable
    | intro _ | split

theorem within_execDownNotice {o s : State} (h : Within o s) {x1 x2} :
    WithinR o (execDownNotice x1 x2 s) := by
  unfold execDownNotice
  try dsimp only
  repeat' first
    | with_reducible assumption | with_reducible apply within_onMessage | with_reducible apply within_arrive
    | with_reducible apply WithinR.next | intro _ | split

theorem within_restartSnr {o s} (h : Within o s) {x2} :
    Within o (State.restartSnr s x2) := by
  unfold State.restartSnr
  try dsimp only
  repeat' first
    | with_reducible assumption | with_reducible apply within_modChan | with_reducible apply Within.upd | rw [mk_upd]
    | with_reducible rfl | exact Nat.le_refl _ | intro _ | split

theorem within_execF1Acquired {o s} (h : Within o s) {x1} :
    WithinR o (execF1Acquired x1 s) := by
  unfold execF1Acquired
  try dsimp only
  repeat' first
    | with_reducible assumption | with_reducible apply within_modTrain | with_reducible apply within_restartSnr
    | with_reducible apply WithinR.next | with_reducible apply Within.upd | rw [mk_upd] | with_reducible rfl
    | exact Nat.le_refl _ | intro _ | split

theorem within_execF1Limit {o s : State} (h : Within o s) {x1} :
    WithinR o (execF1Limit x1 s) := by
  unfold execF1Limit
  try dsimp only
  repeat' first
    | with_reducible assumption | with_reducible apply within_arrive | with_reducible apply WithinR.next | intro _
    | split

theorem within_execF2End {o s : State} (h : Within o s) {x1 x2} :
    WithinR o (execF2End x1 x2 s) := by
  unfold execF2End
  try dsimp only
  repeat' first
    | with_reducible assumption | with_reducible apply within_startF3 | with_reducible apply within_arrive
    | with_reducible apply WithinR.next | intro _ | split

theorem within_execF3Limit {o s : State} (h : Within o s) {x1} :
    WithinR o (execF3Limit x1 s) := by
  unfold execF3Limit
  try dsimp only
  repeat' first
    | with_reducible assumption | with_reducible apply within_leave | with_reducible apply WithinR.next | intro _
    | split

theorem within_execLoadingTable {o s : State} (h : Within o s) {x1 x2} :
    WithinR o (execLoadingTable x1 x2 s) := by
  unfold execLoadingTable
  try dsimp only
  repeat' first
    | with_reducible assumption | with_reducible apply within_onMessage | with_reducible apply within_sayState
    | with_reducible apply within_modChan | with_reducible apply within_modTrain | with_reducible apply WithinR.next
    | intro _ | split

theorem within_execLoadingTableApply {o s : State} (h : Within o s) {x1} :
    WithinR o (execLoadingTableApply x1 s) := by
  unfold execLoadingTableApply
  try dsimp only
  repeat' first
    | with_reducible assumption | with_reducible apply within_checkData | with_reducible apply within_modChan
    | with_reducible apply within_say | with_reducible apply WithinR.next | intro _ | split

theorem within_countMissed {o s} (h : Within o s) {x2 x3} :
    Within o (State.countMissed s x2 x3) := by
  unfold State.countMissed
  try dsimp only
  repeat' first
    | with_reducible assumption | with_reducible apply within_modQuality | with_reducible apply Within.upd
    | rw [mk_upd] | with_reducible rfl | exact Nat.le_refl _ | intro _ | split

theorem within_execMissedSyncs {o s} (h : Within o s) {x1} :
    WithinR o (execMissedSyncs x1 s) := by
  unfold execMissedSyncs
  try dsimp only
  repeat' first
    | with_reducible assumption | with_reducible apply within_countMissed | with_reducible apply within_enterFast
    | with_reducible apply within_arrive | with_reducible apply WithinR.next | intro _ | split

theorem within_execSilenceToleranceExpiry {o s : State} (h : Within o s) {x1} :
    WithinR o (execSilenceToleranceExpiry x1 s) := by
  unfold execSilenceToleranceExpiry
  try dsimp only
  repeat' first
    | with_reducible assumption | with_reducible apply within_arrive | with_reducible apply WithinR.next | intro _
    | split

theorem within_execStateMessage {o s : State} (h : Within o s) {x1 x2} :
    WithinR o (execStateMessage x1 x2 s) := by
  unfold execStateMessage
  try dsimp only
  repeat' first
    | with_reducible assumption | with_reducible apply within_onMessage | with_reducible apply within_stateInF3
    | with_reducible apply within_stateInTrain5 | with_reducible apply WithinR.next | intro _ | split

theorem within_execSyncMinusS {o s : State} (h : Within o s) {x1} :
    WithinR o (execSyncMinusS x1 s) := by
  unfold execSyncMinusS
  try dsimp only
  repeat' first
    | with_reducible assumption | with_reducible apply within_rxStreamBegins
    | with_reducible apply within_rxTableBegins | with_reducible apply within_swapBegins
    | with_reducible apply WithinR.next | intro _ | split

theorem within_execTrain5Limit {o s : State} (h : Within o s) {x1} :
    WithinR o (execTrain5Limit x1 s) := by
  unfold execTrain5Limit
  try dsimp only
  repeat' first
    | with_reducible assumption | with_reducible apply within_failTraining | with_reducible apply WithinR.next
    | intro _ | split

theorem within_execTrainPhaseEnd {o s} (h : Within o s) {x1 x2} :
    WithinR o (execTrainPhaseEnd x1 x2 s) := by
  unfold execTrainPhaseEnd
  try dsimp only
  repeat' first
    | with_reducible assumption | with_reducible apply within_modChan | with_reducible apply within_setEcho
    | with_reducible apply within_nextPhase | with_reducible apply within_modTrain
    | with_reducible apply within_setPreEq | with_reducible apply within_linkRecord
    | with_reducible apply within_setMatrix | with_reducible apply within_restartSnr
    | with_reducible apply within_startStream | with_reducible apply within_startLoading
    | with_reducible apply WithinR.next | with_reducible apply Within.upd | rw [mk_upd] | with_reducible rfl
    | exact Nat.le_refl _ | intro _ | split

theorem within_modRx {o s : State} (h : Within o s) {x2 x3} :
    Within o (State.modRx s x2 x3) := by
  unfold State.modRx
  repeat' first
    | with_reducible assumption | with_reducible apply within_modChan

theorem within_stepGain {o s} (h : Within o s) {x2 x3} :
    Within o (State.stepGain s x2 x3) := by
  unfold State.stepGain
  try dsimp only
  repeat' first
    | with_reducible assumption | with_reducible apply within_modChan | with_reducible apply Within.upd | rw [mk_upd]
    | with_reducible rfl | exact Nat.le_refl _ | intro _ | split

theorem within_deferredGain {o s} (h : Within o s) {x2} :
    Within o (State.deferredGain s x2) := by
  unfold State.deferredGain
  try dsimp only
  repeat' first
    | with_reducible assumption | with_reducible apply within_modChan | with_reducible apply within_stepGain
    | with_reducible apply Within.upd | rw [mk_upd] | with_reducible rfl | exact Nat.le_refl _ | intro _ | split

theorem within_markTick {o s : State} (h : Within o s) {x2} :
    Within o (State.markTick s x2) := by
  unfold State.markTick
  repeat' first
    | with_reducible assumption | with_reducible apply within_modChan

theorem within_requestSwap {o s : State} (h : Within o s) {x2 x3} :
    Within o (State.requestSwap s x2 x3) := by
  unfold State.requestSwap
  repeat' first
    | with_reducible assumption | with_reducible apply within_sendLm | with_reducible apply within_modChan

theorem within_waitingSwap {o s : State} (h : Within o s) {x2} :
    Within o (State.waitingSwap s x2) := by
  unfold State.waitingSwap
  try dsimp only
  repeat' first
    | with_reducible assumption | with_reducible apply within_requestSwap | intro _ | split

theorem within_execAntiAliasCornerChange {o s : State} (h : Within o s) {x1} :
    WithinR o (execAntiAliasCornerChange x1 s) := by
  unfold execAntiAliasCornerChange
  try dsimp only
  repeat' first
    | with_reducible assumption | with_reducible apply within_modRx | with_reducible apply WithinR.next | intro _
    | split

theorem within_execBitSwapApply {o s : State} (h : Within o s) {x1} :
    WithinR o (execBitSwapApply x1 s) := by
  unfold execBitSwapApply
  try dsimp only
  repeat' first
    | with_reducible assumption | with_reducible apply within_modChan | with_reducible apply within_say
    | with_reducible apply WithinR.next | intro _ | split

theorem within_execBitSwapReply {o s : State} (h : Within o s) {x1 x2} :
    WithinR o (execBitSwapReply x1 x2 s) := by
  unfold execBitSwapReply
  try dsimp only
  repeat' first
    | with_reducible assumption | with_reducible apply within_onMessage | with_reducible apply within_modChan
    | with_reducible apply within_enterFast | with_reducible apply WithinR.next | intro _ | split

theorem within_execBitSwapRequest {o s : State} (h : Within o s) {x1 x2} :
    WithinR o (execBitSwapRequest x1 x2 s) := by
  unfold execBitSwapRequest
  try dsimp only
  repeat' first
    | with_reducible assumption | with_reducible apply within_onMessage | with_reducible apply within_sendLm
    | with_reducible apply within_modChan | with_reducible apply WithinR.next | intro _ | split

theorem within_execBitSwapResendTimeout {o s : State} (h : Within o s) {x1} :
    WithinR o (execBitSwapResendTimeout x1 s) := by
  unfold execBitSwapResendTimeout
  try dsimp only
  repeat' first
    | with_reducible assumption | with_reducible apply within_sendLm | with_reducible apply within_modChan
    | with_reducible apply within_enterFast | with_reducible apply WithinR.next | intro _ | split

theorem within_execEchoRetrainEnd {o s : State} (h : Within o s) {x1} :
    WithinR o (execEchoRetrainEnd x1 s) := by
  unfold execEchoRetrainEnd
  try dsimp only
  repeat' first
    | with_reducible assumption | with_reducible apply within_modRx | with_reducible apply within_useFresh
    | with_reducible apply WithinR.next | intro _ | split

theorem within_execEchoRetrainHoldoffEnd {o s : State} (h : Within o s) {x1 x2} :
    WithinR o (execEchoRetrainHoldoffEnd x1 x2 s) := by
  unfold execEchoRetrainHoldoffEnd
  try dsimp only
  repeat' first
    | with_reducible assumption | with_reducible apply within_enterFast | with_reducible apply within_modRx
    | with_reducible apply WithinR.next | intro _ | split

theorem within_execEchoRetrainStart {o s : State} (h : Within o s) {x1 x2} :
    WithinR o (execEchoRetrainStart x1 x2 s) := by
  unfold execEchoRetrainStart
  try dsimp only
  repeat' first
    | with_reducible assumption | with_reducible apply within_occurChan | with_reducible apply within_modRx
    | with_reducible apply WithinR.next | intro _ | split

theorem within_execGainTrackingStep {o s} (h : Within o s) {x1 x2} :
    WithinR o (execGainTrackingStep x1 x2 s) := by
  unfold execGainTrackingStep
  try dsimp only
  repeat' first
    | with_reducible assumption | with_reducible apply within_modRx | with_reducible apply within_stepGain
    | with_reducible apply WithinR.next | with_reducible apply Within.upd | rw [mk_upd] | with_reducible rfl
    | exact Nat.le_refl _ | intro _ | split

theorem within_execLoadingRecompute {o s} (h : Within o s) {x1 x2} :
    WithinR o (execLoadingRecompute x1 x2 s) := by
  unfold execLoadingRecompute
  try dsimp only
  repeat' first
    | with_reducible assumption | with_reducible apply within_restartSnr | with_reducible apply within_modChan
    | with_reducible apply within_leave | with_reducible apply within_requestSwap | with_reducible apply WithinR.next
    | with_reducible apply Within.upd | rw [mk_upd] | with_reducible rfl | exact Nat.le_refl _ | intro _ | split

theorem within_correctMatrix {o s} (h : Within o s) {x2} :
    Within o (State.correctMatrix s x2) := by
  unfold State.correctMatrix
  try dsimp only
  repeat' first
    | with_reducible assumption | with_reducible apply within_modRx | with_reducible apply within_useFresh
    | with_reducible apply Within.upd | rw [mk_upd] | with_reducible rfl | exact Nat.le_refl _ | intro _ | split

theorem within_execPreEqualiserUpdate {o s} (h : Within o s) {x1} :
    WithinR o (execPreEqualiserUpdate x1 s) := by
  unfold execPreEqualiserUpdate
  try dsimp only
  repeat' first
    | with_reducible assumption | with_reducible apply within_setPreEq | with_reducible apply within_correctMatrix
    | with_reducible apply within_modRx | with_reducible apply within_modChan | with_reducible apply WithinR.next
    | with_reducible apply Within.upd | rw [mk_upd] | with_reducible rfl | exact Nat.le_refl _ | intro _ | split

theorem within_execTransformWindowMove {o s} (h : Within o s) {x1 x2} :
    WithinR o (execTransformWindowMove x1 x2 s) := by
  unfold execTransformWindowMove
  try dsimp only
  repeat' first
    | with_reducible assumption | with_reducible apply within_modChan | with_reducible apply WithinR.next | intro _
    | split

theorem within_modQuiet {o s : State} (h : Within o s) {x2 x3} :
    Within o (State.modQuiet s x2 x3) := by
  unfold State.modQuiet
  repeat' first
    | with_reducible assumption | with_reducible apply within_modChan

theorem within_quietOver {o s : State} (h : Within o s) {x2} :
    Within o (State.quietOver s x2) := by
  unfold State.quietOver
  try dsimp only
  repeat' first
    | with_reducible assumption | with_reducible apply within_modChan | with_reducible apply within_modQuiet
    | with_reducible apply within_move | intro _ | split

theorem within_ownAlert {o s} (h : Within o s) {x2} :
    Within o (State.ownAlert s x2) := by
  unfold State.ownAlert
  try dsimp only
  repeat' first
    | with_reducible assumption | with_reducible apply within_modQuiet | with_reducible apply within_quietOver
    | with_reducible apply WithinO.some | with_reducible exact WithinO.none | with_reducible apply Within.upd
    | rw [mk_upd] | with_reducible rfl | exact Nat.le_refl _ | intro _ | split

theorem within_farAlert {o s} (h : Within o s) {x2} :
    Within o (State.farAlert s x2) := by
  unfold State.farAlert
  try dsimp only
  repeat' first
    | with_reducible assumption | with_reducible apply within_modQuiet | with_reducible apply within_modChan
    | with_reducible apply within_quietOver | with_reducible apply WithinO.some | with_reducible exact WithinO.none
    | with_reducible apply Within.upd | rw [mk_upd] | with_reducible rfl | exact Nat.le_refl _ | intro _ | split

theorem within_alertTick {o s} (h : Within o s) {x2} :
    Within o (State.alertTick s x2) := by
  unfold State.alertTick
  try dsimp only
  repeat' first
    | with_reducible assumption | with_reducible apply within_ownAlert | with_reducible apply within_farAlert
    | with_reducible apply within_modQuiet | with_reducible apply Within.upd | rw [mk_upd] | with_reducible rfl
    | exact Nat.le_refl _ | intro _ | split

theorem within_beginAlert {o s : State} (h : Within o s) {x2} :
    Within o (State.beginAlert s x2) := by
  unfold State.beginAlert
  repeat' first
    | with_reducible assumption | with_reducible apply within_say | with_reducible apply within_modQuiet

theorem within_execAlertAnswerTimeout {o s : State} (h : Within o s) {x1} :
    WithinR o (execAlertAnswerTimeout x1 s) := by
  unfold execAlertAnswerTimeout
  try dsimp only
  repeat' first
    | with_reducible assumption | with_reducible apply within_enterFast | with_reducible apply WithinR.next | intro _
    | split

theorem within_execAlertDetected {o s : State} (h : Within o s) {x1} :
    WithinR o (execAlertDetected x1 s) := by
  unfold execAlertDetected
  try dsimp only
  repeat' first
    | with_reducible assumption | with_reducible apply within_quietOver | with_reducible apply within_modQuiet
    | with_reducible apply within_beginAlert | with_reducible apply WithinR.next | intro _ | split

theorem within_execQuietIdleTimeout {o s : State} (h : Within o s) {x1} :
    WithinR o (execQuietIdleTimeout x1 s) := by
  unfold execQuietIdleTimeout
  try dsimp only
  repeat' first
    | with_reducible assumption | with_reducible apply within_sendLm | with_reducible apply within_modQuiet
    | with_reducible apply WithinR.next | intro _ | split

theorem within_execQuietRefresh {o s} (h : Within o s) {x1} :
    WithinR o (execQuietRefresh x1 s) := by
  unfold execQuietRefresh
  try dsimp only
  repeat' first
    | with_reducible assumption | with_reducible apply within_modQuiet | with_reducible apply within_say
    | with_reducible apply WithinR.next | with_reducible apply Within.upd | rw [mk_upd] | with_reducible rfl
    | exact Nat.le_refl _ | intro _ | split

theorem within_execQuietReply {o s} (h : Within o s) {x1 x2} :
    WithinR o (execQuietReply x1 x2 s) := by
  unfold execQuietReply
  try dsimp only
  repeat' first
    | with_reducible assumption | with_reducible apply within_onMessage | with_reducible apply within_modChan
    | with_reducible apply within_modQuiet | with_reducible apply WithinR.next | with_reducible apply Within.upd
    | rw [mk_upd] | with_reducible rfl | exact Nat.le_refl _ | intro _ | split

theorem within_execQuietReplyTimeout {o s : State} (h : Within o s) {x1} :
    WithinR o (execQuietReplyTimeout x1 s) := by
  unfold execQuietReplyTimeout
  try dsimp only
  repeat' first
    | with_reducible assumption | with_reducible apply within_modQuiet | with_reducible apply WithinR.next | intro _
    | split

theorem within_execQuietRequest {o s : State} (h : Within o s) {x1 x2} :
    WithinR o (execQuietRequest x1 x2 s) := by
  unfold execQuietRequest
  try dsimp only
  repeat' first
    | with_reducible assumption | with_reducible apply within_onMessage | with_reducible apply within_sendLm
    | with_reducible apply within_modQuiet | with_reducible apply WithinR.next | intro _ | split

theorem within_execQuietStreamsEnded {o s} (h : Within o s) {x1} :
    WithinR o (execQuietStreamsEnded x1 s) := by
  unfold execQuietStreamsEnded
  try dsimp only
  repeat' first
    | with_reducible assumption | with_reducible apply within_move | with_reducible apply within_modChan
    | with_reducible apply WithinR.next | with_reducible apply Within.upd | rw [mk_upd] | with_reducible rfl
    | exact Nat.le_refl _ | intro _ | split

theorem within_execQuietWorkPending {o s : State} (h : Within o s) {x1} :
    WithinR o (execQuietWorkPending x1 s) := by
  unfold execQuietWorkPending
  repeat' first
    | with_reducible assumption | with_reducible apply within_beginAlert | with_reducible apply WithinR.next | intro _
    | split

theorem within_execRefreshMissed {o s} (h : Within o s) {x1} :
    WithinR o (execRefreshMissed x1 s) := by
  unfold execRefreshMissed
  try dsimp only
  repeat' first
    | with_reducible assumption | with_reducible apply within_countMissed | with_reducible apply within_enterFast
    | with_reducible apply WithinR.next | intro _ | split

end Sys2Proof.Machine
end

