-- ==== Sys2Proof/Laws/WithinPort.lean ====
section
/-! SUPPORT. Every operation of the host link, the start record, wake and the channel items stays inside a stage (`Within`). -/

namespace Sys2Proof.Machine

theorem within_setTelem {o s : State} (h : Within o s) {x2 x3} :
    Within o (State.setTelem s x2 x3) := by
  unfold State.setTelem
  repeat' first
    | with_reducible assumption | with_reducible apply Within.upd | rw [mk_upd] | with_reducible rfl
    | exact Nat.le_refl _ | intro _ | split

theorem within_wakeMatch {o s : State} (h : Within o s) {x2} :
    Within o (State.wakeMatch s x2) := by
  unfold State.wakeMatch
  repeat' first
    | with_reducible assumption | with_reducible apply within_modChan | with_reducible apply within_writeWake | split

theorem within_wakeMatches {o s : State} (h : Within o s) {x1} :
    Within o (wakeMatches x1 s) := by
  fun_induction wakeMatches x1 s
  repeat' first
    | with_reducible assumption | with_reducible refine (‹Within o _ → Within o _›) ?_
    | with_reducible apply within_wakeMatch

theorem within_wakeRecords {o s : State} (h : Within o s) {x2} :
    Within o (State.wakeRecords s x2) := by
  unfold State.wakeRecords
  repeat' first
    | with_reducible assumption | with_reducible apply within_wakeMatches | with_reducible apply within_writeBuffered
    | with_reducible apply within_releaseWake | intro _ | split

theorem within_writeStart {o s : State} (h : Within o s) {x2} :
    Within o (State.writeStart s x2) := by
  unfold State.writeStart
  repeat' first
    | with_reducible assumption | with_reducible apply within_modRings | with_reducible apply within_record
    | with_reducible apply within_wakeRecords | with_reducible apply within_setTelem | with_reducible apply Within.upd
    | rw [mk_upd] | with_reducible rfl | exact Nat.le_refl _ | intro _ | split

theorem within_sayResent {o s : State} (h : Within o s) {x1 x2} :
    Within o (sayResent x1 x2 s) := by
  fun_induction sayResent x1 x2 s
  repeat' first
    | with_reducible assumption | with_reducible refine (‹Within o _ → Within o _›) ?_
    | with_reducible apply within_say
    | with_reducible apply within_modLink
    | intro _
    | split

theorem within_bringUp {o s : State} (h : Within o s) {x2} :
    Within o (State.bringUp s x2) := by
  unfold State.bringUp
  try dsimp only
  repeat' first
    | with_reducible assumption | with_reducible apply within_sayResent | with_reducible apply within_pump
    | with_reducible apply within_setLink | intro _ | split

theorem within_owedStart {o s} (h : Within o s) {x2} :
    Within o (State.owedStart s x2) := by
  unfold State.owedStart
  try dsimp only
  repeat' first
    | with_reducible assumption | with_reducible apply within_writeStart | intro _ | split

theorem within_trained {o s} (h : Within o s) {x2} :
    Within o (State.trained s x2) := by
  unfold State.trained
  try dsimp only
  repeat' first
    | with_reducible assumption | with_reducible apply within_bringUp | with_reducible apply within_owedStart
    | intro _ | split

theorem within_alignOn {o s} (h : Within o s) {x2 x3} :
    Within o (State.alignOn s x2 x3) := by
  unfold State.alignOn
  try dsimp only
  repeat' first
    | with_reducible assumption | with_reducible apply within_trained | with_reducible apply within_setLink
    | with_reducible apply within_advance | with_reducible apply Within.upd | rw [mk_upd] | with_reducible rfl
    | exact Nat.le_refl _ | intro _ | split

theorem within_execAlignRow {o s} (h : Within o s) {x1 x2} :
    WithinR o (execAlignRow x1 x2 s) := by
  unfold execAlignRow
  try dsimp only
  repeat' first
    | with_reducible assumption | with_reducible apply within_alignOn | with_reducible apply WithinR.next | intro _
    | split

theorem within_execLinkParametersFrame {o s : State} (h : Within o s) {x1 x2} :
    WithinR o (execLinkParametersFrame x1 x2 s) := by
  unfold execLinkParametersFrame
  try dsimp only
  repeat' first
    | with_reducible assumption | with_reducible apply within_setLink | with_reducible apply WithinR.next | intro _
    | split

theorem within_modWake {o s : State} (h : Within o s) {x2 x3} :
    Within o (State.modWake s x2 x3) := by
  unfold State.modWake
  repeat' first
    | with_reducible assumption | with_reducible apply within_modChan

theorem within_restoreWoken {o s : State} (h : Within o s) {x2} :
    Within o (State.restoreWoken s x2) := by
  unfold State.restoreWoken
  repeat' first
    | with_reducible assumption | with_reducible apply within_modWake

theorem within_woken {o s : State} (h : Within o s) {x2 x3 x4} :
    Within o (State.woken s x2 x3 x4) := by
  unfold State.woken
  try dsimp only
  repeat' first
    | with_reducible assumption | with_reducible apply within_modWake | with_reducible apply within_restoreWoken
    | with_reducible apply Within.upd | rw [mk_upd] | with_reducible rfl | exact Nat.le_refl _ | intro _ | split

theorem within_execFalseWakeTimeout {o s : State} (h : Within o s) {x1} :
    WithinR o (execFalseWakeTimeout x1 s) := by
  unfold execFalseWakeTimeout
  try dsimp only
  repeat' first
    | with_reducible assumption | with_reducible apply within_modWake | with_reducible apply within_leaveNoticed
    | with_reducible apply within_move | with_reducible apply WithinR.next | intro _ | split

theorem within_execSleepNotice {o s : State} (h : Within o s) {x1 x2} :
    WithinR o (execSleepNotice x1 x2 s) := by
  unfold execSleepNotice
  try dsimp only
  repeat' first
    | with_reducible assumption | with_reducible apply within_onMessage | with_reducible apply within_move
    | with_reducible apply WithinR.next | intro _ | split

theorem within_execWakeAnswerLimit {o s : State} (h : Within o s) {x1} :
    WithinR o (execWakeAnswerLimit x1 s) := by
  unfold execWakeAnswerLimit
  try dsimp only
  repeat' first
    | with_reducible assumption | with_reducible apply within_arrive | with_reducible apply WithinR.next | intro _
    | split

theorem within_takeWakeFrame {o s} (h : Within o s) {x2 x3 x4 x5} :
    Within o (State.takeWakeFrame s x2 x3 x4 x5) := by
  unfold State.takeWakeFrame
  try dsimp only
  repeat' first
    | with_reducible assumption | with_reducible apply within_modWake | with_reducible apply within_woken
    | with_reducible apply Within.upd | rw [mk_upd] | with_reducible rfl | exact Nat.le_refl _ | intro _ | split

theorem within_execWakeFrameDecoded {o s} (h : Within o s) {x1 x2 x3 x4 x5} :
    WithinR o (execWakeFrameDecoded x1 x2 x3 x4 x5 s) := by
  unfold execWakeFrameDecoded
  try dsimp only
  repeat' first
    | with_reducible assumption | with_reducible apply within_takeWakeFrame | with_reducible apply WithinR.next
    | intro _ | split

theorem within_execWakeFramesSent {o s : State} (h : Within o s) {x1} :
    WithinR o (execWakeFramesSent x1 s) := by
  unfold execWakeFramesSent
  try dsimp only
  repeat' first
    | with_reducible assumption | with_reducible apply within_beginFast | with_reducible apply within_modWake
    | with_reducible apply within_result | with_reducible apply within_arrive | with_reducible apply WithinR.next
    | intro _ | split

theorem within_execWakeRestoreDone {o s : State} (h : Within o s) {x1} :
    WithinR o (execWakeRestoreDone x1 s) := by
  unfold execWakeRestoreDone
  try dsimp only
  repeat' first
    | with_reducible assumption | with_reducible apply within_beginFast | with_reducible apply within_modWake
    | with_reducible apply WithinR.next | intro _ | split

theorem within_bringChannelUp {o s : State} (h : Within o s) {x2 x3 x4 x5 x6} :
    Within o (State.bringChannelUp s x2 x3 x4 x5 x6) := by
  unfold State.bringChannelUp
  repeat' first
    | with_reducible assumption | with_reducible apply within_modWake | with_reducible apply within_arrive
    | with_reducible apply within_say | split

theorem within_channelItem {o s : State} (h : Within o s) {x2 x3 x4 x5 x6} (k : ∀ t, Within o t → WithinO o (x6 t)) :
    WithinO o (State.channelItem s x2 x3 x4 x5 x6) := by
  unfold State.channelItem
  repeat' first
    | with_reducible assumption | with_reducible apply k | with_reducible apply within_result
    | with_reducible apply within_startItem | with_reducible apply WithinO.ite | with_reducible apply WithinO.some
    | with_reducible exact WithinO.none | intro _

theorem within_sleepChannel {o s : State} (h : Within o s) {x2} :
    Within o (State.sleepChannel s x2) := by
  unfold State.sleepChannel
  try dsimp only
  repeat' first
    | with_reducible assumption | with_reducible apply within_leaveNoticed | with_reducible apply within_move
    | intro _ | split

theorem within_execChannelDown {o s : State} (h : Within o s) {x1 x2} :
    WithinR o (execChannelDown x1 x2 s) := by
  unfold execChannelDown
  repeat' first
    | with_reducible assumption | with_reducible apply within_leave | with_reducible apply within_onItem
    | with_reducible apply within_channelItem | with_reducible apply within_modWake
    | with_reducible apply within_stopSending | with_reducible apply within_result
    | with_reducible apply within_modQuiet | with_reducible apply WithinO.ite | with_reducible apply WithinO.some
    | with_reducible exact WithinO.none | with_reducible apply WithinR.next | intro _ | split

theorem within_execChannelQuiet {o s : State} (h : Within o s) {x1 x2} :
    WithinR o (execChannelQuiet x1 x2 s) := by
  unfold execChannelQuiet
  repeat' first
    | with_reducible assumption | with_reducible apply within_onItem | with_reducible apply within_channelItem
    | with_reducible apply within_result | with_reducible apply within_modQuiet | with_reducible apply WithinO.ite
    | with_reducible apply WithinO.some | with_reducible exact WithinO.none | with_reducible apply WithinR.next
    | intro _ | split

theorem within_execChannelSleep {o s : State} (h : Within o s) {x1 x2} :
    WithinR o (execChannelSleep x1 x2 s) := by
  unfold execChannelSleep
  repeat' first
    | with_reducible assumption | with_reducible apply within_onItem | with_reducible apply within_channelItem
    | with_reducible apply within_modWake | with_reducible apply within_stopSending
    | with_reducible apply within_result | with_reducible apply within_sleepChannel | with_reducible apply WithinO.ite
    | with_reducible apply WithinO.some | with_reducible exact WithinO.none | with_reducible apply WithinR.next
    | intro _ | split

theorem within_execChannelUp {o s : State} (h : Within o s) {x1 x2} :
    WithinR o (execChannelUp x1 x2 s) := by
  unfold execChannelUp
  repeat' first
    | with_reducible assumption | with_reducible apply within_bringChannelUp | with_reducible apply within_onItem
    | with_reducible apply within_channelItem | with_reducible apply within_result
    | with_reducible apply within_modQuiet | with_reducible apply WithinO.ite | with_reducible apply WithinO.some
    | with_reducible exact WithinO.none | with_reducible apply WithinR.next | intro _ | split

theorem within_execEnterDormant {o s : State} (h : Within o s) {x1 x2} :
    WithinR o (execEnterDormant x1 x2 s) := by
  unfold execEnterDormant
  repeat' first
    | with_reducible assumption | with_reducible apply within_onItem | with_reducible apply within_result
    | with_reducible apply within_startItem | with_reducible apply Within.upd | with_reducible apply WithinO.ite
    | rw [mk_upd] | with_reducible apply WithinO.some | with_reducible exact WithinO.none
    | with_reducible apply WithinR.next | with_reducible rfl | exact Nat.le_refl _ | intro _ | split

theorem within_execInjectCheckInversion {o s : State} (h : Within o s) {x1 x2} :
    WithinR o (execInjectCheckInversion x1 x2 s) := by
  unfold execInjectCheckInversion
  repeat' first
    | with_reducible assumption | with_reducible apply within_onItem | with_reducible apply within_result
    | with_reducible apply within_startItem | with_reducible apply Within.upd | with_reducible apply WithinO.ite
    | rw [mk_upd] | with_reducible apply WithinO.some | with_reducible exact WithinO.none
    | with_reducible apply WithinR.next | with_reducible rfl | exact Nat.le_refl _ | intro _ | split

theorem within_execInjectionLimitExpiry {o s : State} (h : Within o s) {x1} :
    WithinR o (execInjectionLimitExpiry x1 s) := by
  unfold execInjectionLimitExpiry
  repeat' first
    | with_reducible assumption | with_reducible apply within_result | with_reducible apply Within.upd | rw [mk_upd]
    | with_reducible apply WithinR.next | with_reducible rfl | exact Nat.le_refl _ | intro _ | split

theorem within_execMarginOverride {o s : State} (h : Within o s) {x1 x2} :
    WithinR o (execMarginOverride x1 x2 s) := by
  unfold execMarginOverride
  repeat' first
    | with_reducible assumption | with_reducible apply within_modChan | with_reducible apply within_onItem
    | with_reducible apply within_channelItem | with_reducible apply within_result | with_reducible apply WithinO.ite
    | with_reducible apply WithinO.some | with_reducible exact WithinO.none | with_reducible apply WithinR.next
    | intro _ | split

theorem within_sendTraining {o s} (h : Within o s) {x2} :
    Within o (State.sendTraining s x2) := by
  unfold State.sendTraining
  try dsimp only
  repeat' first
    | with_reducible assumption | with_reducible apply within_useFresh | with_reducible apply within_modLink | intro _
    | split

theorem within_beginAttempt {o s} (h : Within o s) {x2} :
    Within o (State.beginAttempt s x2) := by
  unfold State.beginAttempt
  try dsimp only
  repeat' first
    | with_reducible assumption | with_reducible apply within_modLink | with_reducible apply within_sendTraining
    | intro _ | split

theorem within_retrainPort {o s} (h : Within o s) {x2 x3} :
    Within o (State.retrainPort s x2 x3) := by
  unfold State.retrainPort
  try dsimp only
  repeat' first
    | with_reducible assumption | with_reducible apply within_sayLink | with_reducible apply within_beginAttempt
    | intro _ | split

theorem within_resendAll {o s : State} (h : Within o s) {x2} :
    Within o (State.resendAll s x2) := by
  unfold State.resendAll
  try dsimp only
  repeat' first
    | with_reducible assumption | with_reducible apply within_sayResent | with_reducible apply within_setLink
    | intro _ | split

theorem within_execReplayInterval {o s : State} (h : Within o s) {x1} :
    WithinR o (execReplayInterval x1 s) := by
  unfold execReplayInterval
  repeat' first
    | with_reducible assumption | with_reducible apply within_retrainPort | with_reducible apply within_resendAll
    | with_reducible apply WithinR.next | intro _ | split

theorem within_execBlockLockLost {o s} (h : Within o s) {x1 x2 x3} :
    WithinR o (execBlockLockLost x1 x2 x3 s) := by
  unfold execBlockLockLost
  try dsimp only
  repeat' first
    | with_reducible assumption | with_reducible apply within_retrainPort | with_reducible apply WithinR.next
    | intro _ | split

theorem within_execRetrain {o s} (h : Within o s) {x1 x2} :
    WithinR o (execRetrain x1 x2 s) := by
  unfold execRetrain
  try dsimp only
  repeat' first
    | with_reducible assumption | with_reducible apply within_beginAttempt | with_reducible apply WithinR.next
    | intro _ | split

theorem within_answerTraining {o s} (h : Within o s) {x2 x3} :
    Within o (State.answerTraining s x2 x3) := by
  unfold State.answerTraining
  try dsimp only
  repeat' first
    | with_reducible assumption | with_reducible apply within_sendTraining | intro _ | split

theorem within_execTrainBlock {o s} (h : Within o s) {x1 x2 x3} :
    WithinR o (execTrainBlock x1 x2 x3 s) := by
  unfold execTrainBlock
  try dsimp only
  repeat' first
    | with_reducible assumption | with_reducible apply within_beginAttempt | with_reducible apply within_setLink
    | with_reducible apply within_answerTraining | with_reducible apply WithinR.next | intro _ | split

theorem within_ignoreFrame {o s} (h : Within o s) {x2 x3} :
    Within o (State.ignoreFrame s x2 x3) := by
  unfold State.ignoreFrame
  try dsimp only
  repeat' first
    | with_reducible assumption | with_reducible apply within_hostLinkError | with_reducible apply within_returnCredit
    | intro _ | split

theorem within_execFrameNotActedOn {o s} (h : Within o s) {x1 x2 x3 x4} :
    WithinR o (execFrameNotActedOn x1 x2 x3 x4 s) := by
  unfold execFrameNotActedOn
  try dsimp only
  repeat' first
    | with_reducible assumption | with_reducible apply within_onFrame | with_reducible apply within_ignoreFrame
    | with_reducible apply within_modLink | with_reducible apply WithinR.next | with_reducible apply Within.upd
    | rw [mk_upd] | with_reducible rfl | exact Nat.le_refl _ | intro _ | split

theorem within_execNak {o s : State} (h : Within o s) {x1 x2} :
    WithinR o (execNak x1 x2 s) := by
  unfold execNak
  repeat' first
    | with_reducible assumption | with_reducible apply within_modLink | with_reducible apply within_pump
    | with_reducible apply within_resendAll | with_reducible apply WithinR.next | intro _ | split

theorem within_execPortStabilityCountDone {o s : State} (h : Within o s) {x1} :
    WithinR o (execPortStabilityCountDone x1 s) := by
  unfold execPortStabilityCountDone
  repeat' first
    | with_reducible assumption | with_reducible apply within_modLink | with_reducible apply WithinR.next | intro _
    | split

theorem within_sendParams {o s} (h : Within o s) {x2} :
    Within o (State.sendParams s x2) := by
  unfold State.sendParams
  try dsimp only
  repeat' first
    | with_reducible assumption | with_reducible apply within_say | with_reducible apply within_modLink | intro _
    | split

theorem within_execParametersFrameInterval {o s} (h : Within o s) {x1} :
    WithinR o (execParametersFrameInterval x1 s) := by
  unfold execParametersFrameInterval
  try dsimp only
  repeat' first
    | with_reducible assumption | with_reducible apply within_sendParams | with_reducible apply WithinR.next | intro _
    | split

theorem within_execTrainingPhaseLimit {o s : State} (h : Within o s) {x1} :
    WithinR o (execTrainingPhaseLimit x1 s) := by
  unfold execTrainingPhaseLimit
  repeat' first
    | with_reducible assumption | with_reducible apply within_modLink | with_reducible apply WithinR.next | intro _
    | split

theorem within_portClockBack {o s} (h : Within o s) {x2} :
    Within o (State.portClockBack s x2) := by
  unfold State.portClockBack
  try dsimp only
  repeat' first
    | with_reducible assumption | with_reducible apply within_modLink | with_reducible apply within_grantDoorbells
    | with_reducible apply within_pump | with_reducible apply Within.upd | rw [mk_upd] | with_reducible rfl
    | exact Nat.le_refl _ | intro _ | split

theorem within_execPortClockReturn {o s} (h : Within o s) {x1} :
    WithinR o (execPortClockReturn x1 s) := by
  unfold execPortClockReturn
  try dsimp only
  repeat' first
    | with_reducible assumption | with_reducible apply within_portClockBack | with_reducible apply WithinR.next
    | intro _ | split

theorem within_refuseFrame {o s} (h : Within o s) {x2 x3} :
    Within o (State.refuseFrame s x2 x3) := by
  unfold State.refuseFrame
  try dsimp only
  repeat' first
    | with_reducible assumption | with_reducible apply within_badFrame | with_reducible apply within_injected
    | with_reducible apply within_sayAck | with_reducible apply within_sayNak | intro _ | split

theorem within_execHostFrameBad {o s} (h : Within o s) {x1 x2} :
    WithinR o (execHostFrameBad x1 x2 s) := by
  unfold execHostFrameBad
  try dsimp only
  repeat' first
    | with_reducible assumption | with_reducible apply within_refuseFrame | with_reducible apply WithinR.next
    | intro _ | split

theorem within_execCreditRepeat {o s : State} (h : Within o s) {x1} :
    WithinR o (execCreditRepeat x1 s) := by
  unfold execCreditRepeat
  repeat' first
    | with_reducible assumption | with_reducible apply within_sayLink | with_reducible apply WithinR.next | intro _
    | split

theorem within_execHostTrainAttemptStart {o s} (h : Within o s) {x1} :
    WithinR o (execHostTrainAttemptStart x1 s) := by
  unfold execHostTrainAttemptStart
  try dsimp only
  repeat' first
    | with_reducible assumption | with_reducible apply within_beginAttempt | with_reducible apply WithinR.next
    | intro _ | split

theorem within_execAckRepeat {o s : State} (h : Within o s) {x1} :
    WithinR o (execAckRepeat x1 s) := by
  unfold execAckRepeat
  repeat' first
    | with_reducible assumption | with_reducible apply within_sayAck | with_reducible apply WithinR.next | intro _
    | split

theorem within_execPortClockStop {o s : State} (h : Within o s) {x1} :
    WithinR o (execPortClockStop x1 s) := by
  unfold execPortClockStop
  repeat' first
    | with_reducible assumption | with_reducible apply within_modLink | with_reducible apply WithinR.next | intro _
    | split

theorem within_execAttemptIdleEnd {o s} (h : Within o s) {x1} :
    WithinR o (execAttemptIdleEnd x1 s) := by
  unfold execAttemptIdleEnd
  try dsimp only
  repeat' first
    | with_reducible assumption | with_reducible apply within_beginAttempt | with_reducible apply WithinR.next
    | intro _ | split

theorem within_execAck {o s : State} (h : Within o s) {x1 x2} :
    WithinR o (execAck x1 x2 s) := by
  unfold execAck
  repeat' first
    | with_reducible assumption | with_reducible apply within_modLink | with_reducible apply within_pump
    | with_reducible apply WithinR.next | intro _ | split

theorem within_execTagHoldExpiry {o s : State} (h : Within o s) {x1 x2} :
    WithinR o (execTagHoldExpiry x1 x2 s) := by
  unfold execTagHoldExpiry
  repeat' first
    | with_reducible assumption | with_reducible apply within_modLink | with_reducible apply within_pump
    | with_reducible apply WithinR.next | intro _ | split

theorem within_execCredit {o s : State} (h : Within o s) {x1 x2} :
    WithinR o (execCredit x1 x2 s) := by
  unfold execCredit
  repeat' first
    | with_reducible assumption | with_reducible apply within_modLink | with_reducible apply within_pump
    | with_reducible apply WithinR.next | intro _ | split

end Sys2Proof.Machine
end

