-- ==== Sys2Proof/Laws/WithinTasks.lean ====
section
/-! SUPPORT. Every operation of the background tasks, calibration, dormant entry and the clocks stays inside a stage (`Within`). -/

namespace Sys2Proof.Machine

theorem within_adoptSet {o s : State} (h : Within o s) {x2 x3} :
    Within o (State.adoptSet s x2 x3) := by
  unfold State.adoptSet
  repeat' first
    | with_reducible assumption | with_reducible apply Within.upd | rw [mk_upd] | with_reducible rfl
    | exact Nat.le_refl _ | intro _

theorem within_newTemp {o s : State} (h : Within o s) {x2} :
    Within o (State.newTemp s x2) := by
  unfold State.newTemp
  repeat' first
    | with_reducible assumption | with_reducible apply Within.upd | rw [mk_upd] | with_reducible rfl
    | exact Nat.le_refl _ | intro _

theorem within_stepChan {o s : State} (h : Within o s) {x2} :
    Within o (State.stepChan s x2) := by
  unfold State.stepChan
  try dsimp only
  repeat' first
    | with_reducible assumption | with_reducible apply Within.upd | rw [mk_upd] | with_reducible rfl
    | exact Nat.le_refl _ | intro _ | split

theorem within_stepLane {o s : State} (h : Within o s) {x2} :
    Within o (State.stepLane s x2) := by
  unfold State.stepLane
  try dsimp only
  repeat' first
    | with_reducible assumption | with_reducible apply Within.upd | rw [mk_upd] | with_reducible rfl
    | exact Nat.le_refl _ | intro _ | split

theorem within_stepLanes {o s : State} (h : Within o s) {x1} :
    Within o (stepLanes x1 s) := by
  fun_induction stepLanes x1 s
  repeat' first
    | with_reducible assumption | with_reducible refine (‹Within o _ → Within o _›) ?_
    | with_reducible apply within_stepLane

theorem within_stepChans {o s : State} (h : Within o s) {x1} :
    Within o (stepChans x1 s) := by
  fun_induction stepChans x1 s
  repeat' first
    | with_reducible assumption | with_reducible refine (‹Within o _ → Within o _›) ?_
    | with_reducible apply within_stepChan

theorem within_stepTrims {o s : State} (h : Within o s) :
    Within o (State.stepTrims s) := by
  unfold State.stepTrims
  repeat' first
    | with_reducible assumption | with_reducible apply within_stepLanes | with_reducible apply within_stepChans
    | with_reducible apply Within.upd | rw [mk_upd] | with_reducible rfl | exact Nat.le_refl _ | intro _ | split

theorem within_summary {o s : State} (h : Within o s) {x2 x3} :
    Within o (State.summary s x2 x3) := by
  unfold State.summary
  repeat' first
    | with_reducible assumption | with_reducible apply within_record

theorem within_endTask {o s : State} (h : Within o s) {x2 x3 x4} :
    Within o (State.endTask s x2 x3 x4) := by
  unfold State.endTask
  repeat' first
    | with_reducible assumption | with_reducible apply within_result | split

theorem within_failCalibration {o s : State} (h : Within o s) {x2 x3 x4 x5 x6} :
    Within o (State.failCalibration s x2 x3 x4 x5 x6) := by
  unfold State.failCalibration
  repeat' first
    | with_reducible assumption | with_reducible apply within_summary | with_reducible apply within_endTask
    | with_reducible apply Within.upd | rw [mk_upd] | with_reducible rfl | exact Nat.le_refl _ | intro _

theorem within_abandonCalibration {o s : State} (h : Within o s) {x2} :
    Within o (State.abandonCalibration s x2) := by
  unfold State.abandonCalibration
  repeat' first
    | with_reducible assumption | with_reducible apply within_failCalibration | split

theorem within_commandByPin {o s : State} (h : Within o s) :
    Within o (State.commandByPin s) := by
  unfold State.commandByPin
  repeat' first
    | with_reducible assumption | with_reducible apply Within.upd | rw [mk_upd] | with_reducible rfl
    | exact Nat.le_refl _ | intro _

theorem within_settleTask {o s} (h : Within o s) {x2} :
    Within o (State.settleTask s x2) := by
  unfold State.settleTask
  try dsimp only
  repeat' first
    | with_reducible assumption | with_reducible apply within_endTask | with_reducible apply Within.upd | rw [mk_upd]
    | with_reducible rfl | exact Nat.le_refl _ | intro _ | split

theorem within_endSounding {o s : State} (h : Within o s) {x2 x3} (k : ∀ t, Within o t → Within o (x3 t)) :
    Within o (State.endSounding s x2 x3) := by
  unfold State.endSounding
  try dsimp only
  repeat' first
    | with_reducible assumption | with_reducible apply k | with_reducible apply within_record | with_reducible apply within_writeBuffered
    | with_reducible apply within_settleTask | with_reducible apply Within.upd | rw [mk_upd] | with_reducible rfl
    | exact Nat.le_refl _ | intro _ | split

theorem within_endUnmeasured {o s : State} (h : Within o s) {x2 x3} :
    Within o (State.endUnmeasured s x2 x3) := by
  unfold State.endUnmeasured
  repeat' first
    | with_reducible assumption | with_reducible apply within_endSounding | with_reducible apply within_record
    | intro _ | split

theorem within_modCalib {o s : State} (h : Within o s) {x2} :
    Within o (State.modCalib s x2) := by
  unfold State.modCalib
  repeat' first
    | with_reducible assumption | with_reducible apply Within.upd | rw [mk_upd] | with_reducible rfl
    | exact Nat.le_refl _ | intro _

theorem within_noiseEnds {o s : State} (h : Within o s) {x2 x3 x4 x5 x6} :
    Within o (State.noiseEnds s x2 x3 x4 x5 x6) := by
  unfold State.noiseEnds
  repeat' first
    | with_reducible assumption | with_reducible apply within_endSounding | with_reducible apply within_record
    | intro _

theorem within_setTask {o s : State} (h : Within o s) {x2 x3} :
    Within o (State.setTask s x2 x3) := by
  unfold State.setTask
  repeat' first
    | with_reducible assumption | with_reducible apply Within.upd | rw [mk_upd] | with_reducible rfl
    | exact Nat.le_refl _ | intro _

theorem within_soundingEnds {o s : State} (h : Within o s) {x2 x3 x4 x5 x6} :
    Within o (State.soundingEnds s x2 x3 x4 x5 x6) := by
  unfold State.soundingEnds
  repeat' first
    | with_reducible assumption | with_reducible apply within_endSounding | with_reducible apply within_record
    | intro _

theorem within_startTask {o s} (h : Within o s) {x2} :
    Within o (State.startTask s x2) := by
  unfold State.startTask
  try dsimp only
  repeat' first
    | with_reducible assumption | with_reducible apply within_setTask | with_reducible apply within_modCalib
    | with_reducible apply within_failCalibration | with_reducible apply within_endUnmeasured
    | with_reducible apply within_modChan | with_reducible apply Within.upd | rw [mk_upd] | with_reducible rfl
    | exact Nat.le_refl _ | intro _ | split

theorem within_beginScrub {o s} (h : Within o s) :
    Within o (State.beginScrub s) := by
  unfold State.beginScrub
  try dsimp only
  repeat' first
    | with_reducible assumption | with_reducible apply Within.upd | rw [mk_upd] | with_reducible rfl
    | exact Nat.le_refl _ | intro _ | split

theorem within_execBackgroundTaskStart {o s} (h : Within o s) {x1} :
    WithinR o (execBackgroundTaskStart x1 s) := by
  unfold execBackgroundTaskStart
  try dsimp only
  repeat' first
    | with_reducible assumption | with_reducible apply within_startTask | with_reducible apply within_wakeRecords
    | with_reducible apply within_beginScrub | with_reducible apply WithinR.next | with_reducible apply WithinO.elim
    | with_reducible apply WithinO.some | with_reducible exact WithinO.none | intro _ | split

theorem within_execCalNArmed {o s : State} (h : Within o s) :
    WithinR o (execCalNArmed s) := by
  unfold execCalNArmed
  repeat' first
    | with_reducible assumption | with_reducible apply within_modCalib | with_reducible apply WithinR.next | intro _
    | split

theorem within_execCalibrate {o s : State} (h : Within o s) {x1 x2} :
    WithinR o (execCalibrate x1 x2 s) := by
  unfold execCalibrate
  repeat' first
    | with_reducible assumption | with_reducible apply within_onItem | with_reducible apply within_startItem
    | with_reducible apply Within.upd | with_reducible apply WithinO.ite | rw [mk_upd]
    | with_reducible apply WithinO.some | with_reducible exact WithinO.none | with_reducible apply WithinR.next
    | with_reducible rfl | exact Nat.le_refl _ | intro _ | split

theorem within_execNoiseFloorMeasurementEnd {o s : State} (h : Within o s) {x1 x2 x3} :
    WithinR o (execNoiseFloorMeasurementEnd x1 x2 x3 s) := by
  unfold execNoiseFloorMeasurementEnd
  repeat' first
    | with_reducible assumption | with_reducible apply within_noiseEnds | with_reducible apply WithinR.next | intro _
    | split

theorem within_execSoundCable {o s : State} (h : Within o s) {x1 x2} :
    WithinR o (execSoundCable x1 x2 s) := by
  unfold execSoundCable
  repeat' first
    | with_reducible assumption | with_reducible apply within_onItem | with_reducible apply within_channelItem
    | with_reducible apply Within.upd | with_reducible apply WithinO.ite | rw [mk_upd]
    | with_reducible apply WithinO.some | with_reducible exact WithinO.none | with_reducible apply WithinR.next
    | with_reducible rfl | exact Nat.le_refl _ | intro _ | split

theorem within_execSoundingEnd {o s : State} (h : Within o s) {x1} :
    WithinR o (execSoundingEnd x1 s) := by
  unfold execSoundingEnd
  repeat' first
    | with_reducible assumption | with_reducible apply within_soundingEnds | with_reducible apply WithinR.next
    | intro _ | split

theorem within_select {o s : State} (h : Within o s) {x2 x3} :
    Within o (State.select s x2 x3) := by
  unfold State.select
  repeat' first
    | with_reducible assumption | with_reducible apply Within.upd | rw [mk_upd] | with_reducible rfl
    | exact Nat.le_refl _ | intro _ | split

theorem within_storeCommand {o s : State} (h : Within o s) {x2} :
    Within o (State.storeCommand s x2) := by
  unfold State.storeCommand
  repeat' first
    | with_reducible assumption | with_reducible apply within_say | with_reducible apply within_select | split

theorem within_storeStep {o s : State} (h : Within o s) {x2} :
    Within o (State.storeStep s x2) := by
  unfold State.storeStep
  repeat' first
    | with_reducible assumption | with_reducible apply within_modCalib | with_reducible apply within_storeCommand

theorem within_finishCalibration {o s : State} (h : Within o s) {x2} :
    Within o (State.finishCalibration s x2) := by
  unfold State.finishCalibration
  repeat' first
    | with_reducible assumption | with_reducible apply within_modCalib | with_reducible apply within_endTask
    | with_reducible apply Within.upd | rw [mk_upd] | with_reducible rfl | exact Nat.le_refl _ | intro _

theorem within_modAdopted {o s : State} (h : Within o s) {x2} :
    Within o (State.modAdopted s x2) := by
  unfold State.modAdopted
  repeat' first
    | with_reducible assumption | with_reducible apply within_modCalib

theorem within_beginPost {o s : State} (h : Within o s) :
    Within o (State.beginPost s) := by
  unfold State.beginPost
  repeat' first
    | with_reducible assumption | with_reducible apply within_finishCalibration
    | with_reducible apply within_modAdopted | with_reducible apply within_summary | intro _ | split

theorem within_endStore {o s : State} (h : Within o s) {x2} :
    Within o (State.endStore s x2) := by
  unfold State.endStore
  repeat' first
    | with_reducible assumption | with_reducible apply within_modCalib | with_reducible apply within_beginPost
    | with_reducible apply within_modAdopted | with_reducible apply Within.upd | rw [mk_upd] | with_reducible rfl
    | exact Nat.le_refl _ | intro _

theorem within_lastMirror {o s : State} (h : Within o s) {x2} :
    Within o (State.lastMirror s x2) := by
  unfold State.lastMirror
  repeat' first
    | with_reducible assumption | with_reducible apply within_storeStep | with_reducible apply within_endStore
    | intro _ | split

theorem within_lastPhase {o s : State} (h : Within o s) {x2} :
    Within o (State.lastPhase s x2) := by
  unfold State.lastPhase
  repeat' first
    | with_reducible assumption | with_reducible apply within_lastMirror | with_reducible apply within_storeStep
    | intro _ | split

theorem within_mirrorPhase {o s : State} (h : Within o s) {x2} :
    Within o (State.mirrorPhase s x2) := by
  unfold State.mirrorPhase
  repeat' first
    | with_reducible assumption | with_reducible apply within_lastPhase | with_reducible apply within_storeStep
    | intro _ | split

theorem within_beginStore {o s : State} (h : Within o s) {x2 x3 x4} :
    Within o (State.beginStore s x2 x3 x4) := by
  unfold State.beginStore
  try dsimp only
  repeat' first
    | with_reducible assumption | with_reducible apply within_storeStep | with_reducible apply within_mirrorPhase
    | with_reducible apply within_beginPost | with_reducible apply within_modAdopted | with_reducible apply Within.upd
    | rw [mk_upd] | with_reducible rfl | exact Nat.le_refl _ | intro _ | split

theorem within_countExhausted {o s : State} (h : Within o s) {x2 x3} :
    Within o (State.countExhausted s x2 x3) := by
  unfold State.countExhausted
  repeat' first
    | with_reducible assumption | with_reducible apply within_occurN | intro _ | split

theorem within_adopt {o s : State} (h : Within o s) {x2 x3 x4 x5 x6} :
    Within o (State.adopt s x2 x3 x4 x5 x6) := by
  unfold State.adopt
  repeat' first
    | with_reducible assumption | with_reducible apply within_adoptSet | with_reducible apply within_beginStore
    | with_reducible apply within_eachChan | with_reducible apply within_modCalib
    | with_reducible apply within_beginPost | with_reducible apply within_countExhausted | intro _ | split

theorem within_copyEnded {o s : State} (h : Within o s) {x2} :
    Within o (State.copyEnded s x2) := by
  unfold State.copyEnded
  repeat' first
    | with_reducible assumption | with_reducible apply within_lastPhase | with_reducible apply within_mirrorPhase
    | split

theorem within_copyStored {o s : State} (h : Within o s) {x2} :
    Within o (State.copyStored s x2) := by
  unfold State.copyStored
  repeat' first
    | with_reducible assumption | with_reducible apply within_modCalib | with_reducible apply within_copyEnded

theorem within_lastEnded {o s : State} (h : Within o s) {x2} :
    Within o (State.lastEnded s x2) := by
  unfold State.lastEnded
  repeat' first
    | with_reducible assumption | with_reducible apply within_lastMirror | with_reducible apply within_endStore
    | split

theorem within_placeAt {o s : State} (h : Within o s) {x2 x3} :
    Within o (State.placeAt s x2 x3) := by
  unfold State.placeAt
  repeat' first
    | with_reducible assumption | with_reducible apply within_storeStep | intro _ | split

theorem within_placeEntry {o s : State} (h : Within o s) {x2 x3} :
    Within o (State.placeEntry s x2 x3) := by
  unfold State.placeEntry
  repeat' first
    | with_reducible assumption | with_reducible apply within_placeAt | with_reducible apply within_storeStep
    | intro _ | split

theorem within_postTick {o s : State} (h : Within o s) :
    Within o (State.postTick s) := by
  unfold State.postTick
  try dsimp only
  repeat' first
    | with_reducible assumption | with_reducible apply within_record | with_reducible apply within_finishCalibration
    | with_reducible apply within_modAdopted | intro _ | split

theorem within_storeAdvance {o s : State} (h : Within o s) {x2} :
    Within o (State.storeAdvance s x2) := by
  unfold State.storeAdvance
  repeat' first
    | with_reducible assumption | with_reducible apply within_lastEnded | with_reducible apply within_storeStep
    | split

theorem within_storeFailed {o s : State} (h : Within o s) {x2 x3} :
    Within o (State.storeFailed s x2 x3) := by
  unfold State.storeFailed
  repeat' first
    | with_reducible assumption | with_reducible apply within_occur | with_reducible apply within_lastEnded
    | with_reducible apply within_modCalib | with_reducible apply within_copyEnded
    | with_reducible apply within_select | split

theorem within_execCalibrationWaitLimit {o s : State} (h : Within o s) :
    WithinR o (execCalibrationWaitLimit s) := by
  unfold execCalibrationWaitLimit
  repeat' first
    | with_reducible assumption | with_reducible apply within_setTask | with_reducible apply WithinR.next | intro _
    | split

theorem within_execFlashBusyLimit {o s : State} (h : Within o s) :
    WithinR o (execFlashBusyLimit s) := by
  unfold execFlashBusyLimit
  repeat' first
    | with_reducible assumption | with_reducible apply within_storeFailed | with_reducible apply WithinR.next
    | intro _ | split

theorem within_execFlashStatusPoll {o s : State} (h : Within o s) {x1 x2} :
    WithinR o (execFlashStatusPoll x1 x2 s) := by
  unfold execFlashStatusPoll
  repeat' first
    | with_reducible assumption | with_reducible apply within_storeAdvance | with_reducible apply within_say
    | with_reducible apply within_placeEntry | with_reducible apply within_select | with_reducible apply WithinR.next
    | intro _ | split

theorem within_execMeasurePhaseEnd {o s : State} (h : Within o s) {x1} :
    WithinR o (execMeasurePhaseEnd x1 s) := by
  unfold execMeasurePhaseEnd
  try dsimp only
  repeat' first
    | with_reducible assumption | with_reducible apply within_failCalibration | with_reducible apply within_adopt
    | with_reducible apply WithinR.next | intro _ | split

theorem within_execStoreReadbackDone {o s : State} (h : Within o s) {x1} :
    WithinR o (execStoreReadbackDone x1 s) := by
  unfold execStoreReadbackDone
  repeat' first
    | with_reducible assumption | with_reducible apply within_injected | with_reducible apply within_storeFailed
    | with_reducible apply within_copyStored | with_reducible apply within_select | with_reducible apply WithinR.next
    | intro _ | split

theorem within_loadCommands {o s : State} (h : Within o s) {x2} :
    Within o (State.loadCommands s x2) := by
  unfold State.loadCommands
  repeat' first
    | with_reducible assumption | with_reducible apply within_say | with_reducible apply within_select

theorem within_cutPost {o s : State} (h : Within o s) :
    Within o (State.cutPost s) := by
  unfold State.cutPost
  repeat' first
    | with_reducible assumption | with_reducible apply within_finishCalibration | split

theorem within_discardDeep {o s : State} (h : Within o s) {x2 x3} :
    Within o (State.discardDeep s x2 x3) := by
  unfold State.discardDeep
  try dsimp only
  repeat' first
    | with_reducible assumption | with_reducible apply within_modRings | with_reducible apply within_discardQueue
    | with_reducible apply within_modQueue | exact fun _ _ e => e | intro _ | split

theorem within_dropSounding {o s : State} (h : Within o s) {x2 x3 x4 x5} :
    Within o (State.dropSounding s x2 x3 x4 x5) := by
  unfold State.dropSounding
  repeat' first
    | with_reducible assumption | with_reducible apply within_noiseEnds | with_reducible apply within_soundingEnds
    | with_reducible apply within_endUnmeasured | split

theorem within_enteredRecord {o s : State} (h : Within o s) {x2 x3} :
    Within o (State.enteredRecord s x2 x3) := by
  unfold State.enteredRecord
  repeat' first
    | with_reducible assumption | with_reducible apply within_record | intro _ | split

theorem within_dropSoundings {o s : State} (h : Within o s) {x1 x2 x3 x4} :
    Within o (dropSoundings x1 x2 x3 x4 s) := by
  fun_induction dropSoundings x1 x2 x3 x4 s
  repeat' first
    | with_reducible assumption | with_reducible refine (‹Within o _ → Within o _›) ?_
    | with_reducible apply within_dropSounding

theorem within_discardAllDeep {o s : State} (h : Within o s) {x1 x2} :
    Within o (discardAllDeep x1 x2 s) := by
  fun_induction discardAllDeep x1 x2 s
  repeat' first
    | with_reducible assumption | with_reducible refine (‹Within o _ → Within o _›) ?_
    | with_reducible apply within_discardDeep

theorem within_settleEach {o s : State} (h : Within o s) {x1} : Within o (settleEach x1 s) := by
  fun_induction settleEach x1 s
  repeat' first
    | with_reducible assumption | with_reducible refine (‹Within o _ → Within o _›) ?_
    | with_reducible apply within_settleTask

theorem within_settleSoundings {o s} (h : Within o s) :
    Within o (State.settleSoundings s) := by
  unfold State.settleSoundings
  try dsimp only
  repeat' first
    | with_reducible assumption | with_reducible apply within_settleEach | intro _ | split

theorem within_enterDormant {o s} (h : Within o s) {x2 x3 x4 x5} :
    Within o (State.enterDormant s x2 x3 x4 x5) := by
  unfold State.enterDormant
  try dsimp only
  repeat' first
    | with_reducible assumption | with_reducible apply within_abandonCalibration | with_reducible apply within_cutPost
    | with_reducible apply within_dropSoundings | with_reducible apply within_discardAllDeep
    | with_reducible apply within_enteredRecord | with_reducible apply within_writeBuffered
    | with_reducible apply within_settleSoundings | with_reducible apply within_result
    | with_reducible apply Within.upd | rw [mk_upd] | with_reducible rfl | exact Nat.le_refl _ | intro _ | split

theorem within_forgetFaults {o s : State} (h : Within o s) :
    Within o (State.forgetFaults s) := by
  unfold State.forgetFaults
  repeat' first
    | with_reducible assumption | with_reducible apply within_setSource | with_reducible apply within_releaseErr
    | with_reducible apply within_unholdAll | with_reducible apply Within.upd | rw [mk_upd] | with_reducible rfl
    | exact Nat.le_refl _ | intro _

theorem within_resumeWoken {o s : State} (h : Within o s) {x2} :
    Within o (State.resumeWoken s x2) := by
  unfold State.resumeWoken
  try dsimp only
  repeat' first
    | with_reducible assumption | with_reducible apply within_restoreWoken | intro _ | split

theorem within_execDormantEntryAfterStore {o s : State} (h : Within o s) {x1 x2 x3} :
    WithinR o (execDormantEntryAfterStore x1 x2 x3 s) := by
  unfold execDormantEntryAfterStore
  repeat' first
    | with_reducible assumption | with_reducible apply within_enterDormant | with_reducible apply WithinR.next
    | intro _ | split

theorem within_execExitSignal {o s : State} (h : Within o s) {x1} :
    WithinR o (execExitSignal x1 s) := by
  unfold execExitSignal
  repeat' first
    | with_reducible assumption | with_reducible apply Within.upd | rw [mk_upd] | with_reducible apply WithinR.next
    | with_reducible rfl | exact Nat.le_refl _ | intro _ | split

theorem within_breakAll {o s : State} (h : Within o s) {x2} :
    Within o (State.breakAll s x2) := by
  unfold State.breakAll
  repeat' first
    | with_reducible assumption | with_reducible apply Within.upd | rw [mk_upd] | with_reducible rfl
    | exact Nat.le_refl _ | intro _

theorem within_deselect {o s : State} (h : Within o s) :
    Within o (State.deselect s) := by
  unfold State.deselect
  repeat' first
    | with_reducible assumption | with_reducible apply within_select

theorem within_reissueStore {o s : State} (h : Within o s) :
    Within o (State.reissueStore s) := by
  unfold State.reissueStore
  repeat' first
    | with_reducible assumption | with_reducible apply within_say | with_reducible apply within_storeCommand | split

end Sys2Proof.Machine
end

