-- ==== Sys2Proof/Laws/WithinTarget.lean ====
section
/-! SUPPORT. Every operation of the target side, windows and host-read completions stays inside a stage (`Within`). -/

namespace Sys2Proof.Machine

theorem within_addReq {o s : State} (h : Within o s) {x2 x3 x4} :
    Within o (State.addReq s x2 x3 x4) := by
  unfold State.addReq
  repeat' first
    | with_reducible assumption | with_reducible apply within_modTransport

theorem within_fenceDrains {o s : State} (h : Within o s) {x1} :
    Within o (fenceDrains x1 s) := by
  fun_induction fenceDrains x1 s
  repeat' first
    | with_reducible assumption | with_reducible refine (‹Within o _ → Within o _›) ?_
    | with_reducible apply within_fence | with_reducible apply within_modTransport

theorem within_modReq {o s : State} (h : Within o s) {x2 x3} :
    Within o (State.modReq s x2 x3) := by
  unfold State.modReq
  repeat' first
    | with_reducible assumption | with_reducible apply within_modTransport

theorem within_fenceFlushes {o s : State} (h : Within o s) {x1} :
    Within o (fenceFlushes x1 s) := by
  fun_induction fenceFlushes x1 s
  repeat' first
    | with_reducible assumption | with_reducible refine (‹Within o _ → Within o _›) ?_
    | with_reducible apply within_fence | with_reducible apply within_modReq

theorem within_afterReq {o s : State} (h : Within o s) :
    Within o (State.afterReq s) := by
  unfold State.afterReq
  repeat' first
    | with_reducible assumption | with_reducible apply within_fenceDrains | with_reducible apply within_fenceFlushes

theorem within_endUse {o s : State} (h : Within o s) {x2} :
    Within o (State.endUse s x2) := by
  unfold State.endUse
  repeat' first
    | with_reducible assumption | with_reducible apply within_afterReq | with_reducible apply within_modTransport

theorem within_endReq {o s : State} (h : Within o s) {x2} :
    Within o (State.endReq s x2) := by
  unfold State.endReq
  repeat' first
    | with_reducible assumption | with_reducible apply within_endUse | with_reducible apply within_modTransport

theorem within_hold {o s : State} (h : Within o s) {x2 x3 x4} :
    Within o (State.hold s x2 x3 x4) := by
  unfold State.hold
  repeat' first
    | with_reducible assumption | with_reducible apply within_endUse | with_reducible apply within_modReq

theorem within_stales {o s : State} (h : Within o s) {x2} :
    Within o (State.stales s x2) := by
  unfold State.stales
  repeat' first
    | with_reducible assumption | with_reducible apply within_modTransport

theorem within_refuse {o s : State} (h : Within o s) {x2 x3 x4} :
    Within o (State.refuse s x2 x3 x4) := by
  unfold State.refuse
  repeat' first
    | with_reducible assumption | with_reducible apply within_respond

theorem within_refuseCount {o s : State} (h : Within o s) {x2 x3 x4 x5} :
    Within o (State.refuseCount s x2 x3 x4 x5) := by
  unfold State.refuseCount
  repeat' first
    | with_reducible assumption | with_reducible apply within_refuse | with_reducible apply within_occurChan

theorem within_refuseReq {o s : State} (h : Within o s) {x2 x3 x4} :
    Within o (State.refuseReq s x2 x3 x4) := by
  unfold State.refuseReq
  repeat' first
    | with_reducible assumption | with_reducible apply within_endReq | with_reducible apply within_refuse
    | with_reducible apply within_refuseCount | split

theorem within_perform {o s : State} (h : Within o s) {x2 x3} :
    Within o (State.perform s x2 x3) := by
  unfold State.perform
  try dsimp only
  repeat' first
    | with_reducible assumption | with_reducible apply within_writePieces | with_reducible apply within_refuseReq
    | with_reducible apply within_endReq | with_reducible apply within_checkFixity
    | with_reducible apply within_hostRead | with_reducible apply within_modReq
    | with_reducible apply within_readPieces | intro _ | split

theorem within_wakeAtomics {o s : State} (h : Within o s) {x1} :
    Within o (wakeAtomics x1 s) := by
  fun_induction wakeAtomics x1 s
  repeat' first
    | with_reducible assumption | with_reducible refine (‹Within o _ → Within o _›) ?_
    | with_reducible apply within_perform

theorem within_setDedup {o s : State} (h : Within o s) {x2 x3} :
    Within o (State.setDedup s x2 x3) := by
  unfold State.setDedup
  repeat' first
    | with_reducible assumption | with_reducible apply within_modTransport

theorem within_atomicFenced {o s : State} (h : Within o s) {x2} :
    Within o (State.atomicFenced s x2) := by
  unfold State.atomicFenced
  repeat' first
    | with_reducible assumption | with_reducible apply within_endReq | with_reducible apply within_wakeAtomics
    | with_reducible apply within_respond | with_reducible apply within_setDedup | with_reducible apply Within.foldl
    | intro _ | split

theorem within_atomicRead {o s : State} (h : Within o s) {x2 x3} :
    Within o (State.atomicRead s x2 x3) := by
  unfold State.atomicRead
  repeat' first
    | with_reducible assumption | with_reducible apply within_hostWrite | with_reducible apply within_fence
    | with_reducible apply within_modReq | split

theorem within_dropDedup {o s : State} (h : Within o s) {x2} :
    Within o (State.dropDedup s x2) := by
  unfold State.dropDedup
  try dsimp only
  repeat' first
    | with_reducible assumption | with_reducible apply within_setDedup | intro _ | split

theorem within_failReq {o s : State} (h : Within o s) {x2 x3 x4} :
    Within o (State.failReq s x2 x3 x4) := by
  unfold State.failReq
  repeat' first
    | with_reducible assumption | with_reducible apply within_refuseReq | with_reducible apply within_dropDedup
    | with_reducible apply Within.foldl | intro _

theorem within_flushFenced {o s : State} (h : Within o s) {x2 x3} :
    Within o (State.flushFenced s x2 x3) := by
  unfold State.flushFenced
  repeat' first
    | with_reducible assumption | with_reducible apply within_endReq | with_reducible apply within_respond | split

theorem within_modCache {o s : State} (h : Within o s) {x2} :
    Within o (State.modCache s x2) := by
  unfold State.modCache
  repeat' first
    | with_reducible assumption | with_reducible apply within_modTransport

theorem within_install {o s : State} (h : Within o s) {x2} :
    Within o (State.install s x2) := by
  unfold State.install
  try dsimp only
  repeat' first
    | with_reducible assumption | with_reducible apply within_modCache | split

theorem within_invalidate {o s : State} (h : Within o s) {x2 x3 x4} :
    Within o (State.invalidate s x2 x3 x4) := by
  unfold State.invalidate
  repeat' first
    | with_reducible assumption | with_reducible apply within_modCache

theorem within_onRequest {o s : State} (h : Within o s) {x2 x3 x4 x5} (k : ∀ i t, Within o t → Within o (x5 i t)) :
    Within o (State.onRequest s x2 x3 x4 x5) := by
  unfold State.onRequest
  repeat' first
    | with_reducible assumption | with_reducible apply k | with_reducible exact within_takePacket h (by assumption)
    | with_reducible apply within_refuse | intro _ | split

theorem within_reportPage {o s : State} (h : Within o s) {x2 x3 x4 x5} :
    Within o (State.reportPage s x2 x3 x4 x5) := by
  unfold State.reportPage
  try dsimp only
  repeat' first
    | with_reducible assumption | with_reducible apply within_occur | with_reducible apply within_modTransport
    | intro _ | split

theorem within_pageAbsent {o s : State} (h : Within o s) {x2 x3 x4} :
    Within o (State.pageAbsent s x2 x3 x4) := by
  unfold State.pageAbsent
  try dsimp only
  repeat' first
    | with_reducible assumption | with_reducible apply within_reportPage | with_reducible apply within_hold
    | with_reducible apply within_failReq | intro _ | split

theorem within_translate {o s : State} (h : Within o s) {x2} :
    Within o (State.translate s x2) := by
  unfold State.translate
  repeat' first
    | with_reducible assumption | with_reducible apply within_hostRead | with_reducible apply within_modReq
    | with_reducible apply within_perform | split

theorem within_passed {o s : State} (h : Within o s) {x2 x3} :
    Within o (State.passed s x2 x3) := by
  unfold State.passed
  try dsimp only
  repeat' first
    | with_reducible assumption | with_reducible apply within_translate | with_reducible apply within_endReq
    | with_reducible apply within_modReq | with_reducible apply within_respond | with_reducible apply within_setDedup
    | intro _ | split

theorem within_readPart {o s : State} (h : Within o s) {x2 x3 x4} :
    Within o (State.readPart s x2 x3 x4) := by
  unfold State.readPart
  repeat' first
    | with_reducible assumption | with_reducible apply within_endReq | with_reducible apply within_modReq
    | with_reducible apply within_respond | intro _ | split

theorem within_reqReadFailed {o s : State} (h : Within o s) {x2} :
    Within o (State.reqReadFailed s x2) := by
  unfold State.reqReadFailed
  repeat' first
    | with_reducible assumption | with_reducible apply within_wakeAtomics | with_reducible apply within_failReq
    | split

theorem within_sweepCache {o s : State} (h : Within o s) {x2} :
    Within o (State.sweepCache s x2) := by
  unfold State.sweepCache
  repeat' first
    | with_reducible assumption | with_reducible apply within_modTransport

theorem within_touch {o s : State} (h : Within o s) {x2 x3} :
    Within o (State.touch s x2 x3) := by
  unfold State.touch
  repeat' first
    | with_reducible assumption | with_reducible apply within_modCache

theorem within_walk {o s : State} (h : Within o s) {x2} :
    Within o (State.walk s x2) := by
  unfold State.walk
  repeat' first
    | with_reducible assumption | with_reducible apply within_refuseReq | with_reducible apply within_hostRead
    | with_reducible apply within_modReq | split

theorem within_walkedDesc {o s : State} (h : Within o s) {x2 x3} :
    Within o (State.walkedDesc s x2 x3) := by
  unfold State.walkedDesc
  try dsimp only
  repeat' first
    | with_reducible assumption | with_reducible apply within_walk | with_reducible apply within_passed
    | with_reducible apply within_failReq | intro _ | split

theorem within_walkedEntry {o s : State} (h : Within o s) {x2 x3 x4} :
    Within o (State.walkedEntry s x2 x3 x4) := by
  unfold State.walkedEntry
  try dsimp only
  repeat' first
    | with_reducible assumption | with_reducible apply within_pageAbsent | with_reducible apply within_translate
    | with_reducible apply within_modReq | with_reducible apply within_install | with_reducible apply within_walk
    | with_reducible apply within_failReq | intro _ | split

theorem within_windowRequest {o s : State} (h : Within o s) {x2 x3 x4} :
    Within o (State.windowRequest s x2 x3 x4) := by
  unfold State.windowRequest
  try dsimp only
  repeat' first
    | with_reducible assumption | with_reducible apply within_touch | with_reducible apply within_refuseReq
    | with_reducible apply within_modReq | with_reducible apply within_walk | with_reducible apply within_refuseCount
    | with_reducible apply within_addReq | with_reducible apply within_passed | intro _ | split

theorem within_execAtomicRequest {o s : State} (h : Within o s) {x1 x2} :
    WithinR o (execAtomicRequest x1 x2 s) := by
  unfold execAtomicRequest
  repeat' first
    | with_reducible assumption | with_reducible apply within_onRequest | with_reducible apply within_windowRequest
    | with_reducible apply WithinR.next | intro _

theorem within_execDedupEntryExpired {o s : State} (h : Within o s) {x1 x2} :
    WithinR o (execDedupEntryExpired x1 x2 s) := by
  unfold execDedupEntryExpired
  try dsimp only
  repeat' first
    | with_reducible assumption | with_reducible apply within_modTransport | with_reducible apply WithinR.next
    | intro _ | split

theorem within_execFlushRequest {o s : State} (h : Within o s) {x1 x2} :
    WithinR o (execFlushRequest x1 x2 s) := by
  unfold execFlushRequest
  repeat' first
    | with_reducible assumption | with_reducible apply within_onRequest | with_reducible apply within_afterReq
    | with_reducible apply within_addReq | with_reducible apply WithinR.next | intro _

theorem within_execReadRequest {o s : State} (h : Within o s) {x1 x2} :
    WithinR o (execReadRequest x1 x2 s) := by
  unfold execReadRequest
  repeat' first
    | with_reducible assumption | with_reducible apply within_onRequest | with_reducible apply within_windowRequest
    | with_reducible apply WithinR.next | intro _

theorem within_execStallLimitExpiry {o s : State} (h : Within o s) {x1} :
    WithinR o (execStallLimitExpiry x1 s) := by
  unfold execStallLimitExpiry
  repeat' first
    | with_reducible assumption | with_reducible apply within_failReq | with_reducible apply WithinR.next | intro _
    | split

theorem within_execTranslationAgedOut {o s : State} (h : Within o s) {x1} :
    WithinR o (execTranslationAgedOut x1 s) := by
  unfold execTranslationAgedOut
  repeat' first
    | with_reducible assumption | with_reducible apply within_modCache | with_reducible apply WithinR.next | intro _
    | split

theorem within_execWritePacket {o s : State} (h : Within o s) {x1 x2} :
    WithinR o (execWritePacket x1 x2 s) := by
  unfold execWritePacket
  repeat' first
    | with_reducible assumption | with_reducible apply within_onRequest | with_reducible apply within_windowRequest
    | with_reducible apply WithinR.next | intro _

theorem within_claim {o s : State} (h : Within o s) {x2 x3 x4 x5} :
    Within o (State.claim s x2 x3 x4 x5) := by
  unfold State.claim
  repeat' first
    | with_reducible assumption | with_reducible apply within_modQueue

theorem within_unclaim {o s : State} (h : Within o s) {x2 x3 x4} :
    Within o (State.unclaim s x2 x3 x4) := by
  unfold State.unclaim
  repeat' first
    | with_reducible assumption | with_reducible apply within_modQueue

theorem within_closeItem {o s : State} (h : Within o s) {x2 x3 x4 x5} :
    Within o (State.closeItem s x2 x3 x4 x5) := by
  unfold State.closeItem
  repeat' first
    | with_reducible assumption | with_reducible apply within_complete | with_reducible apply within_unclaim | split

theorem within_dropMessage {o s : State} (h : Within o s) {x2} :
    Within o (State.dropMessage s x2) := by
  unfold State.dropMessage
  repeat' first
    | with_reducible assumption | with_reducible apply within_modTransport

theorem within_modMessage {o s : State} (h : Within o s) {x2 x3} :
    Within o (State.modMessage s x2 x3) := by
  unfold State.modMessage
  repeat' first
    | with_reducible assumption | with_reducible apply within_modTransport

theorem within_drainEvent {o s : State} (h : Within o s) {x2 x3} :
    Within o (State.drainEvent s x2 x3) := by
  unfold State.drainEvent
  repeat' first
    | with_reducible assumption | with_reducible apply within_streamRecord

theorem within_truncate {o s : State} (h : Within o s) {x2} :
    Within o (State.truncate s x2) := by
  unfold State.truncate
  repeat' first
    | with_reducible assumption | with_reducible apply within_occurQueue | with_reducible apply within_modMessage
    | with_reducible apply within_drainEvent | with_reducible apply within_closeItem
    | with_reducible apply within_signal

theorem within_drainEnd {o s : State} (h : Within o s) {x2} :
    Within o (State.drainEnd s x2) := by
  unfold State.drainEnd
  repeat' first
    | with_reducible assumption | with_reducible apply within_dropMessage | with_reducible apply within_drainEvent
    | with_reducible apply within_closeItem | with_reducible apply within_signal | intro _ | split

theorem within_drainNext {o s : State} (h : Within o s) {x2 x3 x4} :
    Within o (State.drainNext s x2 x3 x4) := by
  unfold State.drainNext
  repeat' first
    | with_reducible assumption | with_reducible apply within_modMessage | with_reducible apply within_drainEnd
    | intro _ | split

theorem within_withOffer {o s : State} (h : Within o s) {x2 x3} :
    Within o (State.withOffer s x2 x3) := by
  unfold State.withOffer
  repeat' first
    | with_reducible assumption | with_reducible apply within_takeBuffer | with_reducible apply within_startItem | split

theorem within_drainRoom {o s : State} (h : Within o s) {x2 x3} :
    Within o (State.drainRoom s x2 x3).2 := by
  unfold State.drainRoom
  try dsimp only
  repeat' first
    | with_reducible assumption | with_reducible apply within_claim | with_reducible apply within_closeItem | split

theorem within_drainChunk {o s : State} (h : Within o s) {x2 x3 x4 x5} :
    Within o (State.drainChunk s x2 x3 x4 x5) := by
  unfold State.drainChunk
  try dsimp only
  repeat' first
    | with_reducible assumption | with_reducible apply within_dropMessage | with_reducible apply within_truncate
    | with_reducible apply within_drainNext | with_reducible apply within_refuse
    | with_reducible apply within_checkFixity | with_reducible apply within_drainRoom
    | with_reducible apply within_withOffer
    | with_reducible apply within_hostWrite | with_reducible apply within_closeItem
    | with_reducible apply within_signal | with_reducible apply within_modStream
    | with_reducible apply within_streamRecord | intro _ | split

theorem within_placeChunk {o s : State} (h : Within o s) {x2 x3 x4 x5 x6} :
    Within o (State.placeChunk s x2 x3 x4 x5 x6) := by
  unfold State.placeChunk
  try dsimp only
  repeat' first
    | with_reducible assumption | with_reducible apply within_dropMessage | with_reducible apply within_complete
    | with_reducible apply within_refuse | with_reducible apply within_checkFixity
    | with_reducible apply within_unclaim | with_reducible apply within_hostWrite | with_reducible apply within_fence
    | with_reducible apply within_modMessage | with_reducible apply within_signal | intro _ | split

theorem within_notReady {o s : State} (h : Within o s) {x2 x3 x4 x5} :
    Within o (State.notReady s x2 x3 x4 x5) := by
  unfold State.notReady
  repeat' first
    | with_reducible assumption | with_reducible apply within_refuse | with_reducible apply within_occurQueue

theorem within_firstPacket {o s : State} (h : Within o s) {x2 x3 x4} :
    Within o (State.firstPacket s x2 x3 x4) := by
  unfold State.firstPacket
  try dsimp only
  repeat' first
    | with_reducible assumption | with_reducible apply within_placeChunk | with_reducible apply within_claim
    | with_reducible apply within_notReady | with_reducible apply within_drainChunk | with_reducible apply within_withOffer
    | with_reducible apply within_modStream | with_reducible apply within_modTransport
    | with_reducible apply within_refuseCount | intro _ | split

theorem within_messageFenced {o s : State} (h : Within o s) {x2 x3 x4 x5} :
    Within o (State.messageFenced s x2 x3 x4 x5) := by
  unfold State.messageFenced
  repeat' first
    | with_reducible assumption | with_reducible apply within_dropMessage | with_reducible apply within_complete
    | with_reducible apply within_unclaim | with_reducible apply within_signal | intro _ | split

theorem within_execMessagePacket {o s : State} (h : Within o s) {x1 x2} :
    WithinR o (execMessagePacket x1 x2 s) := by
  unfold execMessagePacket
  repeat' first
    | with_reducible assumption | with_reducible apply within_onRequest | with_reducible apply within_dropMessage
    | with_reducible apply within_placeChunk | with_reducible apply within_firstPacket
    | with_reducible apply within_drainChunk | with_reducible apply WithinR.next | intro _ | split

theorem within_drain {o s : State} (h : Within o s) {x2} :
    Within o (State.drain s x2) := by
  unfold State.drain
  repeat' first
    | with_reducible assumption | with_reducible apply within_afterReq | with_reducible apply within_modTransport

theorem within_drainFenced {o s : State} (h : Within o s) {x2 x3 x4} :
    Within o (State.drainFenced s x2 x3 x4) := by
  unfold State.drainFenced
  repeat' first
    | with_reducible assumption | with_reducible apply within_modTransport

theorem within_drained {o s : State} (h : Within o s) {x2 x3 x4} :
    Within o (State.drained s x2 x3 x4) := by
  unfold State.drained
  repeat' first
    | with_reducible assumption | with_reducible apply within_result | with_reducible apply within_modTransport
    | split

theorem within_windowRefused {o s : State} (h : Within o s) {x2 x3 x4 x5} :
    Within o (State.windowRefused s x2 x3 x4 x5) := by
  unfold State.windowRefused
  repeat' first
    | with_reducible assumption | with_reducible apply within_result

theorem within_writeWindow {o s : State} (h : Within o s) {x2 x3 x4 x5} :
    Within o (State.writeWindow s x2 x3 x4 x5) := by
  unfold State.writeWindow
  repeat' first
    | with_reducible assumption | with_reducible apply within_hostWrite | split

theorem within_openRead {o s : State} (h : Within o s) {x2 x3 x4 x5 x6} :
    Within o (State.openRead s x2 x3 x4 x5 x6) := by
  unfold State.openRead
  try dsimp only
  repeat' first
    | with_reducible assumption | with_reducible apply within_windowRefused | with_reducible apply within_complete
    | with_reducible apply within_result | with_reducible apply within_writeWindow | intro _ | split

theorem within_rewalk {o s : State} (h : Within o s) {x1 x2} :
    Within o (rewalk x1 x2 s) := by
  fun_induction rewalk x1 x2 s
  repeat' first
    | with_reducible assumption | with_reducible refine (‹Within o _ → Within o _›) ?_
    | with_reducible apply within_translate | intro _ | split

theorem within_readyRead {o s : State} (h : Within o s) {x2 x3 x4 x5 x6 x7 x8 x9} :
    Within o (State.readyRead s x2 x3 x4 x5 x6 x7 x8 x9) := by
  unfold State.readyRead
  try dsimp only
  repeat' first
    | with_reducible assumption | with_reducible apply within_rewalk | with_reducible apply within_windowRefused
    | with_reducible apply within_invalidate | with_reducible apply within_modTransport
    | with_reducible apply within_stales | with_reducible apply within_drain | intro _ | split

theorem within_refuseAll {o s : State} (h : Within o s) {x1 x2} :
    Within o (refuseAll x1 x2 s) := by
  fun_induction refuseAll x1 x2 s
  repeat' first
    | with_reducible assumption | with_reducible refine (‹Within o _ → Within o _›) ?_
    | with_reducible apply within_failReq

theorem within_revokeRead {o s : State} (h : Within o s) {x2 x3 x4 x5 x6 x7} :
    Within o (State.revokeRead s x2 x3 x4 x5 x6 x7) := by
  unfold State.revokeRead
  try dsimp only
  repeat' first
    | with_reducible assumption | with_reducible apply within_windowRefused | with_reducible apply within_invalidate
    | with_reducible apply within_refuseAll | with_reducible apply within_result | with_reducible apply within_stales
    | with_reducible apply within_writeWindow | with_reducible apply within_drain | intro _ | split

theorem within_windowItem {o s : State} (h : Within o s) {x2 x3 x4 x5 x6} :
    Within o (State.windowItem s x2 x3 x4 x5 x6) := by
  unfold State.windowItem
  repeat' first
    | with_reducible assumption | with_reducible apply within_windowRefused | with_reducible apply within_hostRead
    | intro _ | split

theorem within_execPageReady {o s : State} (h : Within o s) {x1 x2} :
    WithinR o (execPageReady x1 x2 s) := by
  unfold execPageReady
  repeat' first
    | with_reducible assumption | with_reducible apply within_onItem | with_reducible apply within_windowItem
    | with_reducible apply within_startItem | with_reducible apply WithinO.ite | with_reducible apply WithinO.some
    | with_reducible exact WithinO.none | with_reducible apply WithinR.next | intro _ | split

theorem within_execPageReadyDrained {o s : State} (h : Within o s) {x1 x2} :
    WithinR o (execPageReadyDrained x1 x2 s) := by
  unfold execPageReadyDrained
  repeat' first
    | with_reducible assumption | with_reducible apply within_drained | with_reducible apply WithinR.next

theorem within_execRevokeDrained {o s : State} (h : Within o s) {x1 x2} :
    WithinR o (execRevokeDrained x1 x2 s) := by
  unfold execRevokeDrained
  repeat' first
    | with_reducible assumption | with_reducible apply within_drained | with_reducible apply WithinR.next

theorem within_execWindowOpen {o s : State} (h : Within o s) {x1 x2} :
    WithinR o (execWindowOpen x1 x2 s) := by
  unfold execWindowOpen
  repeat' first
    | with_reducible assumption | with_reducible apply within_onItem | with_reducible apply within_windowItem
    | with_reducible apply within_startItem | with_reducible apply WithinO.ite | with_reducible apply WithinO.some
    | with_reducible exact WithinO.none | with_reducible apply WithinR.next | intro _ | split

theorem within_execWindowRevoke {o s : State} (h : Within o s) {x1 x2} :
    WithinR o (execWindowRevoke x1 x2 s) := by
  unfold execWindowRevoke
  repeat' first
    | with_reducible assumption | with_reducible apply within_onItem | with_reducible apply within_windowItem
    | with_reducible apply within_startItem | with_reducible apply within_result | with_reducible apply WithinO.ite | with_reducible apply WithinO.some
    | with_reducible exact WithinO.none | with_reducible apply WithinR.next | intro _ | split

theorem within_leaveStart {o s : State} (h : Within o s) {x2} :
    Within o (State.leaveStart s x2) := by
  unfold State.leaveStart
  repeat' first
    | with_reducible assumption | with_reducible apply within_modChan | split

theorem within_startChannels {o s : State} (h : Within o s) {x2} :
    Within o (State.startChannels s x2) := by
  unfold State.startChannels
  repeat' first
    | with_reducible assumption | with_reducible apply within_leaveStart | with_reducible apply within_eachChan
    | intro _ | split

theorem within_anchorRead {o s : State} (h : Within o s) {p addr b} :
    Within o (State.anchorRead s p addr b) := by
  unfold State.anchorRead
  dsimp only
  cases e : (s.rings p).anchor with
  | some a => exact within_sendReply h
  | none =>
    simp only [Option.isSome_none, Bool.false_eq_true, ↓reduceIte]
    split
    · refine within_startChannels (within_writeStart (within_sendReply (within_hostWrite (within_setRings h ?_))))
      intro a k
      rw [e] at k
      cases k
    · refine within_sendReply (within_modRings h ?_)
      intro _ _ k
      exact k

theorem within_delivered {o s : State} (h : Within o s) {x2 x3 x4} :
    Within o (State.delivered s x2 x3 x4) := by
  unfold State.delivered
  repeat' first
    | with_reducible assumption | with_reducible apply within_readPart | with_reducible apply within_messageFenced
    | with_reducible apply within_walkedEntry | with_reducible apply within_flushFenced
    | with_reducible apply within_openRead | with_reducible apply within_chunkPart
    | with_reducible apply within_readyRead | with_reducible apply within_drainFenced
    | with_reducible apply within_revokeRead | with_reducible apply within_atomicFenced
    | with_reducible apply within_assertInt | with_reducible apply within_walkedDesc
    | with_reducible apply within_firebreakDone | with_reducible apply within_atomicRead
    | with_reducible apply within_anchorRead | with_reducible apply within_fetchDone | split

theorem within_anchorFailed {o s : State} (h : Within o s) {x2 x3} :
    Within o (State.anchorFailed s x2 x3) := by
  unfold State.anchorFailed
  repeat' first
    | with_reducible assumption | with_reducible apply within_modRings | with_reducible apply within_sendReply
    | intro _

theorem within_undelivered {o s : State} (h : Within o s) {x2 x3} :
    Within o (State.undelivered s x2 x3) := by
  unfold State.undelivered
  repeat' first
    | with_reducible assumption | with_reducible apply within_reqReadFailed
    | with_reducible apply within_windowRefused | with_reducible apply within_anchorFailed
    | with_reducible apply within_messageFenced | with_reducible apply within_flushFenced
    | with_reducible apply within_fetchFailed | with_reducible apply within_drainFenced
    | with_reducible apply within_chunkReadFailed | with_reducible apply within_assertInt
    | with_reducible apply within_firebreakDone | split

theorem within_readFailed {o s : State} (h : Within o s) {x2 x3} :
    Within o (State.readFailed s x2 x3) := by
  unfold State.readFailed
  repeat' first
    | with_reducible assumption | with_reducible apply within_hostLinkError | with_reducible apply within_undelivered
    | with_reducible apply within_pump

theorem within_actCompletion {o s : State} (h : Within o s) {x2 x3 x4 x5} :
    Within o (State.actCompletion s x2 x3 x4 x5) := by
  unfold State.actCompletion
  repeat' first
    | with_reducible assumption | with_reducible apply within_modLink | with_reducible apply within_hostLinkError
    | with_reducible apply within_pump | with_reducible apply within_delivered
    | with_reducible apply within_readFailed | intro _ | split

theorem within_actHeld {o s : State} (h : Within o s) {x2 x3} :
    Within o (State.actHeld s x2 x3) := by
  unfold State.actHeld
  try dsimp only
  repeat' first
    | with_reducible assumption | with_reducible apply within_actCompletion
    | with_reducible apply within_actWorkDoorbell | with_reducible apply within_returnCredit
    | with_reducible apply within_actConsumedDoorbell | with_reducible apply within_actAnchor
    | with_reducible apply within_ignoreFrame | intro _ | split

theorem within_actHeldList {o s : State} (h : Within o s) {x1 x2} :
    Within o (actHeldList x1 x2 s) := by
  fun_induction actHeldList x1 x2 s
  repeat' first
    | with_reducible assumption | with_reducible refine (‹Within o _ → Within o _›) ?_
    | with_reducible apply within_actHeld

theorem within_actAllHeld {o s : State} (h : Within o s) {x2} :
    Within o (State.actAllHeld s x2) := by
  unfold State.actAllHeld
  repeat' first
    | with_reducible assumption | with_reducible apply within_modLink | with_reducible apply within_actHeldList
    | split

theorem within_execReadCompletion {o s : State} (h : Within o s) {x1 x2 x3 x4 x5} :
    WithinR o (execReadCompletion x1 x2 x3 x4 x5 s) := by
  unfold execReadCompletion
  repeat' first
    | with_reducible assumption | with_reducible apply within_modLink | with_reducible apply within_onFrame
    | with_reducible apply within_actCompletion | with_reducible apply WithinR.next | intro _ | split

theorem within_execReadCompletionTimeout {o s : State} (h : Within o s) {x1 x2} :
    WithinR o (execReadCompletionTimeout x1 x2 s) := by
  unfold execReadCompletionTimeout
  repeat' first
    | with_reducible assumption | with_reducible apply within_modLink | with_reducible apply within_readFailed
    | with_reducible apply WithinR.next | intro _ | split

end Sys2Proof.Machine
end

