-- ==== Sys2Proof/Laws/WithinStart.lean ====
section
/-! SUPPORT. Every operation of the schedule and start-up stays inside a stage (`Within`). -/

namespace Sys2Proof.Machine

theorem within_beginCalCount {o s : State} (h : Within o s) :
    Within o (State.beginCalCount s) := by
  unfold State.beginCalCount
  repeat' first
    | with_reducible assumption | with_reducible apply within_modCalib | intro _ | split

theorem within_chanBoundary {o s : State} (h : Within o s) {x2} :
    Within o (State.chanBoundary s x2) := by
  unfold State.chanBoundary
  try dsimp only
  repeat' first
    | with_reducible assumption | with_reducible apply within_resumeWoken | with_reducible apply within_resumeChan
    | with_reducible apply within_trainTick | with_reducible apply within_deferredGain
    | with_reducible apply within_modQuality | with_reducible apply within_modChan | with_reducible apply Within.upd
    | rw [mk_upd] | with_reducible rfl | exact Nat.le_refl _ | intro _ | split

theorem within_boundary {o s : State} (h : Within o s) :
    Within o (State.boundary s) := by
  unfold State.boundary
  repeat' first
    | with_reducible assumption | with_reducible apply within_stepTrims | with_reducible apply within_chanBoundary
    | with_reducible apply within_eachChan | with_reducible apply within_sendDeferred | intro _

theorem within_chanSymbol {o s : State} (h : Within o s) {x2} :
    Within o (State.chanSymbol s x2) := by
  unfold State.chanSymbol
  try dsimp only
  repeat' first
    | with_reducible assumption | with_reducible apply within_txSymbol | with_reducible apply within_alertTick
    | with_reducible apply within_modRetry | with_reducible apply within_markTick
    | with_reducible apply within_waitingSwap | intro _ | split

theorem within_modTelem {o s : State} (h : Within o s) {x2} :
    Within o (State.modTelem s x2) := by
  unfold State.modTelem
  repeat' first
    | with_reducible assumption | with_reducible apply Within.upd | rw [mk_upd] | with_reducible rfl
    | exact Nat.le_refl _ | intro _

theorem within_modSched {o s} (h : Within o s) {x2} :
    Within o (State.modSched s x2) := by
  unfold State.modSched
  try dsimp only
  repeat' first
    | with_reducible assumption | with_reducible apply Within.upd | rw [mk_upd] | with_reducible rfl
    | exact Nat.le_refl _ | intro _ | split

theorem within_countOverrun {o s} (h : Within o s) {x2} :
    Within o (State.countOverrun s x2) := by
  unfold State.countOverrun
  try dsimp only
  repeat' first
    | with_reducible assumption | with_reducible apply within_modTelem | with_reducible apply within_occur
    | with_reducible apply within_modSched | with_reducible apply Within.upd | rw [mk_upd] | with_reducible rfl
    | exact Nat.le_refl _ | intro _ | split

theorem within_countSuperframe {o s : State} (h : Within o s) {x2} :
    Within o (State.countSuperframe s x2) := by
  unfold State.countSuperframe
  repeat' first
    | with_reducible assumption | with_reducible apply within_modQuality | intro _ | split

theorem within_startChan {o s : State} (h : Within o s) {x2} :
    Within o (State.startChan s x2) := by
  unfold State.startChan
  repeat' first
    | with_reducible assumption | with_reducible apply within_modChan | intro _ | split

theorem within_injectedScrub {o s : State} (h : Within o s) :
    Within o (State.injectedScrub s) := by
  unfold State.injectedScrub
  repeat' first
    | with_reducible assumption | with_reducible apply within_injected | with_reducible apply within_occur
    | with_reducible apply within_useFresh | with_reducible apply within_modTelem | intro _ | split

theorem within_loseStaged {o s : State} (h : Within o s) {x2 x3} :
    Within o (State.loseStaged s x2 x3) := by
  unfold State.loseStaged
  repeat' first
    | with_reducible assumption | with_reducible apply within_modOp | with_reducible apply within_occurChan
    | with_reducible apply within_failChunk | with_reducible apply within_advance | intro _ | split

theorem within_readSensors {o s : State} (h : Within o s) {x2 x3} :
    Within o (State.readSensors s x2 x3) := by
  unfold State.readSensors
  try dsimp only
  repeat' first
    | with_reducible assumption | with_reducible apply within_occur | with_reducible apply within_newTemp
    | with_reducible apply within_modTelem | intro _ | split

theorem within_sramError {o s : State} (h : Within o s) {x2} :
    Within o (State.sramError s x2) := by
  unfold State.sramError
  try dsimp only
  repeat' first
    | with_reducible assumption | with_reducible apply within_occur | with_reducible apply within_tableError
    | with_reducible apply within_giveUp | with_reducible apply within_modTelem
    | with_reducible apply within_loseStaged | intro _ | split

theorem within_takeSlack {o s} (h : Within o s) {x2} :
    Within o (State.takeSlack s x2) := by
  unfold State.takeSlack
  try dsimp only
  repeat' first
    | with_reducible assumption | with_reducible apply within_modTelem | with_reducible apply within_countOverrun
    | intro _ | split

theorem within_telemetry {o s : State} (h : Within o s) {x2} :
    Within o (State.telemetry s x2) := by
  unfold State.telemetry
  repeat' first
    | with_reducible assumption | with_reducible apply within_modRings | with_reducible apply within_record
    | with_reducible apply within_useFresh | with_reducible apply within_setTelem | intro _ | split

theorem within_execSensorReading {o s : State} (h : Within o s) {x1 x2} :
    WithinR o (execSensorReading x1 x2 s) := by
  unfold execSensorReading
  repeat' first
    | with_reducible assumption | with_reducible apply within_readSensors | with_reducible apply WithinR.next
    | intro _ | split

theorem within_sramErrors {o s : State} (h : Within o s) {x1} :
    Within o (sramErrors x1 s) := by
  fun_induction sramErrors x1 s
  repeat' first
    | with_reducible assumption | with_reducible refine (‹Within o _ → Within o _›) ?_
    | with_reducible apply within_sramError

theorem within_execTelemetryBoundary {o s : State} (h : Within o s) :
    WithinR o (execTelemetryBoundary s) := by
  unfold execTelemetryBoundary
  try dsimp only
  repeat' first
    | with_reducible assumption | with_reducible apply within_telemetry | with_reducible apply WithinR.next | intro _
    | split

theorem within_applyTrims {o s : State} (h : Within o s) :
    Within o (State.applyTrims s) := by
  unfold State.applyTrims
  repeat' first
    | with_reducible assumption | with_reducible apply Within.upd | rw [mk_upd] | with_reducible rfl
    | exact Nat.le_refl _ | intro _ | split

theorem within_readSets {o s : State} (h : Within o s) {x1 x2} :
    Within o (readSets x1 x2 s) := by
  fun_induction readSets x1 x2 s
  repeat' first
    | with_reducible assumption | with_reducible refine (‹Within o _ → Within o _›) ?_
    | with_reducible apply within_say

theorem within_coefficientCommands {o s : State} (h : Within o s) {x2 x3} :
    Within o (State.coefficientCommands s x2 x3) := by
  unfold State.coefficientCommands
  try dsimp only
  repeat' first
    | with_reducible assumption | with_reducible apply within_say | with_reducible apply within_readSets | intro _
    | split

theorem within_eachReception {o s : State} (h : Within o s) {x1 x2} (k : ∀ t e, Within o t → Within o (x1 t e)) :
    Within o (eachReception x1 x2 s) := by
  fun_induction eachReception x1 x2 s
  repeat' first
    | with_reducible assumption | with_reducible refine (‹Within o _ → Within o _›) ?_ | with_reducible apply k

theorem within_equaliseSymbol {o s : State} (h : Within o s) {x2} : Within o (State.equaliseSymbol s x2).2 := by
  unfold State.equaliseSymbol
  dsimp only
  exact within_modChan h

theorem within_takeSamples {o s} (h : Within o s) {x2 x3} :
    Within o (State.takeSamples s x2 x3) := by
  unfold State.takeSamples
  try dsimp only
  repeat' first
    | with_reducible assumption | with_reducible apply within_modChan | with_reducible apply Within.upd | rw [mk_upd]
    | with_reducible rfl | exact Nat.le_refl _ | intro _ | split

theorem within_receive {o s} (h : Within o s) {x2} :
    Within o (State.receive s x2) := by
  unfold State.receive
  try dsimp only
  repeat' first
    | with_reducible assumption | with_reducible apply within_takeSamples | intro _ | split

theorem within_beginCall {o s} (h : Within o s) {x2} :
    Within o (State.beginCall s x2) := by
  unfold State.beginCall
  try dsimp only
  repeat' first
    | with_reducible assumption | with_reducible apply within_modChan | with_reducible apply within_say
    | with_reducible apply Within.upd | rw [mk_upd] | with_reducible rfl | exact Nat.le_refl _ | intro _ | split

theorem within_sendLine {o s} (h : Within o s) {x2} :
    Within o (State.sendLine s x2) := by
  unfold State.sendLine
  try dsimp only
  repeat' first
    | with_reducible assumption | with_reducible apply within_modChan | with_reducible apply Within.upd | rw [mk_upd]
    | with_reducible rfl | exact Nat.le_refl _ | intro _ | split

theorem within_sendSlot {o s} (h : Within o s) {x2} :
    Within o (State.sendSlot s x2) := by
  unfold State.sendSlot
  try dsimp only
  repeat' first
    | with_reducible assumption | with_reducible apply within_beginCall | with_reducible apply within_sendLine
    | intro _ | split

theorem within_endSymbol {o s} (h : Within o s) {x2} :
    Within o (State.endSymbol s x2) := by
  unfold State.endSymbol
  try dsimp only
  repeat' first
    | with_reducible assumption | with_reducible apply within_modChan | with_reducible apply Within.upd | rw [mk_upd]
    | with_reducible rfl | exact Nat.le_refl _ | intro _ | split

theorem within_measureSymbol {o s} (h : Within o s) {x2 x3 x4} :
    Within o (State.measureSymbol s x2 x3 x4) := by
  unfold State.measureSymbol
  try dsimp only
  repeat' first
    | with_reducible assumption | with_reducible apply within_modChan | with_reducible apply Within.upd | rw [mk_upd]
    | with_reducible rfl | exact Nat.le_refl _ | intro _ | split

theorem within_adaptSymbol {o s} (h : Within o s) {x2 x3} :
    Within o (State.adaptSymbol s x2 x3) := by
  unfold State.adaptSymbol
  try dsimp only
  repeat' first
    | with_reducible assumption | with_reducible apply within_modRx | with_reducible apply within_useFresh
    | with_reducible apply Within.upd | rw [mk_upd] | with_reducible rfl | exact Nat.le_refl _ | intro _ | split

theorem within_takeAligned {o s} (h : Within o s) {x2 x3} :
    Within o (State.takeAligned s x2 x3) := by
  unfold State.takeAligned
  try dsimp only
  repeat' first
    | with_reducible assumption | with_reducible apply within_modChan | with_reducible apply within_measureSymbol
    | with_reducible apply within_adaptSymbol | with_reducible apply Within.upd | rw [mk_upd] | with_reducible rfl
    | exact Nat.le_refl _ | intro _ | split

theorem within_takeSymbol {o s} (h : Within o s) {x2 x3} :
    Within o (State.takeSymbol s x2 x3) := by
  unfold State.takeSymbol
  try dsimp only
  repeat' first
    | with_reducible assumption | with_reducible apply within_takeAligned | with_reducible apply within_modChan
    | intro _ | split

theorem within_takeTransformed {o s} (h : Within o s) {x2} :
    Within o (State.takeTransformed s x2) := by
  unfold State.takeTransformed
  try dsimp only
  repeat' first
    | with_reducible assumption | with_reducible apply within_equaliseSymbol | with_reducible apply within_takeSymbol
    | intro _ | split

theorem within_noiseSymbol {o s} (h : Within o s) {x2} :
    Within o (State.noiseSymbol s x2) := by
  unfold State.noiseSymbol
  try dsimp only
  repeat' first
    | with_reducible assumption | with_reducible apply within_modChan | with_reducible apply Within.upd | rw [mk_upd]
    | with_reducible rfl | exact Nat.le_refl _ | intro _ | split

theorem within_transform {o s} (h : Within o s) {x2} :
    Within o (State.transform s x2) := by
  unfold State.transform
  try dsimp only
  repeat' first
    | with_reducible assumption | with_reducible apply within_modChan | with_reducible apply within_noiseSymbol
    | intro _ | split

theorem within_symbolRound {o s} (h : Within o s) {x2} :
    Within o (State.symbolRound s x2) := by
  unfold State.symbolRound
  try dsimp only
  repeat' first
    | with_reducible assumption | with_reducible apply within_eachReception | with_reducible apply within_endSymbol
    | with_reducible apply within_takeTransformed | with_reducible apply within_transform | intro _ | split

theorem within_acquireGain {o s} (h : Within o s) {x2 x3} :
    Within o (State.acquireGain s x2 x3) := by
  unfold State.acquireGain
  try dsimp only
  repeat' first
    | with_reducible assumption | with_reducible apply within_modRx | with_reducible apply Within.upd | rw [mk_upd]
    | with_reducible rfl | exact Nat.le_refl _ | intro _ | split

theorem within_acquire {o s} (h : Within o s) {x2} :
    Within o (State.acquire s x2) := by
  unfold State.acquire
  try dsimp only
  repeat' first
    | with_reducible assumption | with_reducible apply within_acquireGain | intro _ | split

theorem within_takeEqualised {o s} (h : Within o s) {x2} :
    Within o (State.takeEqualised s x2) := by
  unfold State.takeEqualised
  try dsimp only
  repeat' first
    | with_reducible assumption | with_reducible apply within_takeSymbol | intro _ | split

theorem within_receiveAll {o s} (h : Within o s) {x2} :
    Within o (State.receiveAll s x2) := by
  unfold State.receiveAll
  try dsimp only
  repeat' first
    | with_reducible assumption | with_reducible apply within_eachReception | with_reducible apply within_receive
    | with_reducible apply within_symbolRound | with_reducible apply within_acquire
    | with_reducible apply within_takeEqualised | intro _ | split

theorem within_noiseTurn {o s} (h : Within o s) {x2} :
    Within o (State.noiseTurn s x2) := by
  unfold State.noiseTurn
  try dsimp only
  repeat' first
    | with_reducible assumption | with_reducible apply within_modChan | with_reducible apply Within.upd | rw [mk_upd]
    | with_reducible rfl | exact Nat.le_refl _ | intro _ | split

theorem within_endSlot {o s} (h : Within o s) {x2} :
    Within o (State.endSlot s x2) := by
  unfold State.endSlot
  try dsimp only
  repeat' first
    | with_reducible assumption | with_reducible apply within_eachChan | with_reducible apply within_sendSlot
    | with_reducible apply within_receiveAll | with_reducible apply within_markTick
    | with_reducible apply within_noiseTurn | intro _ | split

theorem within_takeSlacks {o s : State} (h : Within o s) {x1} : Within o (takeSlacks x1 s) := by
  fun_induction takeSlacks x1 s
  repeat' first
    | with_reducible assumption | with_reducible refine (‹Within o _ → Within o _›) ?_
    | with_reducible apply within_takeSlack

theorem within_eraseEach {o s : State} (h : Within o s) {x1} : Within o (State.eraseEach x1 s) := by
  fun_induction State.eraseEach x1 s
  repeat' first
    | with_reducible assumption | with_reducible refine (‹Within o _ → Within o _›) ?_
    | with_reducible apply within_modChan | intro _ | split

theorem within_setLate {o s} (h : Within o s) {x2} :
    Within o (State.setLate s x2) := by
  unfold State.setLate
  try dsimp only
  repeat' first
    | with_reducible assumption | with_reducible apply within_eachChan | with_reducible apply within_modChan
    | with_reducible apply Within.upd | rw [mk_upd] | with_reducible rfl | exact Nat.le_refl _ | intro _ | split

theorem within_endLists {o s} (h : Within o s) {x2 x3} :
    Within o (State.endLists s x2 x3) := by
  unfold State.endLists
  try dsimp only
  repeat' first
    | with_reducible assumption | with_reducible apply within_takeSlacks | with_reducible apply within_sweepCache
    | with_reducible apply within_eraseEach | with_reducible apply within_setLate
    | with_reducible apply within_modSched | with_reducible apply Within.upd | rw [mk_upd] | with_reducible rfl
    | exact Nat.le_refl _ | intro _ | split

theorem within_scrubTick {o s} (h : Within o s) :
    Within o (State.scrubTick s) := by
  unfold State.scrubTick
  try dsimp only
  repeat' first
    | with_reducible assumption | with_reducible apply within_modSched | with_reducible apply WithinO.some
    | with_reducible exact WithinO.none | with_reducible apply Within.upd | rw [mk_upd] | with_reducible rfl
    | exact Nat.le_refl _ | intro _ | split

theorem within_calTick {o s} (h : Within o s) :
    Within o (State.calTick s) := by
  unfold State.calTick
  try dsimp only
  repeat' first
    | with_reducible assumption | with_reducible apply within_modCalib | with_reducible apply Within.upd | rw [mk_upd]
    | with_reducible rfl | exact Nat.le_refl _ | intro _ | split

theorem within_noteAck {o s} (h : Within o s) :
    Within o (State.noteAck s) := by
  unfold State.noteAck
  try dsimp only
  repeat' first
    | with_reducible assumption | with_reducible apply Within.upd | rw [mk_upd] | with_reducible rfl
    | exact Nat.le_refl _ | intro _ | split

theorem within_background {o s} (h : Within o s) :
    Within o (State.background s) := by
  unfold State.background
  try dsimp only
  repeat' first
    | with_reducible assumption | with_reducible apply within_scrubTick | with_reducible apply within_calTick
    | with_reducible apply within_noteAck | with_reducible apply within_settleSoundings
    | with_reducible apply within_postTick | intro _ | split

theorem within_decideAll {o s} (h : Within o s) :
    Within o (State.decideAll s) := by
  unfold State.decideAll
  try dsimp only
  repeat' first
    | with_reducible assumption | with_reducible apply Within.upd | rw [mk_upd] | with_reducible rfl
    | exact Nat.le_refl _ | intro _ | split

end Sys2Proof.Machine
end

