-- ==== Sys2Proof/Laws/Holds.lean ====
section
/-! SUPPORT. What the operations that change the stage, the clock or the image still leave: the queue of commands, the test
access port, the reset inputs, the reset stage, and the canonical form of the keyed tables. -/

namespace Sys2Proof.Machine

/-- From `o` to `t` the device has not left the reset stage, and what only commands outside the start change is as it was. -/
structure Lasts (o t : State) : Prop where
  pending : t.pending = o.pending
  tap : t.tap = o.tap
  resetN : t.pins.resetN = o.pins.resetN
  pwrok : t.pins.pwrok = o.pins.pwrok
  stage : o.start.stage = .reset → t.start.stage = .reset
  fresh : o.fresh ≤ t.fresh
  chans : keysRise 0 64 o.chans = true → keysRise 0 64 t.chans = true
  queues : keysRise 0 1024 o.queues = true → keysRise 0 1024 t.queues = true

/-- And the accepted anchors are kept. -/
structure Holds (o t : State) : Prop extends Lasts o t where
  anchors : ∀ p a, (o.rings p).anchor = some a → (t.rings p).anchor = some a

/-- The same of a meaning, which answers a next state. -/
def LastsR (o : State) : Host.Outcome State Fault Refusal → Prop
  | .next t => Lasts o t
  | _ => False

/-- The same of a meaning, which answers a next state. -/
def HoldsR (o : State) : Host.Outcome State Fault Refusal → Prop
  | .next t => Holds o t
  | _ => False

theorem Lasts.trans {o s t : State} (h : Lasts o s) (k : Lasts s t) : Lasts o t :=
  ⟨k.pending.trans h.pending, k.tap.trans h.tap, k.resetN.trans h.resetN, k.pwrok.trans h.pwrok,
    fun x => k.stage (h.stage x), Nat.le_trans h.fresh k.fresh, fun x => k.chans (h.chans x),
    fun x => k.queues (h.queues x)⟩

theorem Holds.refl (s : State) : Holds s s :=
  ⟨⟨rfl, rfl, rfl, rfl, id, Nat.le_refl _, id, id⟩, fun _ _ e => e⟩

theorem Holds.trans {o s t : State} (h : Holds o s) (k : Holds s t) : Holds o t :=
  ⟨h.toLasts.trans k.toLasts, fun p a x => k.anchors p a (h.anchors p a x)⟩

theorem Within.holds {o t : State} (h : Within o t) : Holds o t :=
  ⟨⟨h.pending, h.tap, h.resetN, h.pwrok, fun x => h.stage.trans x, h.fresh, h.chans, h.queues⟩, h.anchors⟩

theorem Holds.within {o s t : State} (h : Holds o s) (k : Within s t) : Holds o t :=
  h.trans k.holds

theorem Lasts.within {o s t : State} (h : Lasts o s) (k : Within s t) : Lasts o t :=
  h.trans k.holds.toLasts

theorem HoldsR.lasts {o : State} {r : Host.Outcome State Fault Refusal} (h : HoldsR o r) : LastsR o r := by
  cases r
  · exact Holds.toLasts h
  · exact h
  · exact h

theorem WithinR.holds {o : State} {r : Host.Outcome State Fault Refusal} (h : WithinR o r) : HoldsR o r := by
  cases r
  · exact Within.holds h
  · exact h
  · exact h

/-- A new clock, start side, image and schedule, the stage of reset kept. -/
theorem Holds.renew {o s : State} (h : Holds o s) {start : Start} {clock : Clock} {image : Image} {sched : Sched}
    (k : s.start.stage = .reset → start.stage = .reset) :
    Holds o { s with start := start, clock := clock, image := image, sched := sched } :=
  h.trans ⟨⟨rfl, rfl, rfl, rfl, k, Nat.le_refl _, id, id⟩, fun _ _ e => e⟩

theorem holds_takeSource (s : State) (level : Bool) : Holds s (s.takeSource level) :=
  ⟨⟨rfl, rfl, rfl, rfl, id, Nat.le_refl _, id, id⟩, fun _ _ e => e⟩

theorem holds_countSwitch (s : State) (r : Option Stage) : Holds s (s.countSwitch r) :=
  ⟨⟨rfl, rfl, rfl, rfl, id, Nat.le_refl _, id, id⟩, fun _ _ e => e⟩

theorem within_beforeSwitch (s : State) : Within s ((((s.abandonCalibration 3).breakAll 4).holdLinks).deselect) :=
  within_deselect (within_holdLinks (within_breakAll (within_abandonCalibration (Within.refl s))))

theorem holds_beginSwitch {s : State} (level : Bool) (h : s.start.stage ≠ .reset) : Holds s (s.beginSwitch level) := by
  have w := within_beforeSwitch s
  unfold State.beginSwitch
  dsimp only
  generalize (((s.abandonCalibration 3).breakAll 4).holdLinks).deselect = u at w ⊢
  exact ⟨⟨w.pending, w.tap, w.resetN, w.pwrok, fun e => absurd e h, w.fresh, w.chans, w.queues⟩, w.anchors⟩

theorem holds_tselChanged (s : State) (level : Bool) : Holds s (s.tselChanged level) := by
  unfold State.tselChanged
  have d : ∀ r, Holds s (((s.countSwitch r).deselect).takeSource level) := fun r =>
    ((holds_countSwitch s r).within (within_deselect (Within.refl _))).trans (holds_takeSource _ _)
  split
  case h_12 e =>
    split
    · exact ⟨⟨rfl, rfl, rfl, rfl, id, Nat.le_refl _, id, id⟩, fun _ _ e => e⟩
    · exact holds_beginSwitch _ (by rw [e]; intro k; cases k)
  all_goals first
    | exact Holds.refl _
    | exact d _
    | exact (holds_countSwitch _ _).trans (holds_takeSource _ _)
    | exact holds_takeSource _ _

theorem holds_execTselChange (level : Bool) (s : State) : HoldsR s (execTselChange level s) := by
  unfold execTselChange
  split
  · exact Holds.refl s
  · exact Holds.trans (s := { s with pins := { s.pins with tsel := level } })
      ⟨⟨rfl, rfl, rfl, rfl, id, Nat.le_refl _, id, id⟩, fun _ _ e => e⟩ (holds_tselChanged _ _)

theorem holds_endSwitch {s : State} (h : s.start.stage = .switching) : Holds s s.endSwitch := by
  unfold State.endSwitch
  exact Holds.within (s := { s with
    start := { s.start with stage := .running }
    clock := { s.clock with slot := 255, switches := s.clock.switches + 1 }
    sched := { s.sched with behind := [], unmeasured := true } })
    ⟨⟨rfl, rfl, rfl, rfl, fun e => absurd (e.symm.trans h) (by intro k; cases k), Nat.le_refl _, id, id⟩, fun _ _ e => e⟩
    (within_reissueStore (Within.refl _))

theorem holds_execSourceSwitchDone (s : State) : HoldsR s (execSourceSwitchDone s) := by
  unfold execSourceSwitchDone
  split
  · next h => exact holds_endSwitch (by simp at h; exact h.1)
  · exact Holds.refl s

theorem within_loadCommand {o s : State} (h : Within o s) {d k} : Within o (s.loadCommand d k) := by
  unfold State.loadCommand
  split
  · exact within_loadCommands h
  · exact within_say (within_select h)

theorem holds_execStartupSwitchCountDone (c : Fin 20) (d : Nat) (s : State) :
    HoldsR s (execStartupSwitchCountDone c d s) := by
  unfold execStartupSwitchCountDone
  split
  · have r : Holds s { s with start := { s.start with recount := none } } :=
      ⟨⟨rfl, rfl, rfl, rfl, id, Nat.le_refl _, id, id⟩, fun _ _ e => e⟩
    dsimp only
    split
    · exact r.within (within_loadCommand (Within.refl _))
    · exact r.within (within_say (Within.refl _))
    · exact ⟨⟨rfl, rfl, rfl, rfl, id, Nat.le_refl _, id, id⟩, fun _ _ e => e⟩
    · exact r
  · exact Holds.refl s

theorem holds_execHckInterruption (s : State) : HoldsR s (execHckInterruption s) := by
  unfold execHckInterruption
  have w := within_modLink (Within.refl s) (x2 := s.sourcePort) (x3 := fun l => { l with clockStopped := true })
  dsimp only
  split
  · exact w.holds
  · exact (w.holds.renew (start := _) (image := _) (sched := _) (fun e => e)).within (within_breakAll (Within.refl _))

theorem holds_execHckReturn (s : State) : HoldsR s (execHckReturn s) := by
  unfold execHckReturn
  dsimp only
  split
  · have r : Holds s { s with clock := { s.clock with interrupted := false, pendingTsel := false } } :=
      ⟨⟨rfl, rfl, rfl, rfl, id, Nat.le_refl _, id, id⟩, fun _ _ e => e⟩
    have w := within_portClockBack (Within.refl { s with
      clock := { s.clock with interrupted := false, pendingTsel := false } }) (x2 := s.sourcePort)
    generalize ({ s with clock := { s.clock with interrupted := false, pendingTsel := false } } : State).portClockBack
      s.sourcePort = u at w ⊢
    split
    · next h =>
      refine (r.within w).trans (holds_beginSwitch _ ?_)
      rw [w.stage]
      intro e
      simp at h
      rw [h.1.1] at e
      cases e
    · exact r.within w
  · exact Holds.refl s

theorem holds_lineStop {s : State} (e : Entry) (h : s.start.stage ≠ .reset) : Holds s (s.lineStop e) := by
  have w := within_modLink (within_modLink (within_holdLinks (Within.refl s)) (x2 := .a) (x3 := HostLink.idle))
    (x2 := .b) (x3 := HostLink.idle)
  unfold State.lineStop
  dsimp only
  generalize (s.holdLinks.modLink .a HostLink.idle).modLink .b HostLink.idle = u at w ⊢
  exact ⟨⟨w.pending, w.tap, w.resetN, w.pwrok, fun k => absurd k h, w.fresh, w.chans, w.queues⟩, w.anchors⟩

theorem runs_not_reset {s : State} (h : s.runs = true) : s.start.stage ≠ .reset := by
  intro e
  simp [State.runs, e] at h

theorem holds_execDormantLineStop (s : State) : HoldsR s (execDormantLineStop s) := by
  unfold execDormantLineStop
  split
  · split
    · next h => exact holds_lineStop _ (runs_not_reset (by simp at h; exact h.1))
    · exact Holds.refl s
  · exact Holds.refl s

theorem lasts_forgetHost (s : State) : Lasts s s.forgetHost := by
  have w : Within s (eachChan State.forgetChan allChans s.forgetFaults) :=
    within_eachChan (within_forgetFaults (Within.refl s)) (fun t c k => within_modRetry (within_modWake k))
  unfold State.forgetHost
  dsimp only
  generalize eachChan State.forgetChan allChans s.forgetFaults = u at w ⊢
  exact ⟨w.pending, w.tap, w.resetN, w.pwrok, fun k => w.stage.trans k, w.fresh, w.chans, fun _ => rfl⟩

theorem lasts_exitBegin {s : State} {k : DormantKind} (h : s.start.stage = .dormant k) : Lasts s (s.exitBegin k) := by
  have ne : s.start.stage ≠ .reset := by rw [h]; intro x; cases x
  cases k <;> unfold State.exitBegin <;> dsimp only
  · have q := within_modLink (within_modLink (Within.refl s) (x2 := .a) (x3 := HostLink.recount)) (x2 := .b)
      (x3 := HostLink.recount)
    generalize (s.modLink .a HostLink.recount).modLink .b HostLink.recount = u at q ⊢
    exact ⟨q.pending, q.tap, q.resetN, q.pwrok, fun e => absurd e ne, q.fresh, q.chans, q.queues⟩
  · have q := (lasts_forgetHost s).within (within_modLink (within_modLink (Within.refl s.forgetHost) (x2 := .a)
      (x3 := HostLink.recount)) (x2 := .b) (x3 := HostLink.recount))
    generalize (s.forgetHost.modLink .a HostLink.recount).modLink .b HostLink.recount = u at q ⊢
    exact ⟨q.pending, q.tap, q.resetN, q.pwrok, fun e => absurd e ne, q.fresh, q.chans, q.queues⟩

theorem lasts_execDormantExitBegin (s : State) : LastsR s (execDormantExitBegin s) := by
  unfold execDormantExitBegin
  split
  · next k h =>
    cases (s.exitHeld && !(s.link (if s.pins.tsel then .b else .a)).clockStopped)
    · exact (Holds.refl s).toLasts
    · exact lasts_exitBegin h
  · exact (Holds.refl s).toLasts

theorem holds_beginLoad {s : State} (d : FlashDev) (h : s.start.stage ≠ .reset) : Holds s (s.beginLoad d) := by
  unfold State.beginLoad
  exact Holds.within (s := { s with start := { s.start with stage := .imageLoad d, copy := [] } })
    ⟨⟨rfl, rfl, rfl, rfl, fun e => absurd e h, Nat.le_refl _, id, id⟩, fun _ _ e => e⟩ (within_loadCommands (Within.refl _))

theorem holds_warmRun {s : State} (n : Nat) (h : s.start.stage ≠ .reset) : Holds s (s.warmRun n) := by
  unfold State.warmRun
  dsimp only
  refine Holds.within (s := { s with start := { s.start with stage := .ready, duration := durationField n } })
    ⟨⟨rfl, rfl, rfl, rfl, fun e => absurd e h, Nat.le_refl _, id, id⟩, fun _ _ e => e⟩ ?_
  refine within_modRings (within_modRings (Within.refl _) ?_) ?_
  · intro _ _ e
    exact e
  · intro _ _ e
    exact e

theorem holds_execWarmCountDone (n : Nat) (s : State) : HoldsR s (execWarmCountDone n s) := by
  unfold execWarmCountDone
  split
  · next k h =>
    have ne : s.start.stage ≠ .reset := by rw [h]; intro x; cases x
    split
    · exact Holds.refl s
    · cases k
      · exact holds_warmRun n ne
      · exact holds_beginLoad .primary ne
  · exact Holds.refl s

theorem within_ite {o a b : State} {c : Prop} [Decidable c] (h : Within o a) (k : Within o b) :
    Within o (if c then a else b) := by
  split <;> assumption

theorem holds_slotWork (s : State) : Holds s s.slotWork := by
  have r : Holds s { s with clock := { s.clock with symbols := s.clock.symbols + 1 } } :=
    ⟨⟨rfl, rfl, rfl, rfl, id, Nat.le_refl _, id, id⟩, fun _ _ e => e⟩
  refine r.within ?_
  unfold State.slotWork
  dsimp only
  generalize { s with clock := { s.clock with symbols := s.clock.symbols + 1 } } = u
  refine within_background (within_owedStart (within_owedStart (within_eachChan ?_ fun t c k => within_chanSymbol k)))
  have w : Within u (eachChan (fun t c => t.modChan c Chan.freshSymbol)
      ((u.actAllHeld .a).actAllHeld .b).decideAll.liveChans ((u.actAllHeld .a).actAllHeld .b).decideAll) :=
    within_eachChan (within_decideAll (within_actAllHeld (within_actAllHeld (Within.refl u)))) fun t c k => within_modChan k
  exact within_ite (within_boundary w) w

theorem holds_nextSlot (s : State) : Holds s s.nextSlot := by
  unfold State.nextSlot
  split
  · exact Holds.renew (start := _) (image := _) (sched := _)
      (within_eachChan (Within.refl s) (fun t c k => within_countSuperframe k)).holds (fun e => e)
  · exact ⟨⟨rfl, rfl, rfl, rfl, id, Nat.le_refl _, id, id⟩, fun _ _ e => e⟩

theorem holds_firstTick {s : State} (h : s.start.stage ≠ .reset) : Holds s s.firstTick := by
  unfold State.firstTick
  split
  · exact Holds.within (s := { s with
      start := { s.start with stage := .running }, clock := { s.clock with sf := 0, slot := 0 }, sched := Sched.reset })
      ⟨⟨rfl, rfl, rfl, rfl, fun e => absurd e h, Nat.le_refl _, id, id⟩, fun _ _ e => e⟩
      (within_beginCalCount (within_eachChan (Within.refl _) (fun t c k => within_startChan k)))
  · exact ⟨⟨rfl, rfl, rfl, rfl, fun e => absurd e h, Nat.le_refl _, id, id⟩, fun _ _ e => e⟩

theorem holds_execSlotTick (slack : List (Nat × Int)) (late : List Nat) (received : List (ChanId × Reception))
    (errors : List SramError) (s : State) : HoldsR s (execSlotTick slack late received errors s) := by
  unfold execSlotTick
  split
  · exact Holds.refl s
  · split
    · next h =>
      exact (holds_firstTick (by simp at h; rw [h.1]; intro x; cases x)).trans (holds_slotWork _)
    · split
      · have w := within_endLists (within_endSlot (Within.refl s) (x2 := received)) (x2 := slack) (x3 := late)
        exact ((w.holds.trans (holds_nextSlot _)).trans (holds_slotWork _)).within
          (within_injectedScrub (within_sramErrors (Within.refl _)))
      · exact Holds.refl s

theorem stageRuns_stage {s : State} {x : Stage} (h : s.stageRuns x = true) : s.start.stage = x := by
  simp [State.stageRuns] at h
  exact h.1.1

/-- Where the start is not in the reset stage, a new start side holds the reset stage. -/
theorem Holds.restart {o s : State} (h : Holds o s) (ne : s.start.stage ≠ .reset) {start : Start} {pins : Pins}
    {image : Image} {calib : Calib} (h1 : pins.resetN = s.pins.resetN) (h2 : pins.pwrok = s.pins.pwrok) :
    Holds o { s with start := start, pins := pins, image := image, calib := calib } :=
  h.trans ⟨⟨rfl, rfl, h1, h2, fun e => absurd e ne, Nat.le_refl _, id, id⟩, fun _ _ e => e⟩

theorem holds_execStabilityCountDone (l : StrapLevels) (c : Bool) (s : State) :
    HoldsR s (execStabilityCountDone l c s) := by
  unfold execStabilityCountDone
  split
  · next h =>
    have ne : s.start.stage ≠ .reset := by rw [stageRuns_stage h]; intro x; cases x
    unfold State.sampleStraps State.refuseStart
    dsimp only
    split
    · exact (Holds.refl s).restart ne rfl rfl
    · exact (Holds.refl s).restart ne rfl rfl
  · exact Holds.refl s

theorem holds_execStrapResistorStepEnd (rm : List (Option Nat)) (s : State) :
    HoldsR s (execStrapResistorStepEnd rm s) := by
  unfold execStrapResistorStepEnd
  split
  · next h =>
    have ne : s.start.stage ≠ .reset := by
      simp at h
      rw [stageRuns_stage h.1]
      intro x; cases x
    exact Holds.trans ((Holds.refl s).restart (start := (s.readResistors rm).start) (pins := s.pins) ne rfl rfl)
      (holds_beginLoad .primary ne)
  · exact Holds.refl s

theorem loading_stage {s : State} {d : FlashDev} (h : s.loading = some d) : s.start.stage = .imageLoad d := by
  unfold State.loading at h
  split at h
  · next e =>
    split at h
    · cases h; exact e
    · cases h
  · cases h

theorem checking_stage {s : State} {d : FlashDev} (h : s.checking = some d) : s.start.stage = .imageCheck d := by
  unfold State.checking at h
  split at h
  · next e =>
    split at h
    · cases h; exact e
    · cases h
  · cases h

theorem holds_copyFailed {s : State} (d : FlashDev) (code : Nat) (ne : s.start.stage ≠ .reset) :
    Holds s (s.copyFailed d code) := by
  cases d
  · exact Holds.trans ((Holds.refl s).restart (start := (s.copyResult .primary code).start) (pins := s.pins) ne rfl rfl)
      (holds_beginLoad .mirror ne)
  · exact (Holds.refl s).restart ne rfl rfl

theorem within_loadReads {o s : State} (h : Within o s) {d f b} : Within o (s.loadReads d f b) := by
  unfold State.loadReads
  dsimp only
  split
  · split
    · exact within_say h
    · exact within_say (within_say h)
  · exact h

theorem holds_execImageLoaded (sfdp b : Bytes) (s : State) : HoldsR s (execImageLoaded sfdp b s) := by
  unfold execImageLoaded
  split
  · exact Holds.refl s
  · next d h =>
    have ne : s.start.stage ≠ .reset := by rw [loading_stage h]; intro x; cases x
    have w := within_select (within_loadReads (Within.refl s) (d := d) (f := sfdp) (b := b)) (x2 := d) (x3 := false)
    have ne' : ((s.loadReads d sfdp b).select d false).start.stage ≠ .reset := by rw [w.stage]; exact ne
    dsimp only
    split
    · exact w.holds.restart ne' rfl rfl
    · exact w.holds.trans (holds_copyFailed _ _ ne')

theorem holds_execImageChecked (s : State) : HoldsR s (execImageChecked s) := by
  unfold execImageChecked
  split
  · exact Holds.refl s
  · next d h =>
    have ne : s.start.stage ≠ .reset := by rw [checking_stage h]; intro x; cases x
    dsimp only
    split
    · cases d
      · exact (Holds.refl s).restart ne rfl rfl
      · exact (Holds.refl s).restart ne rfl rfl
    · exact holds_copyFailed _ _ ne

theorem holds_loadCoefficients {s : State} (p m : CoeffRead) (t : Int) (ne : s.start.stage ≠ .reset) :
    Holds s (s.loadCoefficients p m t) := by
  unfold State.loadCoefficients
  exact Holds.within ((Holds.refl s).restart ne rfl rfl) (within_applyTrims (within_newTemp (Within.refl _)))

theorem holds_execCoefficientsLoaded (p m : CoeffRead) (t : Int) (n : Nat) (s : State) :
    HoldsR s (execCoefficientsLoaded p m t n s) := by
  unfold execCoefficientsLoaded
  split
  · next h =>
    have w := within_coefficientCommands (Within.refl s) (x2 := p) (x3 := m)
    have ne : (s.coefficientCommands p m).start.stage ≠ .reset := by
      rw [w.stage, stageRuns_stage h]; intro x; cases x
    have r := w.holds.trans (holds_loadCoefficients p m t ne)
    exact ⟨⟨r.pending, r.tap, r.resetN, r.pwrok,
      fun e => absurd (e.symm.trans (stageRuns_stage h)) (by intro x; cases x), r.fresh, r.chans, r.queues⟩, r.anchors⟩
  · exact Holds.refl s

theorem holds_execCalNFalling (s : State) : HoldsR s (execCalNFalling s) := by
  have r : Holds s { s with pins := { s.pins with calN := false } } :=
    ⟨⟨rfl, rfl, rfl, rfl, id, Nat.le_refl _, id, id⟩, fun _ _ e => e⟩
  unfold execCalNFalling
  dsimp only
  split
  · split
    · exact r.within (within_commandByPin (within_modCalib (Within.refl _)))
    · exact r.within (within_modCalib (Within.refl _))
  · exact r

theorem holds_execCalNRising (s : State) : HoldsR s (execCalNRising s) := by
  have r : Holds s { s with pins := { s.pins with calN := true } } :=
    ⟨⟨rfl, rfl, rfl, rfl, id, Nat.le_refl _, id, id⟩, fun _ _ e => e⟩
  unfold execCalNRising
  dsimp only
  split
  · exact r.within (within_modCalib (Within.refl _))
  · exact r

end Sys2Proof.Machine
end

