-- ==== Sys2Proof/Laws/Commands.lean ====
section
/-! SUPPORT. What a command leaves, by command: every command but those of start-up, the clocks, the slot tick, dormant exits
and entries, CAL_N and the test access port stays inside a stage. -/

namespace Sys2Proof.Machine

/-- The commands that stay inside a stage. -/
def inStage : Instr → Bool
  | .resetAssert .. | .resetRelease .. | .stabilityCountDone .. | .strapResistorStepEnd .. | .imageLoaded .. |
  .imageChecked | .coefficientsLoaded .. | .slotTick .. | .tselChange .. | .sourceSwitchDone |
  .startupSwitchCountDone .. | .hckInterruption | .hckReturn | .dormantLineStop | .dormantExitBegin |
  .warmCountDone .. | .calNFalling | .calNRising | .tapReset .. | .extest .. | .idcode | .samplePreload .. |
  .clamp | .highz | .extestPulse .. | .extestTrain .. | .startStatus | .keyRead | .keyProgram .. | .factoryRef
  | .dieId | .bypass .. => false
  | _ => true

theorem exec_within (c : Instr) (s : State) (h : inStage c = true) : WithinR s (exec c s) := by
  cases c with
  | resetAssert => cases h
  | resetRelease => cases h
  | stabilityCountDone => cases h
  | strapResistorStepEnd => cases h
  | portStabilityCountDone => exact within_execPortStabilityCountDone (Within.refl s)
  | imageLoaded => cases h
  | imageChecked => cases h
  | coefficientsLoaded => cases h
  | slotTick => cases h
  | sensorReading => exact within_execSensorReading (Within.refl s)
  | telemetryBoundary => exact within_execTelemetryBoundary (Within.refl s)
  | qualityPeriodBoundary => exact within_execQualityPeriodBoundary (Within.refl s)
  | backgroundTaskStart => exact within_execBackgroundTaskStart (Within.refl s)
  | tselChange => cases h
  | sourceSwitchDone => cases h
  | startupSwitchCountDone => cases h
  | hckInterruption => cases h
  | hckReturn => cases h
  | portClockStop => exact within_execPortClockStop (Within.refl s)
  | portClockReturn => exact within_execPortClockReturn (Within.refl s)
  | hostTrainAttemptStart => exact within_execHostTrainAttemptStart (Within.refl s)
  | trainBlock => exact within_execTrainBlock (Within.refl s)
  | linkParametersFrame => exact within_execLinkParametersFrame (Within.refl s)
  | trainingPhaseLimit => exact within_execTrainingPhaseLimit (Within.refl s)
  | attemptIdleEnd => exact within_execAttemptIdleEnd (Within.refl s)
  | blockLockLost => exact within_execBlockLockLost (Within.refl s)
  | hostFrameBad => exact within_execHostFrameBad (Within.refl s)
  | frameNotActedOn => exact within_execFrameNotActedOn (Within.refl s)
  | ack => exact within_execAck (Within.refl s)
  | nak => exact within_execNak (Within.refl s)
  | credit => exact within_execCredit (Within.refl s)
  | retrain => exact within_execRetrain (Within.refl s)
  | ackRepeat => exact within_execAckRepeat (Within.refl s)
  | creditRepeat => exact within_execCreditRepeat (Within.refl s)
  | replayInterval => exact within_execReplayInterval (Within.refl s)
  | readCompletion => exact within_execReadCompletion (Within.refl s)
  | readCompletionTimeout => exact within_execReadCompletionTimeout (Within.refl s)
  | tagHoldExpiry => exact within_execTagHoldExpiry (Within.refl s)
  | anchorMessage => exact within_execAnchorMessage (Within.refl s)
  | workQueueDoorbell => exact within_execWorkQueueDoorbell (Within.refl s)
  | consumedDoorbell => exact within_execConsumedDoorbell (Within.refl s)
  | itemFetch => exact within_execItemFetch (Within.refl s)
  | eventFrame => exact within_execEventFrame (Within.refl s)
  | recordWrite => exact within_execRecordWrite (Within.refl s)
  | malformedItem => exact within_execMalformedItem (Within.refl s)
  | faultClear => exact within_execFaultClear (Within.refl s)
  | faultAcknowledge => exact within_execFaultAcknowledge (Within.refl s)
  | calibrate => exact within_execCalibrate (Within.refl s)
  | soundCable => exact within_execSoundCable (Within.refl s)
  | enterDormant => exact within_execEnterDormant (Within.refl s)
  | injectCheckInversion => exact within_execInjectCheckInversion (Within.refl s)
  | channelUp => exact within_execChannelUp (Within.refl s)
  | channelDown => exact within_execChannelDown (Within.refl s)
  | channelQuiet => exact within_execChannelQuiet (Within.refl s)
  | channelSleep => exact within_execChannelSleep (Within.refl s)
  | marginOverride => exact within_execMarginOverride (Within.refl s)
  | windowOpen => exact within_execWindowOpen (Within.refl s)
  | windowRevoke => exact within_execWindowRevoke (Within.refl s)
  | revokeDrained => exact within_execRevokeDrained (Within.refl s)
  | pageReady => exact within_execPageReady (Within.refl s)
  | pageReadyDrained => exact within_execPageReadyDrained (Within.refl s)
  | injectionLimitExpiry => exact within_execInjectionLimitExpiry (Within.refl s)
  | writeItem => exact within_execWriteItem (Within.refl s)
  | readItem => exact within_execReadItem (Within.refl s)
  | sendItem => exact within_execSendItem (Within.refl s)
  | receiveItem => exact within_execReceiveItem (Within.refl s)
  | atomicItem => exact within_execAtomicItem (Within.refl s)
  | flushItem => exact within_execFlushItem (Within.refl s)
  | relayItem => exact within_execRelayItem (Within.refl s)
  | streamStart => exact within_execStreamStart (Within.refl s)
  | streamBuffer => exact within_execStreamBuffer (Within.refl s)
  | streamStop => exact within_execStreamStop (Within.refl s)
  | reserveRelease => exact within_execReserveRelease (Within.refl s)
  | codewordDecoded => exact within_execCodewordDecoded (Within.refl s)
  | syncMinusS => exact within_execSyncMinusS (Within.refl s)
  | missedSyncs => exact within_execMissedSyncs (Within.refl s)
  | gainTrackingStep => exact within_execGainTrackingStep (Within.refl s)
  | antiAliasCornerChange => exact within_execAntiAliasCornerChange (Within.refl s)
  | preEqualiserUpdate => exact within_execPreEqualiserUpdate (Within.refl s)
  | transformWindowMove => exact within_execTransformWindowMove (Within.refl s)
  | echoRetrainStart => exact within_execEchoRetrainStart (Within.refl s)
  | echoRetrainEnd => exact within_execEchoRetrainEnd (Within.refl s)
  | echoRetrainHoldoffEnd => exact within_execEchoRetrainHoldoffEnd (Within.refl s)
  | loadingRecompute => exact within_execLoadingRecompute (Within.refl s)
  | bitSwapRequest => exact within_execBitSwapRequest (Within.refl s)
  | bitSwapReply => exact within_execBitSwapReply (Within.refl s)
  | bitSwapApply => exact within_execBitSwapApply (Within.refl s)
  | bitSwapResendTimeout => exact within_execBitSwapResendTimeout (Within.refl s)
  | capabilityFrame => exact within_execCapabilityFrame (Within.refl s)
  | roleFrame => exact within_execRoleFrame (Within.refl s)
  | startFrame => exact within_execStartFrame (Within.refl s)
  | assembledFrame => exact within_execAssembledFrame (Within.refl s)
  | holdFrame => exact within_execHoldFrame (Within.refl s)
  | searchRoundStart => exact within_execSearchRoundStart (Within.refl s)
  | exchangeTimeout => exact within_execExchangeTimeout (Within.refl s)
  | assemblyTimeout => exact within_execAssemblyTimeout (Within.refl s)
  | countdownEnd => exact within_execCountdownEnd (Within.refl s)
  | trainPhaseEnd => exact within_execTrainPhaseEnd (Within.refl s)
  | loadingTable => exact within_execLoadingTable (Within.refl s)
  | stateMessage => exact within_execStateMessage (Within.refl s)
  | loadingTableApply => exact within_execLoadingTableApply (Within.refl s)
  | train5Limit => exact within_execTrain5Limit (Within.refl s)
  | downNotice => exact within_execDownNotice (Within.refl s)
  | silenceToleranceExpiry => exact within_execSilenceToleranceExpiry (Within.refl s)
  | f1Acquired => exact within_execF1Acquired (Within.refl s)
  | f1Limit => exact within_execF1Limit (Within.refl s)
  | f2End => exact within_execF2End (Within.refl s)
  | f3Limit => exact within_execF3Limit (Within.refl s)
  | quietIdleTimeout => exact within_execQuietIdleTimeout (Within.refl s)
  | quietRequest => exact within_execQuietRequest (Within.refl s)
  | quietReply => exact within_execQuietReply (Within.refl s)
  | quietReplyTimeout => exact within_execQuietReplyTimeout (Within.refl s)
  | quietStreamsEnded => exact within_execQuietStreamsEnded (Within.refl s)
  | quietRefresh => exact within_execQuietRefresh (Within.refl s)
  | refreshMissed => exact within_execRefreshMissed (Within.refl s)
  | quietWorkPending => exact within_execQuietWorkPending (Within.refl s)
  | alertDetected => exact within_execAlertDetected (Within.refl s)
  | alertAnswerTimeout => exact within_execAlertAnswerTimeout (Within.refl s)
  | sleepNotice => exact within_execSleepNotice (Within.refl s)
  | wakeFramesSent => exact within_execWakeFramesSent (Within.refl s)
  | wakeAnswerLimit => exact within_execWakeAnswerLimit (Within.refl s)
  | wakeFrameDecoded => exact within_execWakeFrameDecoded (Within.refl s)
  | wakeRestoreDone => exact within_execWakeRestoreDone (Within.refl s)
  | falseWakeTimeout => exact within_execFalseWakeTimeout (Within.refl s)
  | dormantEntryAfterStore => exact within_execDormantEntryAfterStore (Within.refl s)
  | dormantLineStop => cases h
  | exitSignal => exact within_execExitSignal (Within.refl s)
  | dormantExitBegin => cases h
  | warmCountDone => cases h
  | restart => exact within_execRestart (Within.refl s)
  | resume => exact within_execResume (Within.refl s)
  | discardNotice => exact within_execDiscardNotice (Within.refl s)
  | pad => exact within_execPad (Within.refl s)
  | retransmitTimeout => exact within_execRetransmitTimeout (Within.refl s)
  | retryBudgetExpiry => exact within_execRetryBudgetExpiry (Within.refl s)
  | headerCheckFailed => exact within_execHeaderCheckFailed (Within.refl s)
  | writePacket => exact within_execWritePacket (Within.refl s)
  | readRequest => exact within_execReadRequest (Within.refl s)
  | readResponse => exact within_execReadResponse (Within.refl s)
  | messagePacket => exact within_execMessagePacket (Within.refl s)
  | atomicRequest => exact within_execAtomicRequest (Within.refl s)
  | atomicResponse => exact within_execAtomicResponse (Within.refl s)
  | flushRequest => exact within_execFlushRequest (Within.refl s)
  | flushResponse => exact within_execFlushResponse (Within.refl s)
  | statusPacket => exact within_execStatusPacket (Within.refl s)
  | stallLimitExpiry => exact within_execStallLimitExpiry (Within.refl s)
  | resendBackoffExpiry => exact within_execResendBackoffExpiry (Within.refl s)
  | responseLimitExpiry => exact within_execResponseLimitExpiry (Within.refl s)
  | translationAgedOut => exact within_execTranslationAgedOut (Within.refl s)
  | dedupEntryExpired => exact within_execDedupEntryExpired (Within.refl s)
  | streamSlotDue => exact within_execStreamSlotDue (Within.refl s)
  | streamSignal => exact within_execStreamSignal (Within.refl s)
  | graceTimerExpiry => exact within_execGraceTimerExpiry (Within.refl s)
  | calNFalling => cases h
  | calNRising => cases h
  | calNArmed => exact within_execCalNArmed (Within.refl s)
  | calibrationWaitLimit => exact within_execCalibrationWaitLimit (Within.refl s)
  | measurePhaseEnd => exact within_execMeasurePhaseEnd (Within.refl s)
  | flashStatusPoll => exact within_execFlashStatusPoll (Within.refl s)
  | flashBusyLimit => exact within_execFlashBusyLimit (Within.refl s)
  | storeReadbackDone => exact within_execStoreReadbackDone (Within.refl s)
  | soundingEnd => exact within_execSoundingEnd (Within.refl s)
  | noiseFloorMeasurementEnd => exact within_execNoiseFloorMeasurementEnd (Within.refl s)
  | tapReset => cases h
  | extest => cases h
  | idcode => cases h
  | samplePreload => cases h
  | clamp => cases h
  | highz => cases h
  | extestPulse => cases h
  | extestTrain => cases h
  | startStatus => cases h
  | keyRead => cases h
  | keyProgram => cases h
  | factoryRef => cases h
  | dieId => cases h
  | bypass => cases h
  | alignRow => exact within_execAlignRow (Within.refl s)
  | parametersFrameInterval => exact within_execParametersFrameInterval (Within.refl s)

/-- A command that neither resets nor scans keeps the invariants of `Lasts`. -/
def outlasts : Instr → Bool
  | .resetAssert .. | .resetRelease .. | .tapReset .. | .extest .. | .idcode | .samplePreload .. | .clamp | .highz
  | .extestPulse .. | .extestTrain .. | .startStatus | .keyRead | .keyProgram .. | .factoryRef | .dieId | .bypass .. => false
  | _ => true

theorem exec_lasts (c : Instr) (s : State) (h : outlasts c = true) : LastsR s (exec c s) := by
  cases c with
  | resetAssert => cases h
  | resetRelease => cases h
  | stabilityCountDone straps calN => exact (holds_execStabilityCountDone straps calN s).lasts
  | strapResistorStepEnd rm => exact (holds_execStrapResistorStepEnd rm s).lasts
  | portStabilityCountDone => exact (within_execPortStabilityCountDone (Within.refl s)).holds.lasts
  | imageLoaded sfdp bytes => exact (holds_execImageLoaded sfdp bytes s).lasts
  | imageChecked => exact (holds_execImageChecked s).lasts
  | coefficientsLoaded prim mir t duration => exact (holds_execCoefficientsLoaded prim mir t duration s).lasts
  | slotTick slack late received errors => exact (holds_execSlotTick slack late received errors s).lasts
  | sensorReading => exact (within_execSensorReading (Within.refl s)).holds.lasts
  | telemetryBoundary => exact (within_execTelemetryBoundary (Within.refl s)).holds.lasts
  | qualityPeriodBoundary => exact (within_execQualityPeriodBoundary (Within.refl s)).holds.lasts
  | backgroundTaskStart => exact (within_execBackgroundTaskStart (Within.refl s)).holds.lasts
  | tselChange level => exact (holds_execTselChange level s).lasts
  | sourceSwitchDone => exact (holds_execSourceSwitchDone s).lasts
  | startupSwitchCountDone c d => exact (holds_execStartupSwitchCountDone c d s).lasts
  | hckInterruption => exact (holds_execHckInterruption s).lasts
  | hckReturn => exact (holds_execHckReturn s).lasts
  | portClockStop => exact (within_execPortClockStop (Within.refl s)).holds.lasts
  | portClockReturn => exact (within_execPortClockReturn (Within.refl s)).holds.lasts
  | hostTrainAttemptStart => exact (within_execHostTrainAttemptStart (Within.refl s)).holds.lasts
  | trainBlock => exact (within_execTrainBlock (Within.refl s)).holds.lasts
  | linkParametersFrame => exact (within_execLinkParametersFrame (Within.refl s)).holds.lasts
  | trainingPhaseLimit => exact (within_execTrainingPhaseLimit (Within.refl s)).holds.lasts
  | attemptIdleEnd => exact (within_execAttemptIdleEnd (Within.refl s)).holds.lasts
  | blockLockLost => exact (within_execBlockLockLost (Within.refl s)).holds.lasts
  | hostFrameBad => exact (within_execHostFrameBad (Within.refl s)).holds.lasts
  | frameNotActedOn => exact (within_execFrameNotActedOn (Within.refl s)).holds.lasts
  | ack => exact (within_execAck (Within.refl s)).holds.lasts
  | nak => exact (within_execNak (Within.refl s)).holds.lasts
  | credit => exact (within_execCredit (Within.refl s)).holds.lasts
  | retrain => exact (within_execRetrain (Within.refl s)).holds.lasts
  | ackRepeat => exact (within_execAckRepeat (Within.refl s)).holds.lasts
  | creditRepeat => exact (within_execCreditRepeat (Within.refl s)).holds.lasts
  | replayInterval => exact (within_execReplayInterval (Within.refl s)).holds.lasts
  | readCompletion => exact (within_execReadCompletion (Within.refl s)).holds.lasts
  | readCompletionTimeout => exact (within_execReadCompletionTimeout (Within.refl s)).holds.lasts
  | tagHoldExpiry => exact (within_execTagHoldExpiry (Within.refl s)).holds.lasts
  | anchorMessage => exact (within_execAnchorMessage (Within.refl s)).holds.lasts
  | workQueueDoorbell => exact (within_execWorkQueueDoorbell (Within.refl s)).holds.lasts
  | consumedDoorbell => exact (within_execConsumedDoorbell (Within.refl s)).holds.lasts
  | itemFetch => exact (within_execItemFetch (Within.refl s)).holds.lasts
  | eventFrame => exact (within_execEventFrame (Within.refl s)).holds.lasts
  | recordWrite => exact (within_execRecordWrite (Within.refl s)).holds.lasts
  | malformedItem => exact (within_execMalformedItem (Within.refl s)).holds.lasts
  | faultClear => exact (within_execFaultClear (Within.refl s)).holds.lasts
  | faultAcknowledge => exact (within_execFaultAcknowledge (Within.refl s)).holds.lasts
  | calibrate => exact (within_execCalibrate (Within.refl s)).holds.lasts
  | soundCable => exact (within_execSoundCable (Within.refl s)).holds.lasts
  | enterDormant => exact (within_execEnterDormant (Within.refl s)).holds.lasts
  | injectCheckInversion => exact (within_execInjectCheckInversion (Within.refl s)).holds.lasts
  | channelUp => exact (within_execChannelUp (Within.refl s)).holds.lasts
  | channelDown => exact (within_execChannelDown (Within.refl s)).holds.lasts
  | channelQuiet => exact (within_execChannelQuiet (Within.refl s)).holds.lasts
  | channelSleep => exact (within_execChannelSleep (Within.refl s)).holds.lasts
  | marginOverride => exact (within_execMarginOverride (Within.refl s)).holds.lasts
  | windowOpen => exact (within_execWindowOpen (Within.refl s)).holds.lasts
  | windowRevoke => exact (within_execWindowRevoke (Within.refl s)).holds.lasts
  | revokeDrained => exact (within_execRevokeDrained (Within.refl s)).holds.lasts
  | pageReady => exact (within_execPageReady (Within.refl s)).holds.lasts
  | pageReadyDrained => exact (within_execPageReadyDrained (Within.refl s)).holds.lasts
  | injectionLimitExpiry => exact (within_execInjectionLimitExpiry (Within.refl s)).holds.lasts
  | writeItem => exact (within_execWriteItem (Within.refl s)).holds.lasts
  | readItem => exact (within_execReadItem (Within.refl s)).holds.lasts
  | sendItem => exact (within_execSendItem (Within.refl s)).holds.lasts
  | receiveItem => exact (within_execReceiveItem (Within.refl s)).holds.lasts
  | atomicItem => exact (within_execAtomicItem (Within.refl s)).holds.lasts
  | flushItem => exact (within_execFlushItem (Within.refl s)).holds.lasts
  | relayItem => exact (within_execRelayItem (Within.refl s)).holds.lasts
  | streamStart => exact (within_execStreamStart (Within.refl s)).holds.lasts
  | streamBuffer => exact (within_execStreamBuffer (Within.refl s)).holds.lasts
  | streamStop => exact (within_execStreamStop (Within.refl s)).holds.lasts
  | reserveRelease => exact (within_execReserveRelease (Within.refl s)).holds.lasts
  | codewordDecoded => exact (within_execCodewordDecoded (Within.refl s)).holds.lasts
  | syncMinusS => exact (within_execSyncMinusS (Within.refl s)).holds.lasts
  | missedSyncs => exact (within_execMissedSyncs (Within.refl s)).holds.lasts
  | gainTrackingStep => exact (within_execGainTrackingStep (Within.refl s)).holds.lasts
  | antiAliasCornerChange => exact (within_execAntiAliasCornerChange (Within.refl s)).holds.lasts
  | preEqualiserUpdate => exact (within_execPreEqualiserUpdate (Within.refl s)).holds.lasts
  | transformWindowMove => exact (within_execTransformWindowMove (Within.refl s)).holds.lasts
  | echoRetrainStart => exact (within_execEchoRetrainStart (Within.refl s)).holds.lasts
  | echoRetrainEnd => exact (within_execEchoRetrainEnd (Within.refl s)).holds.lasts
  | echoRetrainHoldoffEnd => exact (within_execEchoRetrainHoldoffEnd (Within.refl s)).holds.lasts
  | loadingRecompute => exact (within_execLoadingRecompute (Within.refl s)).holds.lasts
  | bitSwapRequest => exact (within_execBitSwapRequest (Within.refl s)).holds.lasts
  | bitSwapReply => exact (within_execBitSwapReply (Within.refl s)).holds.lasts
  | bitSwapApply => exact (within_execBitSwapApply (Within.refl s)).holds.lasts
  | bitSwapResendTimeout => exact (within_execBitSwapResendTimeout (Within.refl s)).holds.lasts
  | capabilityFrame => exact (within_execCapabilityFrame (Within.refl s)).holds.lasts
  | roleFrame => exact (within_execRoleFrame (Within.refl s)).holds.lasts
  | startFrame => exact (within_execStartFrame (Within.refl s)).holds.lasts
  | assembledFrame => exact (within_execAssembledFrame (Within.refl s)).holds.lasts
  | holdFrame => exact (within_execHoldFrame (Within.refl s)).holds.lasts
  | searchRoundStart => exact (within_execSearchRoundStart (Within.refl s)).holds.lasts
  | exchangeTimeout => exact (within_execExchangeTimeout (Within.refl s)).holds.lasts
  | assemblyTimeout => exact (within_execAssemblyTimeout (Within.refl s)).holds.lasts
  | countdownEnd => exact (within_execCountdownEnd (Within.refl s)).holds.lasts
  | trainPhaseEnd => exact (within_execTrainPhaseEnd (Within.refl s)).holds.lasts
  | loadingTable => exact (within_execLoadingTable (Within.refl s)).holds.lasts
  | stateMessage => exact (within_execStateMessage (Within.refl s)).holds.lasts
  | loadingTableApply => exact (within_execLoadingTableApply (Within.refl s)).holds.lasts
  | train5Limit => exact (within_execTrain5Limit (Within.refl s)).holds.lasts
  | downNotice => exact (within_execDownNotice (Within.refl s)).holds.lasts
  | silenceToleranceExpiry => exact (within_execSilenceToleranceExpiry (Within.refl s)).holds.lasts
  | f1Acquired => exact (within_execF1Acquired (Within.refl s)).holds.lasts
  | f1Limit => exact (within_execF1Limit (Within.refl s)).holds.lasts
  | f2End => exact (within_execF2End (Within.refl s)).holds.lasts
  | f3Limit => exact (within_execF3Limit (Within.refl s)).holds.lasts
  | quietIdleTimeout => exact (within_execQuietIdleTimeout (Within.refl s)).holds.lasts
  | quietRequest => exact (within_execQuietRequest (Within.refl s)).holds.lasts
  | quietReply => exact (within_execQuietReply (Within.refl s)).holds.lasts
  | quietReplyTimeout => exact (within_execQuietReplyTimeout (Within.refl s)).holds.lasts
  | quietStreamsEnded => exact (within_execQuietStreamsEnded (Within.refl s)).holds.lasts
  | quietRefresh => exact (within_execQuietRefresh (Within.refl s)).holds.lasts
  | refreshMissed => exact (within_execRefreshMissed (Within.refl s)).holds.lasts
  | quietWorkPending => exact (within_execQuietWorkPending (Within.refl s)).holds.lasts
  | alertDetected => exact (within_execAlertDetected (Within.refl s)).holds.lasts
  | alertAnswerTimeout => exact (within_execAlertAnswerTimeout (Within.refl s)).holds.lasts
  | sleepNotice => exact (within_execSleepNotice (Within.refl s)).holds.lasts
  | wakeFramesSent => exact (within_execWakeFramesSent (Within.refl s)).holds.lasts
  | wakeAnswerLimit => exact (within_execWakeAnswerLimit (Within.refl s)).holds.lasts
  | wakeFrameDecoded => exact (within_execWakeFrameDecoded (Within.refl s)).holds.lasts
  | wakeRestoreDone => exact (within_execWakeRestoreDone (Within.refl s)).holds.lasts
  | falseWakeTimeout => exact (within_execFalseWakeTimeout (Within.refl s)).holds.lasts
  | dormantEntryAfterStore => exact (within_execDormantEntryAfterStore (Within.refl s)).holds.lasts
  | dormantLineStop => exact (holds_execDormantLineStop s).lasts
  | exitSignal => exact (within_execExitSignal (Within.refl s)).holds.lasts
  | dormantExitBegin => exact lasts_execDormantExitBegin s
  | warmCountDone duration => exact (holds_execWarmCountDone duration s).lasts
  | restart => exact (within_execRestart (Within.refl s)).holds.lasts
  | resume => exact (within_execResume (Within.refl s)).holds.lasts
  | discardNotice => exact (within_execDiscardNotice (Within.refl s)).holds.lasts
  | pad => exact (within_execPad (Within.refl s)).holds.lasts
  | retransmitTimeout => exact (within_execRetransmitTimeout (Within.refl s)).holds.lasts
  | retryBudgetExpiry => exact (within_execRetryBudgetExpiry (Within.refl s)).holds.lasts
  | headerCheckFailed => exact (within_execHeaderCheckFailed (Within.refl s)).holds.lasts
  | writePacket => exact (within_execWritePacket (Within.refl s)).holds.lasts
  | readRequest => exact (within_execReadRequest (Within.refl s)).holds.lasts
  | readResponse => exact (within_execReadResponse (Within.refl s)).holds.lasts
  | messagePacket => exact (within_execMessagePacket (Within.refl s)).holds.lasts
  | atomicRequest => exact (within_execAtomicRequest (Within.refl s)).holds.lasts
  | atomicResponse => exact (within_execAtomicResponse (Within.refl s)).holds.lasts
  | flushRequest => exact (within_execFlushRequest (Within.refl s)).holds.lasts
  | flushResponse => exact (within_execFlushResponse (Within.refl s)).holds.lasts
  | statusPacket => exact (within_execStatusPacket (Within.refl s)).holds.lasts
  | stallLimitExpiry => exact (within_execStallLimitExpiry (Within.refl s)).holds.lasts
  | resendBackoffExpiry => exact (within_execResendBackoffExpiry (Within.refl s)).holds.lasts
  | responseLimitExpiry => exact (within_execResponseLimitExpiry (Within.refl s)).holds.lasts
  | translationAgedOut => exact (within_execTranslationAgedOut (Within.refl s)).holds.lasts
  | dedupEntryExpired => exact (within_execDedupEntryExpired (Within.refl s)).holds.lasts
  | streamSlotDue => exact (within_execStreamSlotDue (Within.refl s)).holds.lasts
  | streamSignal => exact (within_execStreamSignal (Within.refl s)).holds.lasts
  | graceTimerExpiry => exact (within_execGraceTimerExpiry (Within.refl s)).holds.lasts
  | calNFalling => exact (holds_execCalNFalling s).lasts
  | calNRising => exact (holds_execCalNRising s).lasts
  | calNArmed => exact (within_execCalNArmed (Within.refl s)).holds.lasts
  | calibrationWaitLimit => exact (within_execCalibrationWaitLimit (Within.refl s)).holds.lasts
  | measurePhaseEnd => exact (within_execMeasurePhaseEnd (Within.refl s)).holds.lasts
  | flashStatusPoll => exact (within_execFlashStatusPoll (Within.refl s)).holds.lasts
  | flashBusyLimit => exact (within_execFlashBusyLimit (Within.refl s)).holds.lasts
  | storeReadbackDone => exact (within_execStoreReadbackDone (Within.refl s)).holds.lasts
  | soundingEnd => exact (within_execSoundingEnd (Within.refl s)).holds.lasts
  | noiseFloorMeasurementEnd => exact (within_execNoiseFloorMeasurementEnd (Within.refl s)).holds.lasts
  | tapReset => cases h
  | extest => cases h
  | idcode => cases h
  | samplePreload => cases h
  | clamp => cases h
  | highz => cases h
  | extestPulse => cases h
  | extestTrain => cases h
  | startStatus => cases h
  | keyRead => cases h
  | keyProgram => cases h
  | factoryRef => cases h
  | dieId => cases h
  | bypass => cases h
  | alignRow => exact (within_execAlignRow (Within.refl s)).holds.lasts
  | parametersFrameInterval => exact (within_execParametersFrameInterval (Within.refl s)).holds.lasts

end Sys2Proof.Machine
end

