-- ==== Sys2Proof/Laws/GoodImage.lean ====
section
/-! SUPPORT. An image that the checks of R146 accept and a flash device that they find usable: the witnesses of a start that goes on. The
image is built from its parts, and each check is proved of the part it reads. -/

namespace Sys2Proof.Machine

/-! ### Little-endian fields of appended bytes -/

theorem le_length (n v : Nat) : (le n v).length = n := by
  induction n generalizing v with
  | zero => rfl
  | succ n ih => simp [le, ih]

theorem unLe_le (n v : Nat) (h : v < 256 ^ n) : unLe (le n v) = v := by
  induction n generalizing v with
  | zero => simp at h; simp [le, unLe, h]
  | succ n ih =>
    have h2 : v / 256 < 256 ^ n := by rw [Nat.pow_succ] at h; omega
    simp only [le, unLe, ih _ h2, BitVec.toNat_ofNat]
    omega

theorem zeros_length (n : Nat) : (zeros n).length = n := by simp [zeros]

/-- The bytes at an offset are those after a prefix of that length. -/
theorem slice_append (a b c : Bytes) (off n : Nat) (ha : a.length = off) (hb : b.length = n) :
    slice (a ++ (b ++ c)) off n = b := by
  subst ha hb
  simp [slice]

theorem field_append (a c : Bytes) (off n v : Nat) (ha : a.length = off) (hv : v < 256 ^ n) :
    field (a ++ (le n v ++ c)) off n = v := by
  have h := slice_append a (le n v) c off n ha (le_length n v)
  rw [slice] at h
  rw [field, h, unLe_le n v hv]

theorem zeroAt_append (a c : Bytes) (off n : Nat) (ha : a.length = off) : zeroAt (a ++ (zeros n ++ c)) off n = true := by
  rw [zeroAt, slice_append a (zeros n) c off n ha (zeros_length n)]
  simp [zeros]

/-- A field that lies in the first part is read there. -/
theorem slice_left (a c : Bytes) (off n : Nat) (h : off + n ≤ a.length) : slice (a ++ c) off n = slice a off n := by
  rw [slice, slice, List.drop_append_of_le_length (by omega), List.take_append_of_le_length (by simp; omega)]

theorem field_left (a c : Bytes) (off n : Nat) (h : off + n ≤ a.length) : field (a ++ c) off n = field a off n := by
  have e := slice_left a c off n h
  rw [slice, slice] at e
  rw [field, field, e]

theorem cutInto_replicate (n : Nat) (x : Bytes) (rest : Bytes) :
    cutInto x.length n ((List.replicate n x).flatten ++ rest) = List.replicate n x := by
  induction n with
  | zero => rfl
  | succ n ih => simp [cutInto, List.replicate_succ, List.append_assoc, ih]

theorem cutInto_flatten (k : Nat) (l : List Bytes) (rest : Bytes) (h : ∀ x ∈ l, x.length = k) :
    cutInto k l.length (l.flatten ++ rest) = l := by
  induction l with
  | nil => rfl
  | cons x t ih =>
    have hx : x.length = k := h x (by simp)
    subst hx
    simp [cutInto, List.append_assoc, ih (fun y hy => h y (List.mem_cons_of_mem _ hy))]

/-! ### Checks are 32 bits wide, digests 32 bytes -/

theorem crcShift_lt (n c : Nat) (h : c < 2 ^ 32) : crcShift 0x82F63B78 n c < 2 ^ 32 := by
  induction n generalizing c with
  | zero => exact h
  | succ n ih =>
    simp only [crcShift]
    have hs : c >>> 1 < 2 ^ 32 := by rw [Nat.shiftRight_eq_div_pow]; omega
    split
    · exact ih _ (Nat.xor_lt_two_pow hs (by decide))
    · exact ih _ hs

theorem crc32c_lt (b : Bytes) : crc32c b < 2 ^ 32 := by
  have h : ∀ (b : Bytes) (c : Nat), c < 2 ^ 32 → b.foldl (fun c x => crcShift 0x82F63B78 8 (c ^^^ x.toNat)) c < 2 ^ 32 := by
    intro b
    induction b with
    | nil => exact fun c hc => hc
    | cons x t ih =>
      intro c hc
      exact ih _ (crcShift_lt 8 _ (Nat.xor_lt_two_pow hc (by have := x.isLt; omega)))
  exact Nat.xor_lt_two_pow (h b _ (by decide)) (by decide)

theorem sha256_length (b : Bytes) : (sha256 b).length = 32 := by
  simp [sha256, shaHash, be, le_length]

/-! ### Sections -/

/-- The fill after a body, to a multiple of 16 bytes. -/
def padOf (n : Nat) : Nat := (16 - n % 16) % 16

/-- Section k with its body (Table 7.2). -/
def sectionBytes (k : Nat) (body : Bytes) : Bytes :=
  le 2 (k + 1) ++ (le 2 1 ++ (le 4 body.length ++ (le 4 (crc32c body) ++ (zeros 4 ++ (body ++ zeros (padOf body.length))))))

theorem sectionBytes_length (k : Nat) (body : Bytes) :
    (sectionBytes k body).length = 16 + body.length + padOf body.length := by
  simp only [sectionBytes, List.length_append, le_length, zeros_length]
  omega

/-- Reading a section that agrees with its directory entry. -/
theorem readSections_section (h rest : Bytes) (total m k pos : Nat) (body : Bytes)
    (hd : dirEntry h k = (pos, 16 + body.length + padOf body.length)) (hk : k < 7) (hl : sectionLengthOk k body.length = true)
    (hn : body.length < 2 ^ 32) (ht : pos + (16 + body.length + padOf body.length) ≤ total) :
    readSections h total (m + 1) k pos (sectionBytes k body ++ rest) =
      match readSections h total m (k + 1) (pos + (16 + body.length + padOf body.length)) rest with
      | .error e => .error e
      | .ok l => .ok (⟨pos, body, true⟩ :: l) := by
  have f0 : field (sectionBytes k body ++ rest) 0 2 = k + 1 := by
    rw [sectionBytes]; simp only [List.append_assoc]
    exact field_append [] _ 0 2 _ rfl (by omega)
  have f2 : field (sectionBytes k body ++ rest) 2 2 = 1 := by
    rw [sectionBytes]; simp only [List.append_assoc]
    exact field_append (le 2 (k + 1)) _ 2 2 _ (le_length _ _) (by decide)
  have f4 : field (sectionBytes k body ++ rest) 4 4 = body.length := by
    rw [sectionBytes]; simp only [List.append_assoc]; rw [← List.append_assoc]
    exact field_append _ _ 4 4 _ (by simp [le_length]) hn
  have f8 : field (sectionBytes k body ++ rest) 8 4 = crc32c body := by
    rw [sectionBytes]; simp only [List.append_assoc]; rw [← List.append_assoc, ← List.append_assoc]
    exact field_append _ _ 8 4 _ (by simp [le_length]) (crc32c_lt body)
  have z12 : zeroAt (sectionBytes k body ++ rest) 12 4 = true := by
    rw [sectionBytes]; simp only [List.append_assoc]; rw [← List.append_assoc, ← List.append_assoc, ← List.append_assoc]
    exact zeroAt_append _ _ 12 4 (by simp [le_length])
  have sb : slice (sectionBytes k body ++ rest) 16 body.length = body := by
    rw [sectionBytes]; simp only [List.append_assoc]
    rw [← List.append_assoc, ← List.append_assoc, ← List.append_assoc, ← List.append_assoc]
    exact slice_append _ _ _ 16 _ (by simp [le_length, zeros_length]) rfl
  have zp : zeroAt (sectionBytes k body ++ rest) (16 + body.length) (padOf body.length) = true := by
    rw [sectionBytes]; simp only [List.append_assoc]
    rw [← List.append_assoc, ← List.append_assoc, ← List.append_assoc, ← List.append_assoc, ← List.append_assoc]
    exact zeroAt_append _ _ _ _ (by simp [le_length, zeros_length]; omega)
  have dr : (sectionBytes k body ++ rest).drop (16 + body.length + padOf body.length) = rest := by
    rw [← sectionBytes_length k body, List.drop_left]
  have hp : (16 - body.length % 16) % 16 = padOf body.length := rfl
  simp only [readSections, f4, hp, hd, f0, hl, sb, f8, f2, z12, zp, dr]
  cases readSections h total m (k + 1) (pos + (16 + body.length + padOf body.length)) rest <;> simp [Nat.not_lt.mpr ht]

/-! ### The schedule: every slot of a working unit is foreground with an empty list, and the others clear -/

/-- Slot descriptors of the instances: 84 of units, then one each of the four classes that clear. -/
def goodDescs : List Bytes :=
  List.replicate 21504 (zeros 8) ++ (List.replicate 256 (1 :: 1 :: zeros 6) ++ (List.replicate 256 (1 :: 2 :: zeros 6) ++
    (List.replicate 256 (1 :: 3 :: zeros 6) ++ List.replicate 256 (1 :: 4 :: zeros 6))))

theorem goodDescs_length : goodDescs.length = 22528 := by
  simp only [goodDescs, List.length_append, List.length_replicate]

theorem goodDescs_each : ∀ x ∈ goodDescs, x.length = 8 := by
  intro x h
  simp only [goodDescs, List.mem_append, List.mem_replicate] at h
  rcases h with h | h | h | h | h <;> rw [h.2] <;> rfl

def scheduleHead : Bytes := le 2 0x58 ++ le 2 0x100 ++ zeros 12

def goodSchedule : Bytes := scheduleHead ++ goodDescs.flatten

theorem flatten_length_of (l : List Bytes) (h : ∀ x ∈ l, x.length = 8) : l.flatten.length = 8 * l.length := by
  induction l with
  | nil => rfl
  | cons x t ih =>
    simp only [List.flatten_cons, List.length_append, List.length_cons, h x (by simp),
      ih (fun y hy => h y (List.mem_cons_of_mem _ hy))]
    omega

theorem goodSchedule_length : goodSchedule.length = 180240 := by
  rw [goodSchedule, List.length_append, flatten_length_of _ goodDescs_each, goodDescs_length]
  rfl

theorem goodSchedule_descs : schedDescs goodSchedule = goodDescs := by
  rw [schedDescs, goodSchedule, show (0x10 : Nat) = scheduleHead.length from rfl, List.drop_left, ← goodDescs_length]
  have h := cutInto_flatten 8 goodDescs [] goodDescs_each
  rwa [List.append_nil] at h

theorem goodSchedule_pool : schedPool goodSchedule = [] := by
  rw [schedPool, goodSchedule_length]
  rfl

theorem descsOk_append (pool : Array (Nat × Nat × Nat)) (a b : List Bytes) (n : Nat) :
    descsOk pool n (a ++ b) = (descsOk pool n a && descsOk pool (n + a.length) b) := by
  induction a generalizing n with
  | nil => simp [descsOk]
  | cons x t ih =>
    simp only [List.cons_append, descsOk, ih, List.length_cons, Bool.and_assoc]
    rw [show n + 1 + t.length = n + (t.length + 1) by omega]

theorem descsOk_replicate (pool : Array (Nat × Nat × Nat)) (x : Bytes) (m n : Nat)
    (h : ∀ i, n ≤ i → i < n + m → descOk (i / 256) pool x = true) : descsOk pool n (List.replicate m x) = true := by
  induction m generalizing n with
  | zero => rfl
  | succ m ih =>
    simp only [List.replicate_succ, descsOk, Bool.and_eq_true]
    exact ⟨h n (by omega) (by omega), ih (n + 1) fun i h1 h2 => h i (by omega) (by omega)⟩

theorem goodDescs_ok : descsOk #[] 0 goodDescs = true := by
  have units : ∀ k : Fin 84, descOk k.val #[] (zeros 8) = true := by decide +kernel
  have clear : ∀ (j : Nat) (x : Bytes), descOk (84 + j) #[] x = true →
      descsOk #[] (21504 + 256 * j) (List.replicate 256 x) = true := by
    intro j x hx
    apply descsOk_replicate
    intro i h1 h2
    rw [show i / 256 = 84 + j by omega]
    exact hx
  simp only [goodDescs, descsOk_append, List.length_replicate, Bool.and_eq_true]
  refine ⟨?_, clear 0 _ (by decide), clear 1 _ (by decide), clear 2 _ (by decide), clear 3 _ (by decide)⟩
  apply descsOk_replicate
  intro i _ h2
  exact units ⟨i / 256, by omega⟩

theorem goodSchedule_ok : scheduleOk goodSchedule = true := by
  have f : ∀ off n, off + n ≤ 16 → field goodSchedule off n = field scheduleHead off n := fun off n h =>
    field_left _ _ off n (by simpa [scheduleHead, le_length, zeros_length] using h)
  have z : zeroAt goodSchedule 8 8 = true := by
    rw [zeroAt, goodSchedule, slice_left _ _ 8 8 (by simp [scheduleHead, le_length, zeros_length])]
    decide
  rw [scheduleOk, goodSchedule_descs, goodSchedule_pool, goodSchedule_length, f 0 2 (by omega), f 2 2 (by omega),
    f 4 4 (by omega), z, show (([] : List Bytes).map readStep).toArray = #[] from rfl, goodDescs_ok]
  decide

theorem codewordsIn_empty (d : SlotDesc) :
    codewordsIn none ((#[] : Array (Nat × Nat × Nat)).extract d.first (d.first + d.count)).toList = [] := by
  simp [codewordsIn]

theorem goodSchedule_words : decoderWords goodSchedule = [] := by
  rw [decoderWords, goodSchedule_pool]
  apply List.flatMap_eq_nil_iff.mpr
  intro x _
  have h := codewordsIn_empty (readDesc x)
  simp only [List.map_nil]
  split
  · rfl
  · exact h

/-! ### The parameter set: each parameter's least value, 0 where that is allowed, but for those that a rule ties -/

def goodValue (p : ParamSpec) : Nat :=
  if p.id = 0x0707 ∨ p.id = 0x0708 then 5 else if p.id = 0x0D08 then 50 else if p.id = 0x0A56 then 1
  else if p.id = 0x0A5D then 2 ^ 20 else if p.id = 0x0D07 then 2000
  else if p.zero then 0 else (p.low % (256 ^ p.size : Nat)).toNat

/-- A parameter's record (Table 7.3) with one value for every element. -/
def goodRecord (p : ParamSpec) : Bytes :=
  le 2 p.id ++ (le 2 (p.size * p.count) ++ ((List.replicate p.count (le p.size (goodValue p))).flatten ++
    zeros ((4 - p.size * p.count % 4) % 4)))

def goodParams : Bytes := (le 2 0x200 ++ zeros 2) ++ paramTable.flatMap goodRecord

def goodTab : Tab (List Nat) := paramTable.map fun p => (p.id, List.replicate p.count (goodValue p))

theorem replicate_flatten_length (n : Nat) (x : Bytes) : ((List.replicate n x).flatten).length = x.length * n := by
  simp [Nat.mul_comm]

theorem readParams_good (l : List ParamSpec) (h : ∀ p ∈ l, p.id < 256 ^ 2 ∧ p.size * p.count < 256 ^ 2 ∧
      goodValue p < 256 ^ p.size ∧ p.inRange (goodValue p) = true) :
    readParams l (l.flatMap goodRecord) = (true, l.map fun p => (p.id, List.replicate p.count (goodValue p))) := by
  induction l with
  | nil => rfl
  | cons p t ih =>
    obtain ⟨hid, hn, hv, hr⟩ := h p (by simp)
    have ih' := ih fun q hq => h q (List.mem_cons_of_mem _ hq)
    have hx : ((List.replicate p.count (le p.size (goodValue p))).flatten).length = p.size * p.count := by
      rw [replicate_flatten_length, le_length]
    have f0 : field ((p :: t).flatMap goodRecord) 0 2 = p.id := by
      simp only [List.flatMap_cons, goodRecord, List.append_assoc]
      exact field_append [] _ 0 2 _ rfl hid
    have f2 : field ((p :: t).flatMap goodRecord) 2 2 = p.size * p.count := by
      simp only [List.flatMap_cons, goodRecord, List.append_assoc]
      exact field_append (le 2 p.id) _ 2 2 _ (le_length _ _) hn
    have z : zeroAt ((p :: t).flatMap goodRecord) (4 + p.size * p.count) ((4 - p.size * p.count % 4) % 4) = true := by
      simp only [List.flatMap_cons, goodRecord, List.append_assoc]
      rw [← List.append_assoc, ← List.append_assoc]
      exact zeroAt_append _ _ _ _ (by simp only [List.length_append, le_length, hx])
    have d4 : ((p :: t).flatMap goodRecord).drop 4 = (List.replicate p.count (le p.size (goodValue p))).flatten ++
        (zeros ((4 - p.size * p.count % 4) % 4) ++ t.flatMap goodRecord) := by
      simp only [List.flatMap_cons, goodRecord, List.append_assoc]
      rw [← List.append_assoc, show (4 : Nat) = (le 2 p.id ++ le 2 (p.size * p.count)).length by simp [le_length], List.drop_left]
    have dn : ((p :: t).flatMap goodRecord).drop (4 + p.size * p.count + (4 - p.size * p.count % 4) % 4) =
        t.flatMap goodRecord := by
      rw [Nat.add_assoc, ← List.drop_drop, d4, ← List.append_assoc]
      exact List.drop_left' (by simp only [List.length_append, hx, zeros_length])
    have c : (cutInto p.size p.count (((p :: t).flatMap goodRecord).drop 4)).map unLe = List.replicate p.count (goodValue p) := by
      have e := cutInto_replicate p.count (le p.size (goodValue p)) (zeros ((4 - p.size * p.count % 4) % 4) ++ t.flatMap goodRecord)
      rw [le_length] at e
      rw [d4, e, List.map_replicate, unLe_le _ _ hv]
    simp only [readParams, f0, f2, z, c, dn, ih', List.map_cons]
    simp [hr]

theorem paramTable_good : ∀ p ∈ paramTable, p.id < 256 ^ 2 ∧ p.size * p.count < 256 ^ 2 ∧
    goodValue p < 256 ^ p.size ∧ p.inRange (goodValue p) = true := by decide +kernel

theorem goodParams_read : readParams paramTable (goodParams.drop 4) = (true, goodTab) := by
  rw [goodParams, show (4 : Nat) = (le 2 0x200 ++ zeros 2).length from rfl, List.drop_left]
  exact readParams_good paramTable paramTable_good

theorem goodParams_ok : paramsOk goodParams = true := by
  have f : field goodParams 0 2 = 0x200 := by
    rw [goodParams, field_left _ _ 0 2 (by simp [le_length, zeros_length])]
    decide
  have z : zeroAt goodParams 2 2 = true := by
    rw [zeroAt, goodParams, slice_left _ _ 2 2 (by simp [le_length, zeros_length])]
    decide
  rw [paramsOk, goodParams_read, f, z]
  rfl

theorem goodParams_values : paramValues goodParams = goodTab := by
  rw [paramValues, goodParams_read]

theorem goodRecord_length (p : ParamSpec) :
    (goodRecord p).length = 4 + p.size * p.count + (4 - p.size * p.count % 4) % 4 := by
  simp only [goodRecord, List.length_append, le_length, zeros_length, replicate_flatten_length]
  omega

theorem goodParams_length : goodParams.length = 39908 := by
  have h : ∀ l : List ParamSpec, (l.flatMap goodRecord).length =
      (l.map fun p => 4 + p.size * p.count + (4 - p.size * p.count % 4) % 4).sum := by
    intro l
    induction l with
    | nil => rfl
    | cons p t ih => simp only [List.flatMap_cons, List.length_append, goodRecord_length, ih, List.map_cons, List.sum_cons]
  have e : (paramTable.map fun p => 4 + p.size * p.count + (4 - p.size * p.count % 4) % 4).sum = 39904 := by decide +kernel
  rw [goodParams, List.length_append, h, e]
  rfl

/-! ### The rules between the parameters -/

def goodEnvelope : Bytes :=
  [1, 5, 0, 0] ++ ([0xF6, 20, 50, 80, 110] : List Byte).flatMap (fun t => [t, 0] ++ le 2 6500) ++ le 2 2000 ++ [1, 0] ++
    le 2 2000 ++ zeros 2

theorem goodEnvelope_ok : envelopeOk goodEnvelope = true := by decide

theorem chans_ok : ((List.range 64).all fun c => chanRules goodTab [] c && groupRules goodTab c) = true := by decide +kernel

theorem device_ok : deviceRules goodTab goodEnvelope 50 = true := by decide +kernel

theorem getD_replicate (n v q : Nat) (h : q < n) : (List.replicate n v).toArray.getD q 0 = v := by
  simp [Array.getD, h]

theorem queue_elements : ([0x0700, 0x0702, 0x0900, 0x0901, 0x0902, 0x0903, 0x0904, 0x0905, 0x0906, 0x0907].all fun id =>
    Tab.get [] goodTab id == List.replicate 1024 0) = true := by decide +kernel

theorem queues_ok : queuesOk goodTab = true := by
  have g := fun id h q hq => (congrArg (fun l : List Nat => l.toArray.getD q 0)
    (eq_of_beq (List.all_eq_true.mp queue_elements id h))).trans (getD_replicate 1024 0 q hq)
  simp only [queuesOk, List.all_eq_true, List.mem_range]
  intro q hq
  rw [g 0x0700 (by simp) q hq, g 0x0702 (by simp) q hq, g (0x0900 + 0) (by simp) q hq, g (0x0900 + 1) (by simp) q hq,
    g (0x0900 + 2) (by simp) q hq, g (0x0900 + 3) (by simp) q hq, g (0x0900 + 4) (by simp) q hq,
    g (0x0900 + 5) (by simp) q hq, g (0x0900 + 6) (by simp) q hq, g (0x0900 + 7) (by simp) q hq]
  decide

/-! ### The fault policy that agrees with the parameters -/

def goodPolicy (src : Nat) : Bytes :=
  match sourceKind src with
  | none => 0xFF :: zeros 7
  | some k =>
    [BitVec.ofNat 8 k, BitVec.ofNat 8 (bit ((elemOf goodTab 0x0A5D 0).testBit k)), BitVec.ofNat 8 (elemOf goodTab (0x0A00 + 3 * k) 0),
      BitVec.ofNat 8 (elemOf goodTab (0x0A02 + 3 * k) 0)] ++ le 2 (elemOf goodTab (0x0A01 + 3 * k) 0) ++ zeros 2

theorem sourceKind_lt (src k : Nat) (h : sourceKind src = some k) : k < 30 := by
  simp only [sourceKind] at h
  repeat' split at h
  all_goals first | (cases h; done) | (injection h with h; omega)

/-- The parameters that a kind's policy shows fit their bytes. -/
theorem kinds_fit : ∀ k : Fin 30, elemOf goodTab (0x0A00 + 3 * k.val) 0 < 256 ∧ elemOf goodTab (0x0A02 + 3 * k.val) 0 < 256 ∧
    elemOf goodTab (0x0A01 + 3 * k.val) 0 < 65536 := by decide +kernel

theorem goodPolicy_ok (src : Nat) : policyOk goodTab src (goodPolicy src) = true := by
  simp only [policyOk, goodPolicy]
  cases h : sourceKind src with
  | none => decide
  | some k =>
    have hk := sourceKind_lt src k h
    obtain ⟨h0, h2, h1⟩ := kinds_fit ⟨k, hk⟩
    simp only at h0 h1 h2
    have hc : ∀ c, bit c < 256 := by decide
    have hb := hc ((elemOf goodTab 0x0A5D 0).testBit k)
    simp only [field, le, zeros, List.replicate, List.cons_append, List.nil_append, List.drop, List.take, unLe,
      zeroAt, slice, List.all_cons, List.all_nil, BitVec.toNat_ofNat, Bool.and_eq_true, beq_iff_eq]
    refine ⟨⟨⟨⟨⟨?_, ?_⟩, ?_⟩, ?_⟩, ?_⟩, ?_⟩ <;> first | omega | decide

theorem goodPolicies_ok (n m : Nat) : policiesOk goodTab n ((List.range' n m).map goodPolicy) = true := by
  induction m generalizing n with
  | zero => rfl
  | succ m ih => simp only [List.range'_succ, List.map_cons, policiesOk, goodPolicy_ok, ih, Bool.and_self]

theorem goodPolicy_length (src : Nat) : (goodPolicy src).length = 8 := by
  rw [goodPolicy]
  split <;> rfl

def goodPolicies : Bytes := ((List.range' 0 1024).map goodPolicy).flatten

theorem goodPolicies_cut : cutInto 8 1024 goodPolicies = (List.range' 0 1024).map goodPolicy := by
  have h := cutInto_flatten 8 ((List.range' 0 1024).map goodPolicy) [] (by simp [goodPolicy_length])
  rwa [List.append_nil, List.length_map, List.length_range'] at h

theorem goodPolicies_length : goodPolicies.length = 8192 := by
  rw [goodPolicies, flatten_length_of _ (by simp [goodPolicy_length]), List.length_map, List.length_range']

/-! ### The image -/

def goodWakes : Bytes := zeros 5120

theorem goodWakes_ok : ((cutInto 80 64 goodWakes).all wakeOk) = true := by decide +kernel

def goodTrust : Bytes := 1 :: zeros 127

/-- Table 7.1 up to its check: format, length, strap combination 24, capacity window, the directory. -/
def headerBytes : Bytes :=
  imageMagic ++ le 2 1 ++ le 2 0x100 ++ le 4 234032 ++ zeros 8 ++ le 4 (2 ^ 24) ++ le 4 50 ++ zeros 4 ++ le 2 7 ++ zeros 2 ++
    ([(256, 48), (304, 180256), (180560, 39936), (220496, 8208), (228704, 5136), (233840, 48), (233888, 144)] : List (Nat × Nat)).flatMap
      (fun e => le 4 e.1 ++ le 4 e.2) ++ zeros 156

def goodHeader : Bytes := headerBytes ++ le 4 (crc32c headerBytes)

/-- The image up to the digest section. -/
def beforeDigest : Bytes :=
  goodHeader ++ (sectionBytes 0 goodEnvelope ++ (sectionBytes 1 goodSchedule ++ (sectionBytes 2 goodParams ++
    (sectionBytes 3 goodPolicies ++ sectionBytes 4 goodWakes))))

def goodImage : Bytes :=
  beforeDigest ++ (sectionBytes 5 (sha256 beforeDigest) ++ sectionBytes 6 goodTrust)

def goodSections : List Section :=
  [⟨256, goodEnvelope, true⟩, ⟨304, goodSchedule, true⟩, ⟨180560, goodParams, true⟩, ⟨220496, goodPolicies, true⟩,
   ⟨228704, goodWakes, true⟩, ⟨233840, sha256 beforeDigest, true⟩, ⟨233888, goodTrust, true⟩]

theorem goodHeader_length : goodHeader.length = 256 := by decide +kernel

theorem goodWakes_length : goodWakes.length = 5120 := zeros_length _

theorem goodEnvelope_length : goodEnvelope.length = 32 := by decide

theorem goodTrust_length : goodTrust.length = 128 := by simp [goodTrust, zeros_length]

theorem beforeDigest_length : beforeDigest.length = 233840 := by
  simp only [beforeDigest, List.length_append, sectionBytes_length, goodHeader_length, goodEnvelope_length, goodSchedule_length,
    goodParams_length, goodPolicies_length, goodWakes_length]
  unfold padOf
  omega

theorem goodImage_length : goodImage.length = 234032 := by
  simp only [goodImage, List.length_append, beforeDigest_length, sectionBytes_length, sha256_length, goodTrust_length]
  unfold padOf
  omega

theorem goodImage_header : goodImage = goodHeader ++ (sectionBytes 0 goodEnvelope ++ (sectionBytes 1 goodSchedule ++
    (sectionBytes 2 goodParams ++ (sectionBytes 3 goodPolicies ++ (sectionBytes 4 goodWakes ++
    (sectionBytes 5 (sha256 beforeDigest) ++ (sectionBytes 6 goodTrust ++ []))))))) := by
  rw [goodImage, beforeDigest]
  simp only [List.append_assoc, List.append_nil]

theorem fit_length (b : Bytes) : fit b.length b = b := by simp [fit, zeros]

theorem fit_header : fit 256 goodImage = goodHeader := by
  rw [fit, goodImage_length, goodImage_header, List.take_left' goodHeader_length]
  simp [zeros]

theorem goodImage_states : imageLength goodHeader = 234032 := by decide +kernel

theorem goodDirectory : ([(256, 48), (304, 180256), (180560, 39936), (220496, 8208), (228704, 5136), (233840, 48), (233888, 144)] :
    List (Nat × Nat)) = (List.range 7).map (dirEntry goodHeader) := by decide +kernel

/-- Seven sections of these lengths read whole, whatever their bodies. -/
theorem readSections_seven (h b0 b1 b2 b3 b4 b5 b6 : Bytes) (e0 : b0.length = 32) (d0 : dirEntry h 0 = (256, 48))
    (e1 : b1.length = 180240) (d1 : dirEntry h 1 = (304, 180256))
    (e2 : b2.length = 39908) (d2 : dirEntry h 2 = (180560, 39936))
    (e3 : b3.length = 8192) (d3 : dirEntry h 3 = (220496, 8208))
    (e4 : b4.length = 5120) (d4 : dirEntry h 4 = (228704, 5136))
    (e5 : b5.length = 32) (d5 : dirEntry h 5 = (233840, 48))
    (e6 : b6.length = 128) (d6 : dirEntry h 6 = (233888, 144)) :
    readSections h 234032 7 0 256 (sectionBytes 0 b0 ++ (sectionBytes 1 b1 ++ (sectionBytes 2 b2 ++ (sectionBytes 3 b3 ++
      (sectionBytes 4 b4 ++ (sectionBytes 5 b5 ++ (sectionBytes 6 b6 ++ []))))))) =
    .ok [⟨256, b0, true⟩, ⟨304, b1, true⟩, ⟨180560, b2, true⟩, ⟨220496, b3, true⟩, ⟨228704, b4, true⟩, ⟨233840, b5, true⟩, ⟨233888, b6, true⟩] := by
  rw [readSections_section h _ 234032 6 0 256 b0 (by rw [d0, e0]; decide) (by omega) (by rw [e0]; decide) (by rw [e0]; omega)
      (by rw [e0]; decide), e0, show 256 + (16 + 32 + padOf 32) = 304 by decide,
    readSections_section h _ 234032 5 1 304 b1 (by rw [d1, e1]; decide) (by omega) (by rw [e1]; decide) (by rw [e1]; omega)
      (by rw [e1]; decide), e1, show 304 + (16 + 180240 + padOf 180240) = 180560 by decide,
    readSections_section h _ 234032 4 2 180560 b2 (by rw [d2, e2]; decide) (by omega) (by rw [e2]; decide) (by rw [e2]; omega)
      (by rw [e2]; decide), e2, show 180560 + (16 + 39908 + padOf 39908) = 220496 by decide,
    readSections_section h _ 234032 3 3 220496 b3 (by rw [d3, e3]; decide) (by omega) (by rw [e3]; decide) (by rw [e3]; omega)
      (by rw [e3]; decide), e3, show 220496 + (16 + 8192 + padOf 8192) = 228704 by decide,
    readSections_section h _ 234032 2 4 228704 b4 (by rw [d4, e4]; decide) (by omega) (by rw [e4]; decide) (by rw [e4]; omega)
      (by rw [e4]; decide), e4, show 228704 + (16 + 5120 + padOf 5120) = 233840 by decide,
    readSections_section h _ 234032 1 5 233840 b5 (by rw [d5, e5]; decide) (by omega) (by rw [e5]; decide) (by rw [e5]; omega)
      (by rw [e5]; decide), e5, show 233840 + (16 + 32 + padOf 32) = 233888 by decide,
    readSections_section h _ 234032 0 6 233888 b6 (by rw [d6, e6]; decide) (by omega) (by rw [e6]; decide) (by rw [e6]; omega)
      (by rw [e6]; decide), e6, show 233888 + (16 + 128 + padOf 128) = 234032 by decide]
  simp only [readSections, if_true]

theorem goodImage_sections : sectionsOf goodImage = .ok goodSections := by
  have d : ∀ k e, ((List.range 7).map (dirEntry goodHeader))[k]? = some e → k < 7 → dirEntry goodHeader k = e := by
    intro k e h hk
    rw [List.getElem?_map] at h
    simpa [hk] using h
  rw [← goodDirectory] at d
  have f : fit 234032 goodImage = goodImage := by
    have h := fit_length goodImage
    rwa [goodImage_length] at h
  rw [sectionsOf]
  simp only [fit_header, goodImage_states, f]
  rw [goodImage_header, List.drop_left' goodHeader_length]
  exact readSections_seven _ _ _ _ _ _ _ _ goodEnvelope_length (d 0 _ rfl (by omega)) goodSchedule_length (d 1 _ rfl (by omega))
    goodParams_length (d 2 _ rfl (by omega)) goodPolicies_length (d 3 _ rfl (by omega)) goodWakes_length (d 4 _ rfl (by omega))
    (sha256_length _) (d 5 _ rfl (by omega)) goodTrust_length (d 6 _ rfl (by omega))

/-- Every check of the load accepts the image (R146 steps 2 to 4). -/
theorem goodImage_loads : loadCode goodImage = 0 := by
  have c : crc32c (slice goodHeader 0 0xFC) = field goodHeader 0xFC 4 := by
    have f := field_append headerBytes [] 0xFC 4 (crc32c headerBytes) (by decide +kernel) (crc32c_lt _)
    have h := slice_append [] headerBytes (le 4 (crc32c headerBytes)) 0 0xFC rfl (by decide +kernel)
    rw [List.append_nil] at f
    rw [goodHeader, f]
    exact congrArg crc32c h
  have m : (slice goodHeader 0 8 != imageMagic || field goodHeader 8 2 != 1) = false := by decide +kernel
  have k : headerClean goodHeader = true := by decide +kernel
  have w : field goodHeader 0x1C 4 = 50 := by decide +kernel
  have b : bodiesOk goodHeader goodSections = true := by
    simp only [bodiesOk, sectionBody, goodSections, List.getElem?_cons_zero, List.getElem?_cons_succ, goodParams_values, w,
      goodEnvelope_ok, goodSchedule_ok, goodParams_ok, goodSchedule_words, chans_ok, queues_ok, device_ok, goodPolicies_cut,
      goodPolicies_ok, goodWakes_ok, List.all_cons, List.all_nil, Bool.and_self, Bool.true_and]
    decide +kernel
  simp only [loadCode, fit_header, goodImage_states, goodImage_sections, m, k, b, c]
  simp

/-- Step 5 accepts an image whose digest matches, without a programmed key field, with straps of combination 24. -/
theorem checkCode_one (b : Bytes) (l : List Section) (h : sectionsOf b = .ok l) (hd : digestOf b l = sectionBody l 5)
    (hf : (field b 0x18 4).testBit 24 = true) : checkCode 0 0x60 b = 1 := by
  have t : ∀ d x, trustCode 0 d x = 1 := fun d x => by rw [trustCode, if_pos rfl]
  have c : strapCombination 0x60 = 24 := by decide
  simp only [checkCode, h, hd, t, c, hf]
  simp

theorem goodImage_digest : digestOf goodImage goodSections = sectionBody goodSections 5 := by
  have h : goodImage.take 233840 = beforeDigest := by rw [goodImage, List.take_left' beforeDigest_length]
  simp only [digestOf, sectionBody, goodSections, List.getElem?_cons_zero, List.getElem?_cons_succ, h]

theorem goodImage_straps : (field goodImage 0x18 4).testBit 24 = true := by
  rw [goodImage_header, field_left _ _ 0x18 4 (by rw [goodHeader_length]; omega)]
  decide +kernel

theorem goodImage_checks : checkCode 0 0x60 goodImage = 1 :=
  checkCode_one goodImage goodSections goodImage_sections goodImage_digest goodImage_straps

/-! ### A usable device -/

/-- SFDP bytes with the two tables of Table 7.8's features: the BFPT at 0x20, 16 words, and the 4-byte table at 0x60. -/
def goodSfdp : Bytes :=
  sfdpSignature ++ [6, 1, 1, 0xFF] ++ [0, 6, 1, 16, 0x20, 0, 0, 0xFF] ++ [0x84, 0, 1, 2, 0x60, 0, 0, 0xFF] ++ zeros 8 ++
    le 4 (1 + 2 ^ 22) ++ le 4 (2 ^ 28 - 1) ++ [0, 0, 0, 0x6B] ++ zeros 16 ++ [12, 0x20, 0, 0] ++ zeros 4 ++ zeros 4 ++
    [0x80, 0, 0, 0] ++ zeros 20 ++ le 4 (2 ^ 4 + 2 ^ 6 + 2 ^ 9) ++ [0x21, 0, 0, 0]

theorem goodImage_result : loadResult goodSfdp goodImage = 0 := by
  have h : sfdpResult goodSfdp = 0 := by decide +kernel
  rw [loadResult, if_pos h, goodImage_loads]

end Sys2Proof.Machine
end

