-- ==== Sys2Proof/Laws/SameChans.lean ====
section
/-! SUPPORT. The operations that leave every line channel as it was. -/

namespace Sys2Proof.Machine

/-- No channel has changed. -/
def SameChans (o t : State) : Prop :=
  t.chans = o.chans

def SameChansO (o : State) : Option State → Prop
  | none => True
  | some t => SameChans o t

def SameChansR (o : State) : Host.Outcome State Fault Refusal → Prop
  | .next t => SameChans o t
  | _ => True

theorem SameChans.refl (s : State) : SameChans s s := rfl
theorem SameChansO.none {o : State} : SameChansO o none := trivial
theorem SameChansO.some {o t : State} (h : SameChans o t) : SameChansO o (some t) := h
theorem SameChansR.next {o t : State} (h : SameChans o t) : SameChansR o (.next t) := h

theorem SameChans.chan {o t : State} (h : SameChans o t) (c : ChanId) : t.chan c = o.chan c := by
  unfold State.chan
  rw [h]

theorem SameChansO.getD {o t : State} {x : Option State} (h : SameChansO o x) (k : SameChans o t) :
    SameChans o (x.getD t) := by
  cases x <;> assumption

theorem SameChansO.elim {o t : State} {x : Option α} {f : α → State} (h : ∀ a, SameChans o (f a))
    (k : SameChans o t) : SameChans o (x.elim t f) := by
  cases x
  · exact k
  · exact h _

theorem SameChans.foldl {o : State} {f : State → α → State} (l : List α) {s : State} (h : SameChans o s)
    (k : ∀ t a, SameChans o t → SameChans o (f t a)) : SameChans o (l.foldl f s) := by
  induction l generalizing s with
  | nil => exact h
  | cons a l ih => exact ih (k _ _ h)

theorem SameChans.ite {o a b : State} {c : Prop} [Decidable c] (h : c → SameChans o a) (k : ¬c → SameChans o b) :
    SameChans o (if c then a else b) := by
  split
  · exact h ‹_›
  · exact k ‹_›

theorem SameChansO.ite {o : State} {a b : Option State} {c : Prop} [Decidable c] (h : c → SameChansO o a)
    (k : ¬c → SameChansO o b) : SameChansO o (if c then a else b) := by
  split
  · exact h ‹_›
  · exact k ‹_›

theorem SameChansR.ite {o : State} {a b : Host.Outcome State Fault Refusal} {c : Prop} [Decidable c]
    (h : c → SameChansR o a) (k : ¬c → SameChansR o b) : SameChansR o (if c then a else b) := by
  split
  · exact h ‹_›
  · exact k ‹_›

/-- A state with every field but the channels replaced. -/
def State.around (s : State) (pending : List Instr) (pins : Pins) (start : Start) (image : Image) (clock : Clock) (linkA linkB :
    HostLink) (ringsA ringsB : PortRings) (queues : Tab Queue) (transport : Transport) (faults : Faults) (tasks :
    List Task) (calib : Calib) (telemA telemB : Telemetry) (sched : Sched) (entry : Option Entry) (exitHeld : Bool) (tap : Tap)
    (fresh : Nat) (out : List Out) : State :=
  ⟨pending, pins, start, image, clock, linkA, linkB, ringsA, ringsB, queues, s.chans, transport, faults, tasks,
    calib, telemA, telemB, sched, entry, exitHeld, tap, fresh, out⟩

theorem mk_around (s : State) {pending : List Instr} {pins : Pins} {start : Start} {image : Image} {clock : Clock} {linkA linkB :
    HostLink} {ringsA ringsB : PortRings} {queues : Tab Queue} {transport : Transport} {faults : Faults} {tasks :
    List Task} {calib : Calib} {telemA telemB : Telemetry} {sched : Sched} {entry : Option Entry} {exitHeld : Bool} {tap : Tap}
    {fresh : Nat} {out : List Out} :
    State.mk pending pins start image clock linkA linkB ringsA ringsB queues s.chans transport faults tasks calib
      telemA telemB sched entry exitHeld tap fresh out =
    s.around pending pins start image clock linkA linkB ringsA ringsB queues transport faults tasks calib telemA
      telemB sched entry exitHeld tap fresh out := rfl

theorem SameChans.around {o s : State} (h : SameChans o s) {pending : List Instr} {pins : Pins} {start : Start} {image : Image} {clock :
    Clock} {linkA linkB : HostLink} {ringsA ringsB : PortRings} {queues : Tab Queue} {transport : Transport} {faults
    : Faults} {tasks : List Task} {calib : Calib} {telemA telemB : Telemetry} {sched : Sched} {entry : Option Entry} {exitHeld :
    Bool} {tap : Tap} {fresh : Nat} {out : List Out} :
    SameChans o (s.around pending pins start image clock linkA linkB ringsA ringsB queues transport faults tasks calib telemA
      telemB sched entry exitHeld tap fresh out) := h

theorem chans_useFresh {o s : State} (h : SameChans o s) : SameChans o s.useFresh := h

end Sys2Proof.Machine
end

