-- ==== Sys2Proof/Laws/SameChansOps.lean ====
section
/-! SUPPORT. The operations of the ports, rings, records, queues and link states that leave the channels. -/

namespace Sys2Proof.Machine

theorem chans_setLink {o s : State} (h : SameChans o s) {x2 x3} :
    SameChans o (State.setLink s x2 x3) := by
  unfold State.setLink
  repeat' first
    | with_reducible assumption | with_reducible apply SameChans.around | rw [mk_around] | with_reducible rfl
    | exact Nat.le_refl _ | split

theorem chans_modLink {o s : State} (h : SameChans o s) {x2 x3} :
    SameChans o (State.modLink s x2 x3) := by
  unfold State.modLink
  repeat' first
    | with_reducible assumption | with_reducible apply chans_setLink

theorem chans_say {o s : State} (h : SameChans o s) {x2} :
    SameChans o (State.say s x2) := by
  unfold State.say
  repeat' first
    | with_reducible assumption | with_reducible apply SameChans.around | rw [mk_around] | with_reducible rfl
    | exact Nat.le_refl _

theorem chans_sayLink {o s : State} (h : SameChans o s) {x2 x3 x4 x5} :
    SameChans o (State.sayLink s x2 x3 x4 x5) := by
  unfold State.sayLink
  try dsimp only
  repeat' first
    | with_reducible assumption | with_reducible apply chans_modLink | with_reducible apply chans_say | intro _
    | split

theorem chans_sayNak {o s : State} (h : SameChans o s) {x2} :
    SameChans o (State.sayNak s x2) := by
  unfold State.sayNak
  repeat' first
    | with_reducible assumption | with_reducible apply chans_modLink | with_reducible apply chans_sayLink | intro _
    | split

theorem chans_sayAck {o s : State} (h : SameChans o s) {x2} :
    SameChans o (State.sayAck s x2) := by
  unfold State.sayAck
  repeat' first
    | with_reducible assumption | with_reducible apply chans_sayLink

theorem chans_acceptFrame {o s : State} (h : SameChans o s) {x2 x3} :
    SameChans o (State.acceptFrame s x2 x3).2 := by
  unfold State.acceptFrame
  repeat' first
    | with_reducible assumption | with_reducible apply chans_modLink | with_reducible apply chans_sayNak
    | with_reducible apply chans_sayAck | split

theorem chans_sendHost {o s : State} (h : SameChans o s) {x2 x3} :
    SameChans o (State.sendHost s x2 x3) := by
  unfold State.sendHost
  repeat' first
    | with_reducible assumption | with_reducible apply chans_modLink

theorem chans_fence {o s : State} (h : SameChans o s) {x2 x3} :
    SameChans o (State.fence s x2 x3) := by
  unfold State.fence
  repeat' first
    | with_reducible assumption | with_reducible apply chans_sendHost

theorem chans_hostRead {o s : State} (h : SameChans o s) {x2 x3 x4 x5} :
    SameChans o (State.hostRead s x2 x3 x4 x5) := by
  unfold State.hostRead
  repeat' first
    | with_reducible assumption | with_reducible apply chans_sendHost

theorem chans_writePieces {o s : State} (h : SameChans o s) {x1 x2 x3} :
    SameChans o (writePieces x1 x2 x3 s) := by
  fun_induction writePieces x1 x2 x3 s
  repeat' first
    | with_reducible assumption | with_reducible refine (‹SameChans o _ → SameChans o _›) ?_
    | with_reducible apply chans_sendHost

theorem chans_hostWrite {o s : State} (h : SameChans o s) {x2 x3 x4} :
    SameChans o (State.hostWrite s x2 x3 x4) := by
  unfold State.hostWrite
  repeat' first
    | with_reducible assumption | with_reducible apply chans_writePieces

theorem chans_setQueue {o s : State} (h : SameChans o s) {x2 x3 x4} :
    SameChans o (State.setQueue s x2 x3 x4) := by
  unfold State.setQueue
  repeat' first
    | with_reducible assumption | with_reducible apply SameChans.around | rw [mk_around] | with_reducible rfl
    | exact Nat.le_refl _

theorem chans_modQueue {o s : State} (h : SameChans o s) {x2 x3 x4} :
    SameChans o (State.modQueue s x2 x3 x4) := by
  unfold State.modQueue
  repeat' first
    | with_reducible assumption | with_reducible apply chans_setQueue

theorem chans_setRings {o s : State} (h : SameChans o s) {x2 x3} :
    SameChans o (State.setRings s x2 x3) := by
  unfold State.setRings
  repeat' first
    | with_reducible assumption | with_reducible apply SameChans.around | rw [mk_around] | with_reducible rfl
    | exact Nat.le_refl _ | split

theorem chans_modRings {o s : State} (h : SameChans o s) {x2 x3} :
    SameChans o (State.modRings s x2 x3) := by
  unfold State.modRings
  repeat' first
    | with_reducible assumption | with_reducible apply chans_setRings

theorem chans_pump {o s : State} (h : SameChans o s) {x2} :
    SameChans o (State.pump s x2) := by
  unfold State.pump
  repeat' first
    | with_reducible assumption | with_reducible apply chans_modLink

theorem chans_grantDoorbells {o s} (h : SameChans o s) {x2 x3} :
    SameChans o (State.grantDoorbells s x2 x3) := by
  unfold State.grantDoorbells
  try dsimp only
  repeat' first
    | with_reducible assumption | with_reducible apply chans_modLink | with_reducible apply chans_sayLink
    | with_reducible apply SameChans.around | rw [mk_around] | intro _ | split

theorem chans_returnCredit {o s : State} (h : SameChans o s) {x2} :
    SameChans o (State.returnCredit s x2) := by
  unfold State.returnCredit
  try dsimp only
  repeat' first
    | with_reducible assumption | with_reducible apply chans_modLink | with_reducible apply chans_grantDoorbells
    | with_reducible apply SameChans.around | rw [mk_around] | intro _ | split

theorem chans_setSource {o s : State} (h : SameChans o s) {x2 x3} :
    SameChans o (State.setSource s x2 x3) := by
  unfold State.setSource
  repeat' first
    | with_reducible assumption | with_reducible apply SameChans.around | rw [mk_around] | with_reducible rfl
    | exact Nat.le_refl _

theorem chans_setReaction {o s : State} (h : SameChans o s) {x2 x3} :
    SameChans o (State.setReaction s x2 x3) := by
  unfold State.setReaction
  repeat' first
    | with_reducible assumption | with_reducible apply SameChans.around | rw [mk_around] | with_reducible rfl
    | exact Nat.le_refl _

theorem chans_forgetEpisode {o s : State} (h : SameChans o s) {x2} :
    SameChans o (State.forgetEpisode s x2) := by
  unfold State.forgetEpisode
  repeat' first
    | with_reducible assumption | with_reducible apply SameChans.around | rw [mk_around] | with_reducible rfl
    | exact Nat.le_refl _

theorem chans_reactFault {o s : State} (h : SameChans o s) {x2 x3} :
    SameChans o (State.reactFault s x2 x3) := by
  unfold State.reactFault
  repeat' first
    | with_reducible assumption | with_reducible apply chans_setReaction | with_reducible apply chans_forgetEpisode
    | split

theorem chans_countOne {o s : State} (h : SameChans o s) {x2 x3 x4} :
    SameChans o (State.countOne s x2 x3 x4).2 := by
  unfold State.countOne
  try dsimp only
  repeat' first
    | with_reducible assumption | with_reducible apply chans_setSource | with_reducible apply chans_reactFault
    | with_reducible apply SameChans.around | rw [mk_around] | with_reducible rfl | exact Nat.le_refl _ | intro _
    | split

theorem chans_pushRecord {o s : State} (h : SameChans o s) {x2} :
    SameChans o (State.pushRecord s x2).2 := by
  unfold State.pushRecord
  try dsimp only
  repeat' first
    | with_reducible assumption | with_reducible apply chans_setRings | split

theorem chans_produceList {o s : State} (h : SameChans o s) {x1 x2} :
    SameChans o (produceList x1 x2 s) := by
  fun_induction produceList x1 x2 s
  repeat' first
    | with_reducible assumption | with_reducible refine (‹SameChans o _ → SameChans o _›) ?_
    | with_reducible apply chans_pushRecord | with_reducible apply chans_countOne

theorem chans_produce {o s : State} (h : SameChans o s) {x2} :
    SameChans o (State.produce s x2) := by
  unfold State.produce
  repeat' first
    | with_reducible assumption | with_reducible apply chans_produceList

theorem chans_occur {o s : State} (h : SameChans o s) {x2 x3 x4} :
    SameChans o (State.occur s x2 x3 x4) := by
  unfold State.occur
  repeat' first
    | with_reducible assumption | with_reducible apply chans_countOne | with_reducible apply chans_produce

theorem chans_hostLinkError {o s : State} (h : SameChans o s) {x2 x3 x4} :
    SameChans o (State.hostLinkError s x2 x3 x4) := by
  unfold State.hostLinkError
  repeat' first
    | with_reducible assumption | with_reducible apply chans_occur

theorem chans_occurChan {o s : State} (h : SameChans o s) {x2 x3 x4} :
    SameChans o (State.occurChan s x2 x3 x4) := by
  unfold State.occurChan
  repeat' first
    | with_reducible assumption | with_reducible apply chans_occur

theorem chans_occurN {o s : State} (h : SameChans o s) {x1 x2 x3 x4} :
    SameChans o (State.occurN x1 x2 x3 x4 s) := by
  fun_induction State.occurN x1 x2 x3 x4 s
  repeat' first
    | with_reducible assumption | with_reducible refine (‹SameChans o _ → SameChans o _›) ?_
    | with_reducible apply chans_occur

theorem chans_occurQueue {o s : State} (h : SameChans o s) {x2 x3 x4 x5} :
    SameChans o (State.occurQueue s x2 x3 x4 x5) := by
  unfold State.occurQueue
  repeat' first
    | with_reducible assumption | with_reducible apply chans_occur

theorem chans_record {o s : State} (h : SameChans o s) {x2 x3 x4} :
    SameChans o (State.record s x2 x3 x4) := by
  unfold State.record
  repeat' first
    | with_reducible assumption | with_reducible apply chans_produce

theorem chans_deferredList {o s : State} (h : SameChans o s) {x1} :
    SameChans o (deferredList x1 s) := by
  fun_induction deferredList x1 s
  repeat' first
    | with_reducible assumption | with_reducible refine (‹SameChans o _ → SameChans o _›) ?_
    | with_reducible apply chans_setSource | with_reducible apply chans_produce

theorem chans_sendDeferred {o s : State} (h : SameChans o s) :
    SameChans o (State.sendDeferred s) := by
  unfold State.sendDeferred
  repeat' first
    | with_reducible assumption | with_reducible apply chans_deferredList

theorem chans_writeEntry {o s : State} (h : SameChans o s) {x2 x3 x4 x5 x6} :
    SameChans o (State.writeEntry s x2 x3 x4 x5 x6) := by
  unfold State.writeEntry
  repeat' first
    | with_reducible assumption | with_reducible apply chans_modRings | with_reducible apply chans_hostWrite
    | with_reducible apply chans_modQueue | split

theorem chans_flushItems {o s : State} (h : SameChans o s) {x1 x2 x3} :
    SameChans o (flushItems x1 x2 x3 s) := by
  fun_induction flushItems x1 x2 x3 s
  repeat' first
    | with_reducible assumption | with_reducible refine (‹SameChans o _ → SameChans o _›) ?_
    | with_reducible apply chans_writeEntry | with_reducible apply chans_modQueue

theorem chans_flushQueue {o s : State} (h : SameChans o s) {x2 x3} :
    SameChans o (State.flushQueue s x2 x3) := by
  unfold State.flushQueue
  repeat' first
    | with_reducible assumption | with_reducible apply chans_flushItems

theorem chans_setPhase {o s : State} (h : SameChans o s) {x2 x3 x4 x5} :
    SameChans o (State.setPhase s x2 x3 x4 x5) := by
  unfold State.setPhase
  repeat' first
    | with_reducible assumption | with_reducible apply chans_modQueue

theorem chans_complete {o s : State} (h : SameChans o s) {x2 x3 x4 x5 x6 x7} :
    SameChans o (State.complete s x2 x3 x4 x5 x6 x7) := by
  unfold State.complete
  repeat' first
    | with_reducible assumption | with_reducible apply chans_flushQueue | with_reducible apply chans_occurQueue
    | with_reducible apply chans_setPhase | split

theorem chans_result {o s : State} (h : SameChans o s) {x2 x3 x4 x5 x6 x7} :
    SameChans o (State.result s x2 x3 x4 x5 x6 x7) := by
  unfold State.result
  repeat' first
    | with_reducible assumption | with_reducible apply chans_complete

theorem chans_injected {o s : State} (h : SameChans o s) {x2 x3 x4} :
    SameChans o (State.injected s x2 x3 x4) := by
  unfold State.injected
  repeat' first
    | with_reducible assumption | with_reducible apply chans_result | with_reducible apply SameChans.around
    | rw [mk_around] | with_reducible rfl | exact Nat.le_refl _ | split

theorem chans_startItem {o s : State} (h : SameChans o s) {x2 x3 x4} :
    SameChans o (State.startItem s x2 x3 x4) := by
  unfold State.startItem
  repeat' first
    | with_reducible assumption | with_reducible apply chans_setPhase

theorem chans_sendReply {o s : State} (h : SameChans o s) {x2 x3 x4 x5} :
    SameChans o (State.sendReply s x2 x3 x4 x5) := by
  unfold State.sendReply
  repeat' first
    | with_reducible assumption | with_reducible apply chans_sendHost

theorem chans_actAnchor {o s : State} (h : SameChans o s) {x2 x3} :
    SameChans o (State.actAnchor s x2 x3) := by
  unfold State.actAnchor
  try dsimp only
  repeat' first
    | with_reducible assumption | with_reducible apply chans_hostLinkError | with_reducible apply chans_sendReply
    | with_reducible apply chans_modRings | with_reducible apply chans_hostRead
    | with_reducible apply SameChans.around | rw [mk_around] | exact fun _ _ e => e | exact fun _ e => e | intro _
    | split

theorem chans_setInt {o s : State} (h : SameChans o s) {x2 x3} :
    SameChans o (State.setInt s x2 x3) := by
  unfold State.setInt
  repeat' first
    | with_reducible assumption | with_reducible apply SameChans.around | rw [mk_around] | with_reducible rfl
    | exact Nat.le_refl _ | split

theorem chans_badConsumed {o s : State} (h : SameChans o s) {x2 x3 x4 x5} :
    SameChans o (State.badConsumed s x2 x3 x4 x5) := by
  unfold State.badConsumed
  repeat' first
    | with_reducible assumption | with_reducible apply chans_occur

theorem chans_actConsumedDoorbell {o s : State} (h : SameChans o s) {x2 x3 x4} :
    SameChans o (State.actConsumedDoorbell s x2 x3 x4) := by
  unfold State.actConsumedDoorbell
  try dsimp only
  repeat' first
    | with_reducible assumption | with_reducible apply chans_hostLinkError | with_reducible apply chans_setInt
    | with_reducible apply chans_modRings | with_reducible apply chans_badConsumed | intro _ | split

theorem chans_actWorkDoorbell {o s : State} (h : SameChans o s) {x2 x3 x4} :
    SameChans o (State.actWorkDoorbell s x2 x3 x4) := by
  unfold State.actWorkDoorbell
  try dsimp only
  repeat' first
    | with_reducible assumption | with_reducible apply chans_hostLinkError | with_reducible apply chans_setQueue
    | with_reducible apply chans_occurQueue | intro _ | split

theorem chans_assertInt {o s : State} (h : SameChans o s) {x2} :
    SameChans o (State.assertInt s x2) := by
  unfold State.assertInt
  try dsimp only
  repeat' first
    | with_reducible assumption | with_reducible apply chans_setInt | intro _ | split

theorem chans_badFrame {o s : State} (h : SameChans o s) {x2 x3} :
    SameChans o (State.badFrame s x2 x3) := by
  unfold State.badFrame
  repeat' first
    | with_reducible assumption | with_reducible apply chans_hostLinkError | with_reducible apply chans_sayNak

theorem chans_unreserve {o s : State} (h : SameChans o s) {x2 x3 x4} :
    SameChans o (State.unreserve s x2 x3 x4) := by
  unfold State.unreserve
  repeat' first
    | with_reducible assumption | with_reducible apply chans_modRings | split

theorem chans_writeConsumed {o s : State} (h : SameChans o s) {x2 x3} :
    SameChans o (State.writeConsumed s x2 x3) := by
  unfold State.writeConsumed
  repeat' first
    | with_reducible assumption | with_reducible apply chans_hostWrite | split

theorem chans_fetchDone {o s : State} (h : SameChans o s) {x2 x3 x4 x5 x6} :
    SameChans o (State.fetchDone s x2 x3 x4 x5 x6) := by
  unfold State.fetchDone
  repeat' first
    | with_reducible assumption | with_reducible apply chans_setQueue | with_reducible apply chans_unreserve
    | with_reducible apply chans_writeConsumed | intro _ | split

theorem chans_fetchFailed {o s : State} (h : SameChans o s) {x2 x3 x4 x5} :
    SameChans o (State.fetchFailed s x2 x3 x4 x5) := by
  unfold State.fetchFailed
  try dsimp only
  repeat' first
    | with_reducible assumption | with_reducible apply chans_setQueue | with_reducible apply chans_unreserve
    | with_reducible apply chans_writeConsumed | with_reducible apply chans_flushQueue
    | with_reducible apply SameChans.around | rw [mk_around] | intro _ | split

theorem chans_fetchItems {o s : State} (h : SameChans o s) {x2 x3} :
    SameChans o (State.fetchItems s x2 x3) := by
  unfold State.fetchItems
  try dsimp only
  repeat' first
    | with_reducible assumption | with_reducible apply chans_setQueue | with_reducible apply chans_modRings
    | with_reducible apply chans_hostRead | intro _ | split

theorem chans_onFrame {o s : State} (h : SameChans o s) {x2 x3 x4 x5} (k : ∀ t, SameChans o t → SameChans o (x5 t)) :
    SameChans o (State.onFrame s x2 x3 x4 x5) := by
  unfold State.onFrame
  try dsimp only
  repeat' first
    | with_reducible assumption | with_reducible apply k | with_reducible apply chans_injected
    | with_reducible apply chans_badFrame | with_reducible apply chans_acceptFrame | intro _ | split

theorem chans_writeRecord {o s : State} (h : SameChans o s) {x2 x3 x4 x5} :
    SameChans o (State.writeRecord s x2 x3 x4 x5) := by
  unfold State.writeRecord
  repeat' first
    | with_reducible assumption | with_reducible apply chans_modRings | with_reducible apply chans_hostWrite | intro _
    | split

theorem chans_releaseWake {o s : State} (h : SameChans o s) :
    SameChans o (State.releaseWake s) := by
  unfold State.releaseWake
  repeat' first
    | with_reducible assumption | with_reducible apply SameChans.around | rw [mk_around] | with_reducible rfl
    | exact Nat.le_refl _ | intro _ | split

theorem chans_recordWrite {o s : State} (h : SameChans o s) {x2} :
    SameChans o (State.recordWrite s x2) := by
  unfold State.recordWrite
  try dsimp only
  repeat' first
    | with_reducible assumption | with_reducible apply chans_setRings | with_reducible apply chans_writeRecord
    | with_reducible apply chans_releaseWake | with_reducible apply chans_fence
    | with_reducible apply SameChans.around | rw [mk_around] | exact fun _ _ e => e | exact fun _ e => e | intro _
    | split

theorem chans_sendEvent {o s : State} (h : SameChans o s) {x2 x3 x4} :
    SameChans o (State.sendEvent s x2 x3 x4) := by
  unfold State.sendEvent
  try dsimp only
  repeat' first
    | with_reducible assumption | with_reducible apply chans_setRings | with_reducible apply chans_sendHost | intro _
    | split

theorem chans_takeFrame {o s : State} (h : SameChans o s) {x2 x3 x4} (k : ∀ t, SameChans o t → SameChans o (x4 t)) :
    SameChans o (State.takeFrame s x2 x3 x4) := by
  unfold State.takeFrame
  repeat' first
    | with_reducible assumption | with_reducible apply k | with_reducible apply chans_modLink
    | with_reducible apply chans_returnCredit | intro _ | split

theorem chans_writeEach {o s : State} (h : SameChans o s) {x1 x2} :
    SameChans o (writeEach x1 x2 s) := by
  fun_induction writeEach x1 x2 s
  repeat' first
    | with_reducible assumption | with_reducible refine (‹SameChans o _ → SameChans o _›) ?_
    | with_reducible apply chans_recordWrite

theorem chans_writeBuffered {o s : State} (h : SameChans o s) {x2} :
    SameChans o (State.writeBuffered s x2) := by
  unfold State.writeBuffered
  repeat' first
    | with_reducible assumption | with_reducible apply chans_writeEach

theorem chans_execAnchorMessage {o s : State} (h : SameChans o s) {x1 x2 x3} :
    SameChansR o (execAnchorMessage x1 x2 x3 s) := by
  unfold execAnchorMessage
  repeat' first
    | with_reducible assumption | with_reducible apply chans_onFrame | with_reducible apply chans_actAnchor
    | with_reducible apply chans_takeFrame | with_reducible apply SameChansR.next | intro _

theorem chans_execConsumedDoorbell {o s : State} (h : SameChans o s) {x1 x2 x3 x4} :
    SameChansR o (execConsumedDoorbell x1 x2 x3 x4 s) := by
  unfold execConsumedDoorbell
  repeat' first
    | with_reducible assumption | with_reducible apply chans_actConsumedDoorbell | with_reducible apply chans_onFrame
    | with_reducible apply chans_takeFrame | with_reducible apply SameChansR.next | intro _

theorem chans_execEventFrame {o s : State} (h : SameChans o s) {x1 x2 x3} :
    SameChansR o (execEventFrame x1 x2 x3 s) := by
  unfold execEventFrame
  repeat' first
    | with_reducible assumption | with_reducible apply chans_sendEvent | with_reducible apply SameChansR.next

theorem chans_execItemFetch {o s : State} (h : SameChans o s) {x1 x2} :
    SameChansR o (execItemFetch x1 x2 s) := by
  unfold execItemFetch
  repeat' first
    | with_reducible assumption | with_reducible apply chans_fetchItems | with_reducible apply SameChansR.next

theorem chans_execRecordWrite {o s : State} (h : SameChans o s) {x1} :
    SameChansR o (execRecordWrite x1 s) := by
  unfold execRecordWrite
  repeat' first
    | with_reducible assumption | with_reducible apply chans_recordWrite | with_reducible apply SameChansR.next

theorem chans_execWorkQueueDoorbell {o s : State} (h : SameChans o s) {x1 x2 x3 x4} :
    SameChansR o (execWorkQueueDoorbell x1 x2 x3 x4 s) := by
  unfold execWorkQueueDoorbell
  repeat' first
    | with_reducible assumption | with_reducible apply chans_actWorkDoorbell | with_reducible apply chans_onFrame
    | with_reducible apply chans_takeFrame | with_reducible apply SameChansR.next | intro _

theorem chans_linkRecord {o s : State} (h : SameChans o s) {x2 x3 x4} :
    SameChans o (State.linkRecord s x2 x3 x4) := by
  unfold State.linkRecord
  repeat' first
    | with_reducible assumption | with_reducible apply chans_record

theorem chans_modTransport {o s : State} (h : SameChans o s) {x2} :
    SameChans o (State.modTransport s x2) := by
  unfold State.modTransport
  repeat' first
    | with_reducible assumption | with_reducible apply SameChans.around | rw [mk_around] | with_reducible rfl
    | exact Nat.le_refl _

theorem chans_abandonMessage {o s : State} (h : SameChans o s) {x2} :
    SameChans o (State.abandonMessage s x2) := by
  unfold State.abandonMessage
  repeat' first
    | with_reducible assumption | with_reducible apply chans_complete | with_reducible apply chans_modTransport
    | intro _ | split

theorem chans_abandonAll {o s : State} (h : SameChans o s) {x1} :
    SameChans o (abandonAll x1 s) := by
  fun_induction abandonAll x1 s
  repeat' first
    | with_reducible assumption | with_reducible refine (‹SameChans o _ → SameChans o _›) ?_
    | with_reducible apply chans_abandonMessage

theorem chans_abandonChan {o s : State} (h : SameChans o s) {x2} :
    SameChans o (State.abandonChan s x2) := by
  unfold State.abandonChan
  repeat' first
    | with_reducible assumption | with_reducible apply chans_abandonAll

theorem chans_modOp {o s : State} (h : SameChans o s) {x2 x3} :
    SameChans o (State.modOp s x2 x3) := by
  unfold State.modOp
  repeat' first
    | with_reducible assumption | with_reducible apply chans_modTransport

theorem chans_recordFailure {o s : State} (h : SameChans o s) {x2 x3 x4 x5} :
    SameChans o (State.recordFailure s x2 x3 x4 x5) := by
  unfold State.recordFailure
  try dsimp only
  repeat' first
    | with_reducible assumption | with_reducible apply chans_modTransport | intro _ | split

theorem chans_loseCompleted {o s : State} (h : SameChans o s) {x2 x3} :
    SameChans o (State.loseCompleted s x2 x3) := by
  unfold State.loseCompleted
  repeat' first
    | with_reducible assumption | with_reducible apply chans_recordFailure | with_reducible apply chans_occurQueue

theorem chans_loseCompletedList {o s : State} (h : SameChans o s) {x1 x2} :
    SameChans o (loseCompletedList x1 x2 s) := by
  fun_induction loseCompletedList x1 x2 s
  repeat' first
    | with_reducible assumption | with_reducible refine (‹SameChans o _ → SameChans o _›) ?_
    | with_reducible apply chans_loseCompleted

theorem chans_breakSounding {o s : State} (h : SameChans o s) {x2 x3} :
    SameChans o (State.breakSounding s x2 x3) := by
  unfold State.breakSounding
  repeat' first
    | with_reducible assumption | with_reducible apply SameChans.around | rw [mk_around] | with_reducible rfl
    | exact Nat.le_refl _

theorem chans_settleItem {o s : State} (h : SameChans o s) {x2 x3} :
    SameChans o (State.settleItem s x2 x3) := by
  unfold State.settleItem
  repeat' first
    | with_reducible assumption | with_reducible apply chans_result | split

theorem chans_eachChan {o s : State} (h : SameChans o s) {x1 x2} (k : ∀ t c, SameChans o t → SameChans o (x1 t c)) :
    SameChans o (eachChan x1 x2 s) := by
  fun_induction eachChan x1 x2 s
  repeat' first
    | with_reducible assumption | with_reducible refine (‹SameChans o _ → SameChans o _›) ?_ | with_reducible apply k

theorem chans_checkFixity {o s : State} (h : SameChans o s) {x2 x3 x4 x5 x6 x7} :
    SameChans o (State.checkFixity s x2 x3 x4 x5 x6 x7).2 := by
  unfold State.checkFixity
  try dsimp only
  repeat' first
    | with_reducible assumption | with_reducible apply chans_injected | with_reducible apply chans_occurChan | split

end Sys2Proof.Machine
end

