-- ==== Sys2Proof/Laws/SameChansTransport.lean ====
section
/-! SUPPORT. The operations of the initiator, the retry layer and the streams that leave the channels. -/

namespace Sys2Proof.Machine

theorem chans_readPieces {o s : State} (h : SameChans o s) {x1 x2 x3 x4} :
    SameChans o (readPieces x1 x2 x3 x4 s) := by
  fun_induction readPieces x1 x2 x3 x4 s
  repeat' first
    | with_reducible assumption | with_reducible refine (‹SameChans o _ → SameChans o _›) ?_
    | with_reducible apply chans_hostRead

theorem chans_beginChunk {o s : State} (h : SameChans o s) {x2 x3} :
    SameChans o (State.beginChunk s x2 x3) := by
  unfold State.beginChunk
  repeat' first
    | with_reducible assumption | with_reducible apply chans_modOp | with_reducible apply chans_hostRead
    | with_reducible apply chans_readPieces | intro _ | split

theorem chans_takeFailure {o s : State} (h : SameChans o s) {x2 x3 x4} :
    SameChans o (State.takeFailure s x2 x3 x4).2 := by
  unfold State.takeFailure
  try dsimp only
  repeat' first
    | with_reducible assumption | with_reducible apply chans_modTransport | split

theorem chans_execMalformedItem {o s : State} (h : SameChans o s) {x1 x2} :
    SameChansR o (execMalformedItem x1 x2 s) := by
  unfold execMalformedItem
  repeat' first
    | with_reducible assumption | with_reducible apply chans_complete | with_reducible apply chans_startItem
    | with_reducible apply SameChansR.next | split

theorem chans_execReceiveItem {o s : State} (h : SameChans o s) {x1 x2} :
    SameChansR o (execReceiveItem x1 x2 s) := by
  unfold execReceiveItem
  repeat' first
    | with_reducible assumption | with_reducible apply chans_startItem | with_reducible apply SameChansR.next | split

theorem chans_modStream {o s : State} (h : SameChans o s) {x2 x3 x4} :
    SameChans o (State.modStream s x2 x3 x4) := by
  unfold State.modStream
  repeat' first
    | with_reducible assumption | with_reducible apply chans_modQueue

theorem chans_streamRecord {o s : State} (h : SameChans o s) {x2 x3 x4} :
    SameChans o (State.streamRecord s x2 x3 x4) := by
  unfold State.streamRecord
  repeat' first
    | with_reducible assumption | with_reducible apply chans_record

theorem chans_feedEvent {o s : State} (h : SameChans o s) {x2 x3 x4 x5 x6} :
    SameChans o (State.feedEvent s x2 x3 x4 x5 x6) := by
  unfold State.feedEvent
  repeat' first
    | with_reducible assumption | with_reducible apply chans_streamRecord

theorem chans_exhaust {o s : State} (h : SameChans o s) {x2 x3 x4 x5} :
    SameChans o (State.exhaust s x2 x3 x4 x5) := by
  unfold State.exhaust
  repeat' first
    | with_reducible assumption | with_reducible apply chans_feedEvent | with_reducible apply chans_occurQueue
    | with_reducible apply chans_modStream

theorem chans_firebreakDone {o s : State} (h : SameChans o s) {x2 x3 x4 x5} :
    SameChans o (State.firebreakDone s x2 x3 x4 x5) := by
  unfold State.firebreakDone
  repeat' first
    | with_reducible assumption | with_reducible apply chans_feedEvent | with_reducible apply chans_complete

theorem chans_onItem {o s : State} (h : SameChans o s) {x2 x3 x4} (k : ∀ i b, SameChansO o (x4 i b)) :
    SameChans o (State.onItem s x2 x3 x4) := by
  unfold State.onItem
  repeat' first
    | with_reducible assumption | with_reducible apply k | with_reducible apply SameChansO.getD | split

theorem chans_takeBuffer {o s : State} (h : SameChans o s) {x2 x3} :
    SameChans o (State.takeBuffer s x2 x3) := by
  unfold State.takeBuffer
  repeat' first
    | with_reducible assumption | with_reducible apply chans_onItem | with_reducible apply chans_startItem
    | with_reducible apply chans_modStream | with_reducible apply SameChansO.ite
    | with_reducible apply SameChansO.some | with_reducible exact SameChansO.none | intro _ | split

theorem chans_execStreamBuffer {o s : State} (h : SameChans o s) {x1 x2} :
    SameChansR o (execStreamBuffer x1 x2 s) := by
  unfold execStreamBuffer
  repeat' first
    | with_reducible assumption | with_reducible apply chans_takeBuffer | with_reducible apply SameChansR.next

theorem chans_execStreamStart {o s : State} (h : SameChans o s) {x1 x2} :
    SameChansR o (execStreamStart x1 x2 s) := by
  unfold execStreamStart
  repeat' first
    | with_reducible assumption | with_reducible apply chans_onItem | with_reducible apply chans_complete
    | with_reducible apply chans_startItem | with_reducible apply chans_modStream
    | with_reducible apply SameChansO.ite | with_reducible apply SameChansO.some
    | with_reducible exact SameChansO.none | with_reducible apply SameChansR.next | intro _ | split

theorem chans_execStreamStop {o s : State} (h : SameChans o s) {x1 x2} :
    SameChansR o (execStreamStop x1 x2 s) := by
  unfold execStreamStop
  repeat' first
    | with_reducible assumption | with_reducible apply chans_onItem | with_reducible apply chans_complete
    | with_reducible apply chans_startItem | with_reducible apply chans_modStream
    | with_reducible apply SameChansO.ite | with_reducible apply SameChansO.some
    | with_reducible exact SameChansO.none | with_reducible apply SameChansR.next | intro _ | split

end Sys2Proof.Machine
end

