-- ==== Sys2Proof/Laws/SameChansLine.lean ====
section
/-! SUPPORT. The operations of the fault reactions and the line that leave the channels. -/

namespace Sys2Proof.Machine

theorem chans_acknowledge {o s : State} (h : SameChans o s) {x2 x3} :
    SameChans o (State.acknowledge s x2 x3) := by
  unfold State.acknowledge
  repeat' first
    | with_reducible assumption | with_reducible apply chans_setReaction | with_reducible apply chans_forgetEpisode
    | with_reducible apply chans_produce | with_reducible apply SameChans.around | rw [mk_around] | with_reducible rfl
    | exact Nat.le_refl _

theorem chans_releaseErr {o s : State} (h : SameChans o s) :
    SameChans o (State.releaseErr s) := by
  unfold State.releaseErr
  repeat' first
    | with_reducible assumption | with_reducible apply SameChans.around | rw [mk_around] | with_reducible rfl
    | exact Nat.le_refl _

theorem chans_execFaultAcknowledge {o s : State} (h : SameChans o s) {x1 x2} :
    SameChansR o (execFaultAcknowledge x1 x2 s) := by
  unfold execFaultAcknowledge
  try dsimp only
  repeat' first
    | with_reducible assumption | with_reducible apply chans_onItem | with_reducible apply chans_acknowledge
    | with_reducible apply chans_result | with_reducible apply chans_startItem | with_reducible apply SameChansO.ite
    | with_reducible apply SameChansO.some | with_reducible exact SameChansO.none
    | with_reducible apply SameChansR.next | intro _ | split

end Sys2Proof.Machine
end

