-- ==== Sys2Proof/Laws/SameChansPort.lean ====
section
/-! SUPPORT. The operations of the host link, the start record, wake and the channel items that leave the channels. -/

namespace Sys2Proof.Machine

theorem chans_setTelem {o s : State} (h : SameChans o s) {x2 x3} :
    SameChans o (State.setTelem s x2 x3) := by
  unfold State.setTelem
  repeat' first
    | with_reducible assumption | with_reducible apply SameChans.around | rw [mk_around] | with_reducible rfl
    | exact Nat.le_refl _ | split

theorem chans_sayResent {o s : State} (h : SameChans o s) {x1 x2} :
    SameChans o (sayResent x1 x2 s) := by
  fun_induction sayResent x1 x2 s
  repeat' first
    | with_reducible assumption | with_reducible refine (‹SameChans o _ → SameChans o _›) ?_
    | with_reducible apply chans_say
    | with_reducible apply chans_modLink
    | intro _
    | split

theorem chans_bringUp {o s : State} (h : SameChans o s) {x2} :
    SameChans o (State.bringUp s x2) := by
  unfold State.bringUp
  try dsimp only
  repeat' first
    | with_reducible assumption | with_reducible apply chans_sayResent | with_reducible apply chans_pump
    | with_reducible apply chans_setLink | intro _ | split

theorem chans_execLinkParametersFrame {o s : State} (h : SameChans o s) {x1 x2} :
    SameChansR o (execLinkParametersFrame x1 x2 s) := by
  unfold execLinkParametersFrame
  try dsimp only
  repeat' first
    | with_reducible assumption | with_reducible apply chans_setLink | with_reducible apply SameChansR.next | intro _
    | split

theorem chans_channelItem {o s : State} (h : SameChans o s) {x2 x3 x4 x5 x6} (k : ∀ t, SameChans o t → SameChansO o (x6 t)) :
    SameChansO o (State.channelItem s x2 x3 x4 x5 x6) := by
  unfold State.channelItem
  repeat' first
    | with_reducible assumption | with_reducible apply k | with_reducible apply chans_result
    | with_reducible apply chans_startItem | with_reducible apply SameChansO.ite
    | with_reducible apply SameChansO.some | with_reducible exact SameChansO.none | intro _

theorem chans_execEnterDormant {o s : State} (h : SameChans o s) {x1 x2} :
    SameChansR o (execEnterDormant x1 x2 s) := by
  unfold execEnterDormant
  repeat' first
    | with_reducible assumption | with_reducible apply chans_onItem | with_reducible apply chans_result
    | with_reducible apply chans_startItem | with_reducible apply SameChans.around
    | with_reducible apply SameChansO.ite | rw [mk_around] | with_reducible apply SameChansO.some
    | with_reducible exact SameChansO.none | with_reducible apply SameChansR.next | with_reducible rfl
    | exact Nat.le_refl _ | intro _ | split

theorem chans_execInjectCheckInversion {o s : State} (h : SameChans o s) {x1 x2} :
    SameChansR o (execInjectCheckInversion x1 x2 s) := by
  unfold execInjectCheckInversion
  repeat' first
    | with_reducible assumption | with_reducible apply chans_onItem | with_reducible apply chans_result
    | with_reducible apply chans_startItem | with_reducible apply SameChans.around
    | with_reducible apply SameChansO.ite | rw [mk_around] | with_reducible apply SameChansO.some
    | with_reducible exact SameChansO.none | with_reducible apply SameChansR.next | with_reducible rfl
    | exact Nat.le_refl _ | intro _ | split

theorem chans_execInjectionLimitExpiry {o s : State} (h : SameChans o s) {x1} :
    SameChansR o (execInjectionLimitExpiry x1 s) := by
  unfold execInjectionLimitExpiry
  repeat' first
    | with_reducible assumption | with_reducible apply chans_result | with_reducible apply SameChans.around
    | rw [mk_around] | with_reducible apply SameChansR.next | with_reducible rfl | exact Nat.le_refl _ | intro _
    | split

theorem chans_sendTraining {o s} (h : SameChans o s) {x2} :
    SameChans o (State.sendTraining s x2) := by
  unfold State.sendTraining
  try dsimp only
  repeat' first
    | with_reducible assumption | with_reducible apply chans_useFresh | with_reducible apply chans_modLink | intro _
    | split

theorem chans_beginAttempt {o s} (h : SameChans o s) {x2} :
    SameChans o (State.beginAttempt s x2) := by
  unfold State.beginAttempt
  try dsimp only
  repeat' first
    | with_reducible assumption | with_reducible apply chans_modLink | with_reducible apply chans_sendTraining
    | intro _ | split

theorem chans_retrainPort {o s : State} (h : SameChans o s) {x2 x3} :
    SameChans o (State.retrainPort s x2 x3) := by
  unfold State.retrainPort
  try dsimp only
  repeat' first
    | with_reducible assumption | with_reducible apply chans_sayLink | with_reducible apply chans_beginAttempt
    | intro _ | split

theorem chans_resendAll {o s : State} (h : SameChans o s) {x2} :
    SameChans o (State.resendAll s x2) := by
  unfold State.resendAll
  try dsimp only
  repeat' first
    | with_reducible assumption | with_reducible apply chans_sayResent | with_reducible apply chans_setLink | intro _
    | split

theorem chans_execReplayInterval {o s : State} (h : SameChans o s) {x1} :
    SameChansR o (execReplayInterval x1 s) := by
  unfold execReplayInterval
  repeat' first
    | with_reducible assumption | with_reducible apply chans_retrainPort | with_reducible apply chans_resendAll
    | with_reducible apply SameChansR.next | intro _ | split

theorem chans_execBlockLockLost {o s} (h : SameChans o s) {x1 x2 x3} :
    SameChansR o (execBlockLockLost x1 x2 x3 s) := by
  unfold execBlockLockLost
  try dsimp only
  repeat' first
    | with_reducible assumption | with_reducible apply chans_retrainPort | with_reducible apply SameChansR.next
    | intro _ | split

theorem chans_execRetrain {o s : State} (h : SameChans o s) {x1 x2} :
    SameChansR o (execRetrain x1 x2 s) := by
  unfold execRetrain
  try dsimp only
  repeat' first
    | with_reducible assumption | with_reducible apply chans_beginAttempt | with_reducible apply SameChansR.next
    | intro _ | split

theorem chans_answerTraining {o s} (h : SameChans o s) {x2 x3} :
    SameChans o (State.answerTraining s x2 x3) := by
  unfold State.answerTraining
  try dsimp only
  repeat' first
    | with_reducible assumption | with_reducible apply chans_sendTraining | intro _ | split

theorem chans_execTrainBlock {o s : State} (h : SameChans o s) {x1 x2 x3} :
    SameChansR o (execTrainBlock x1 x2 x3 s) := by
  unfold execTrainBlock
  try dsimp only
  repeat' first
    | with_reducible assumption | with_reducible apply chans_beginAttempt | with_reducible apply chans_setLink
    | with_reducible apply chans_answerTraining | with_reducible apply SameChansR.next | intro _ | split

theorem chans_ignoreFrame {o s} (h : SameChans o s) {x2 x3} :
    SameChans o (State.ignoreFrame s x2 x3) := by
  unfold State.ignoreFrame
  try dsimp only
  repeat' first
    | with_reducible assumption | with_reducible apply chans_hostLinkError | with_reducible apply chans_returnCredit
    | intro _ | split

theorem chans_execFrameNotActedOn {o s : State} (h : SameChans o s) {x1 x2 x3 x4} :
    SameChansR o (execFrameNotActedOn x1 x2 x3 x4 s) := by
  unfold execFrameNotActedOn
  try dsimp only
  repeat' first
    | with_reducible assumption | with_reducible apply chans_onFrame | with_reducible apply chans_ignoreFrame
    | with_reducible apply chans_modLink | with_reducible apply SameChansR.next
    | with_reducible apply SameChans.around | rw [mk_around] | intro _ | split

theorem chans_execNak {o s : State} (h : SameChans o s) {x1 x2} :
    SameChansR o (execNak x1 x2 s) := by
  unfold execNak
  repeat' first
    | with_reducible assumption | with_reducible apply chans_modLink | with_reducible apply chans_pump
    | with_reducible apply chans_resendAll | with_reducible apply SameChansR.next | intro _ | split

theorem chans_execPortStabilityCountDone {o s : State} (h : SameChans o s) {x1} :
    SameChansR o (execPortStabilityCountDone x1 s) := by
  unfold execPortStabilityCountDone
  repeat' first
    | with_reducible assumption | with_reducible apply chans_modLink | with_reducible apply SameChansR.next | intro _
    | split

theorem chans_sendParams {o s} (h : SameChans o s) {x2} :
    SameChans o (State.sendParams s x2) := by
  unfold State.sendParams
  try dsimp only
  repeat' first
    | with_reducible assumption | with_reducible apply chans_say | with_reducible apply chans_modLink | intro _
    | split

theorem chans_execParametersFrameInterval {o s : State} (h : SameChans o s) {x1} :
    SameChansR o (execParametersFrameInterval x1 s) := by
  unfold execParametersFrameInterval
  try dsimp only
  repeat' first
    | with_reducible assumption | with_reducible apply chans_sendParams | with_reducible apply SameChansR.next
    | intro _ | split

theorem chans_execTrainingPhaseLimit {o s : State} (h : SameChans o s) {x1} :
    SameChansR o (execTrainingPhaseLimit x1 s) := by
  unfold execTrainingPhaseLimit
  repeat' first
    | with_reducible assumption | with_reducible apply chans_modLink | with_reducible apply SameChansR.next | intro _
    | split

theorem chans_portClockBack {o s} (h : SameChans o s) {x2} :
    SameChans o (State.portClockBack s x2) := by
  unfold State.portClockBack
  try dsimp only
  repeat' first
    | with_reducible assumption | with_reducible apply chans_modLink | with_reducible apply chans_grantDoorbells
    | with_reducible apply chans_pump | with_reducible apply SameChans.around | rw [mk_around] | intro _ | split

theorem chans_execPortClockReturn {o s : State} (h : SameChans o s) {x1} :
    SameChansR o (execPortClockReturn x1 s) := by
  unfold execPortClockReturn
  try dsimp only
  repeat' first
    | with_reducible assumption | with_reducible apply chans_portClockBack | with_reducible apply SameChansR.next
    | intro _ | split

theorem chans_refuseFrame {o s} (h : SameChans o s) {x2 x3} :
    SameChans o (State.refuseFrame s x2 x3) := by
  unfold State.refuseFrame
  try dsimp only
  repeat' first
    | with_reducible assumption | with_reducible apply chans_badFrame | with_reducible apply chans_injected
    | with_reducible apply chans_sayAck | with_reducible apply chans_sayNak | intro _ | split

theorem chans_execHostFrameBad {o s : State} (h : SameChans o s) {x1 x2} :
    SameChansR o (execHostFrameBad x1 x2 s) := by
  unfold execHostFrameBad
  try dsimp only
  repeat' first
    | with_reducible assumption | with_reducible apply chans_refuseFrame | with_reducible apply SameChansR.next
    | intro _ | split

theorem chans_execCreditRepeat {o s : State} (h : SameChans o s) {x1} :
    SameChansR o (execCreditRepeat x1 s) := by
  unfold execCreditRepeat
  repeat' first
    | with_reducible assumption | with_reducible apply chans_sayLink | with_reducible apply SameChansR.next | intro _
    | split

theorem chans_execHostTrainAttemptStart {o s : State} (h : SameChans o s) {x1} :
    SameChansR o (execHostTrainAttemptStart x1 s) := by
  unfold execHostTrainAttemptStart
  try dsimp only
  repeat' first
    | with_reducible assumption | with_reducible apply chans_beginAttempt | with_reducible apply SameChansR.next
    | intro _ | split

theorem chans_execAckRepeat {o s : State} (h : SameChans o s) {x1} :
    SameChansR o (execAckRepeat x1 s) := by
  unfold execAckRepeat
  repeat' first
    | with_reducible assumption | with_reducible apply chans_sayAck | with_reducible apply SameChansR.next | intro _
    | split

theorem chans_execPortClockStop {o s : State} (h : SameChans o s) {x1} :
    SameChansR o (execPortClockStop x1 s) := by
  unfold execPortClockStop
  repeat' first
    | with_reducible assumption | with_reducible apply chans_modLink | with_reducible apply SameChansR.next | intro _
    | split

theorem chans_execAttemptIdleEnd {o s : State} (h : SameChans o s) {x1} :
    SameChansR o (execAttemptIdleEnd x1 s) := by
  unfold execAttemptIdleEnd
  try dsimp only
  repeat' first
    | with_reducible assumption | with_reducible apply chans_beginAttempt | with_reducible apply SameChansR.next
    | intro _ | split

theorem chans_execAck {o s : State} (h : SameChans o s) {x1 x2} :
    SameChansR o (execAck x1 x2 s) := by
  unfold execAck
  repeat' first
    | with_reducible assumption | with_reducible apply chans_modLink | with_reducible apply chans_pump
    | with_reducible apply SameChansR.next | intro _ | split

theorem chans_execTagHoldExpiry {o s : State} (h : SameChans o s) {x1 x2} :
    SameChansR o (execTagHoldExpiry x1 x2 s) := by
  unfold execTagHoldExpiry
  repeat' first
    | with_reducible assumption | with_reducible apply chans_modLink | with_reducible apply chans_pump
    | with_reducible apply SameChansR.next | intro _ | split

theorem chans_execCredit {o s : State} (h : SameChans o s) {x1 x2} :
    SameChansR o (execCredit x1 x2 s) := by
  unfold execCredit
  repeat' first
    | with_reducible assumption | with_reducible apply chans_modLink | with_reducible apply chans_pump
    | with_reducible apply SameChansR.next | intro _ | split

end Sys2Proof.Machine
end

