-- ==== Sys2Proof/Laws/SameChansTasks.lean ====
section
/-! SUPPORT. The operations of the background tasks, calibration, dormant entry and the clocks that leave the channels. -/

namespace Sys2Proof.Machine

theorem chans_adoptSet {o s : State} (h : SameChans o s) {x2 x3} :
    SameChans o (State.adoptSet s x2 x3) := by
  unfold State.adoptSet
  repeat' first
    | with_reducible assumption | with_reducible apply SameChans.around | rw [mk_around] | with_reducible rfl
    | exact Nat.le_refl _

theorem chans_newTemp {o s : State} (h : SameChans o s) {x2} :
    SameChans o (State.newTemp s x2) := by
  unfold State.newTemp
  repeat' first
    | with_reducible assumption | with_reducible apply SameChans.around | rw [mk_around] | with_reducible rfl
    | exact Nat.le_refl _

theorem chans_stepChan {o s : State} (h : SameChans o s) {x2} :
    SameChans o (State.stepChan s x2) := by
  unfold State.stepChan
  try dsimp only
  repeat' first
    | with_reducible assumption | with_reducible apply SameChans.around | rw [mk_around] | with_reducible rfl
    | exact Nat.le_refl _ | intro _ | split

theorem chans_stepLane {o s : State} (h : SameChans o s) {x2} :
    SameChans o (State.stepLane s x2) := by
  unfold State.stepLane
  try dsimp only
  repeat' first
    | with_reducible assumption | with_reducible apply SameChans.around | rw [mk_around] | with_reducible rfl
    | exact Nat.le_refl _ | intro _ | split

theorem chans_stepLanes {o s : State} (h : SameChans o s) {x1} :
    SameChans o (stepLanes x1 s) := by
  fun_induction stepLanes x1 s
  repeat' first
    | with_reducible assumption | with_reducible refine (‹SameChans o _ → SameChans o _›) ?_
    | with_reducible apply chans_stepLane

theorem chans_stepChans {o s : State} (h : SameChans o s) {x1} :
    SameChans o (stepChans x1 s) := by
  fun_induction stepChans x1 s
  repeat' first
    | with_reducible assumption | with_reducible refine (‹SameChans o _ → SameChans o _›) ?_
    | with_reducible apply chans_stepChan

theorem chans_stepTrims {o s : State} (h : SameChans o s) :
    SameChans o (State.stepTrims s) := by
  unfold State.stepTrims
  repeat' first
    | with_reducible assumption | with_reducible apply chans_stepLanes | with_reducible apply chans_stepChans
    | with_reducible apply SameChans.around | rw [mk_around] | with_reducible rfl | exact Nat.le_refl _ | intro _
    | split

theorem chans_summary {o s : State} (h : SameChans o s) {x2 x3} :
    SameChans o (State.summary s x2 x3) := by
  unfold State.summary
  repeat' first
    | with_reducible assumption | with_reducible apply chans_record

theorem chans_endTask {o s : State} (h : SameChans o s) {x2 x3 x4} :
    SameChans o (State.endTask s x2 x3 x4) := by
  unfold State.endTask
  repeat' first
    | with_reducible assumption | with_reducible apply chans_result | split

theorem chans_failCalibration {o s : State} (h : SameChans o s) {x2 x3 x4 x5 x6} :
    SameChans o (State.failCalibration s x2 x3 x4 x5 x6) := by
  unfold State.failCalibration
  repeat' first
    | with_reducible assumption | with_reducible apply chans_summary | with_reducible apply chans_endTask
    | with_reducible apply SameChans.around | rw [mk_around] | with_reducible rfl | exact Nat.le_refl _

theorem chans_abandonCalibration {o s : State} (h : SameChans o s) {x2} :
    SameChans o (State.abandonCalibration s x2) := by
  unfold State.abandonCalibration
  repeat' first
    | with_reducible assumption | with_reducible apply chans_failCalibration | split

theorem chans_commandByPin {o s : State} (h : SameChans o s) :
    SameChans o (State.commandByPin s) := by
  unfold State.commandByPin
  repeat' first
    | with_reducible assumption | with_reducible apply SameChans.around | rw [mk_around] | with_reducible rfl
    | exact Nat.le_refl _

theorem chans_settleTask {o s} (h : SameChans o s) {x2} :
    SameChans o (State.settleTask s x2) := by
  unfold State.settleTask
  try dsimp only
  repeat' first
    | with_reducible assumption | with_reducible apply chans_endTask | with_reducible apply SameChans.around
    | rw [mk_around] | intro _ | split

theorem chans_endSounding {o s : State} (h : SameChans o s) {x2 x3} (k : ∀ t, SameChans o t → SameChans o (x3 t)) :
    SameChans o (State.endSounding s x2 x3) := by
  unfold State.endSounding
  try dsimp only
  repeat' first
    | with_reducible assumption | with_reducible apply chans_record | with_reducible apply chans_writeBuffered
    | with_reducible apply chans_settleTask | with_reducible apply SameChans.around | rw [mk_around]
    | with_reducible apply k | with_reducible rfl | exact Nat.le_refl _ | intro _ | split

theorem chans_endUnmeasured {o s : State} (h : SameChans o s) {x2 x3} :
    SameChans o (State.endUnmeasured s x2 x3) := by
  unfold State.endUnmeasured
  repeat' first
    | with_reducible assumption | with_reducible apply chans_endSounding | with_reducible apply chans_record | intro _
    | split

theorem chans_modCalib {o s : State} (h : SameChans o s) {x2} :
    SameChans o (State.modCalib s x2) := by
  unfold State.modCalib
  repeat' first
    | with_reducible assumption | with_reducible apply SameChans.around | rw [mk_around] | with_reducible rfl
    | exact Nat.le_refl _

theorem chans_noiseEnds {o s : State} (h : SameChans o s) {x2 x3 x4 x5 x6} :
    SameChans o (State.noiseEnds s x2 x3 x4 x5 x6) := by
  unfold State.noiseEnds
  repeat' first
    | with_reducible assumption | with_reducible apply chans_endSounding | with_reducible apply chans_record | intro _

theorem chans_setTask {o s : State} (h : SameChans o s) {x2 x3} :
    SameChans o (State.setTask s x2 x3) := by
  unfold State.setTask
  repeat' first
    | with_reducible assumption | with_reducible apply SameChans.around | rw [mk_around] | with_reducible rfl
    | exact Nat.le_refl _

theorem chans_soundingEnds {o s : State} (h : SameChans o s) {x2 x3 x4 x5 x6} :
    SameChans o (State.soundingEnds s x2 x3 x4 x5 x6) := by
  unfold State.soundingEnds
  repeat' first
    | with_reducible assumption | with_reducible apply chans_endSounding | with_reducible apply chans_record | intro _

theorem chans_execCalNArmed {o s : State} (h : SameChans o s) :
    SameChansR o (execCalNArmed s) := by
  unfold execCalNArmed
  repeat' first
    | with_reducible assumption | with_reducible apply chans_modCalib | with_reducible apply SameChansR.next | intro _
    | split

theorem chans_execCalNFalling {o s : State} (h : SameChans o s) :
    SameChansR o (execCalNFalling s) := by
  unfold execCalNFalling
  repeat' first
    | with_reducible assumption | with_reducible apply chans_commandByPin | with_reducible apply chans_modCalib
    | with_reducible apply SameChans.around | rw [mk_around] | with_reducible apply SameChansR.next
    | with_reducible rfl | exact Nat.le_refl _ | intro _ | split

theorem chans_execCalNRising {o s : State} (h : SameChans o s) :
    SameChansR o (execCalNRising s) := by
  unfold execCalNRising
  repeat' first
    | with_reducible assumption | with_reducible apply chans_modCalib | with_reducible apply SameChans.around
    | rw [mk_around] | with_reducible apply SameChansR.next | with_reducible rfl | exact Nat.le_refl _ | intro _
    | split

theorem chans_execCalibrate {o s : State} (h : SameChans o s) {x1 x2} :
    SameChansR o (execCalibrate x1 x2 s) := by
  unfold execCalibrate
  repeat' first
    | with_reducible assumption | with_reducible apply chans_onItem | with_reducible apply chans_startItem
    | with_reducible apply SameChans.around | with_reducible apply SameChansO.ite | rw [mk_around]
    | with_reducible apply SameChansO.some | with_reducible exact SameChansO.none
    | with_reducible apply SameChansR.next | with_reducible rfl | exact Nat.le_refl _ | intro _ | split

theorem chans_execNoiseFloorMeasurementEnd {o s : State} (h : SameChans o s) {x1 x2 x3} :
    SameChansR o (execNoiseFloorMeasurementEnd x1 x2 x3 s) := by
  unfold execNoiseFloorMeasurementEnd
  repeat' first
    | with_reducible assumption | with_reducible apply chans_noiseEnds | with_reducible apply SameChansR.next
    | intro _ | split

theorem chans_execSoundCable {o s : State} (h : SameChans o s) {x1 x2} :
    SameChansR o (execSoundCable x1 x2 s) := by
  unfold execSoundCable
  repeat' first
    | with_reducible assumption | with_reducible apply chans_onItem | with_reducible apply chans_channelItem
    | with_reducible apply SameChans.around | with_reducible apply SameChansO.ite | rw [mk_around]
    | with_reducible apply SameChansO.some | with_reducible exact SameChansO.none
    | with_reducible apply SameChansR.next | with_reducible rfl | exact Nat.le_refl _ | intro _ | split

theorem chans_execSoundingEnd {o s : State} (h : SameChans o s) {x1} :
    SameChansR o (execSoundingEnd x1 s) := by
  unfold execSoundingEnd
  repeat' first
    | with_reducible assumption | with_reducible apply chans_soundingEnds | with_reducible apply SameChansR.next
    | intro _ | split

theorem chans_select {o s : State} (h : SameChans o s) {x2 x3} :
    SameChans o (State.select s x2 x3) := by
  unfold State.select
  repeat' first
    | with_reducible assumption | with_reducible apply SameChans.around | rw [mk_around] | with_reducible rfl
    | exact Nat.le_refl _ | split

theorem chans_storeCommand {o s : State} (h : SameChans o s) {x2} :
    SameChans o (State.storeCommand s x2) := by
  unfold State.storeCommand
  repeat' first
    | with_reducible assumption | with_reducible apply chans_say | with_reducible apply chans_select | split

theorem chans_storeStep {o s : State} (h : SameChans o s) {x2} :
    SameChans o (State.storeStep s x2) := by
  unfold State.storeStep
  repeat' first
    | with_reducible assumption | with_reducible apply chans_modCalib | with_reducible apply chans_storeCommand

theorem chans_finishCalibration {o s : State} (h : SameChans o s) {x2} :
    SameChans o (State.finishCalibration s x2) := by
  unfold State.finishCalibration
  repeat' first
    | with_reducible assumption | with_reducible apply chans_modCalib | with_reducible apply chans_endTask
    | with_reducible apply SameChans.around | rw [mk_around] | with_reducible rfl | exact Nat.le_refl _

theorem chans_modAdopted {o s : State} (h : SameChans o s) {x2} :
    SameChans o (State.modAdopted s x2) := by
  unfold State.modAdopted
  repeat' first
    | with_reducible assumption | with_reducible apply chans_modCalib

theorem chans_beginPost {o s : State} (h : SameChans o s) :
    SameChans o (State.beginPost s) := by
  unfold State.beginPost
  repeat' first
    | with_reducible assumption | with_reducible apply chans_finishCalibration | with_reducible apply chans_modAdopted
    | with_reducible apply chans_summary | intro _ | split

theorem chans_endStore {o s : State} (h : SameChans o s) {x2} :
    SameChans o (State.endStore s x2) := by
  unfold State.endStore
  repeat' first
    | with_reducible assumption | with_reducible apply chans_modCalib | with_reducible apply chans_beginPost
    | with_reducible apply chans_modAdopted | with_reducible apply SameChans.around | rw [mk_around]
    | with_reducible rfl | exact Nat.le_refl _

theorem chans_lastMirror {o s : State} (h : SameChans o s) {x2} :
    SameChans o (State.lastMirror s x2) := by
  unfold State.lastMirror
  repeat' first
    | with_reducible assumption | with_reducible apply chans_storeStep | with_reducible apply chans_endStore | intro _
    | split

theorem chans_lastPhase {o s : State} (h : SameChans o s) {x2} :
    SameChans o (State.lastPhase s x2) := by
  unfold State.lastPhase
  repeat' first
    | with_reducible assumption | with_reducible apply chans_lastMirror | with_reducible apply chans_storeStep
    | intro _ | split

theorem chans_mirrorPhase {o s : State} (h : SameChans o s) {x2} :
    SameChans o (State.mirrorPhase s x2) := by
  unfold State.mirrorPhase
  repeat' first
    | with_reducible assumption | with_reducible apply chans_lastPhase | with_reducible apply chans_storeStep
    | intro _ | split

theorem chans_beginStore {o s : State} (h : SameChans o s) {x2 x3 x4} :
    SameChans o (State.beginStore s x2 x3 x4) := by
  unfold State.beginStore
  try dsimp only
  repeat' first
    | with_reducible assumption | with_reducible apply chans_storeStep | with_reducible apply chans_mirrorPhase
    | with_reducible apply chans_beginPost | with_reducible apply chans_modAdopted
    | with_reducible apply SameChans.around | rw [mk_around] | with_reducible rfl | exact Nat.le_refl _ | intro _
    | split

theorem chans_countExhausted {o s : State} (h : SameChans o s) {x2 x3} :
    SameChans o (State.countExhausted s x2 x3) := by
  unfold State.countExhausted
  repeat' first
    | with_reducible assumption | with_reducible apply chans_occurN | intro _ | split

theorem chans_adopt {o s : State} (h : SameChans o s) {x2 x3 x4 x5 x6} :
    SameChans o (State.adopt s x2 x3 x4 x5 x6) := by
  unfold State.adopt
  repeat' first
    | with_reducible assumption | with_reducible apply chans_adoptSet | with_reducible apply chans_beginStore
    | with_reducible apply chans_eachChan | with_reducible apply chans_modCalib | with_reducible apply chans_beginPost
    | with_reducible apply chans_countExhausted | intro _ | split

theorem chans_copyEnded {o s : State} (h : SameChans o s) {x2} :
    SameChans o (State.copyEnded s x2) := by
  unfold State.copyEnded
  repeat' first
    | with_reducible assumption | with_reducible apply chans_lastPhase | with_reducible apply chans_mirrorPhase
    | split

theorem chans_copyStored {o s : State} (h : SameChans o s) {x2} :
    SameChans o (State.copyStored s x2) := by
  unfold State.copyStored
  repeat' first
    | with_reducible assumption | with_reducible apply chans_modCalib | with_reducible apply chans_copyEnded

theorem chans_lastEnded {o s : State} (h : SameChans o s) {x2} :
    SameChans o (State.lastEnded s x2) := by
  unfold State.lastEnded
  repeat' first
    | with_reducible assumption | with_reducible apply chans_lastMirror | with_reducible apply chans_endStore | split

theorem chans_placeAt {o s : State} (h : SameChans o s) {x2 x3} :
    SameChans o (State.placeAt s x2 x3) := by
  unfold State.placeAt
  repeat' first
    | with_reducible assumption | with_reducible apply chans_storeStep | intro _ | split

theorem chans_placeEntry {o s : State} (h : SameChans o s) {x2 x3} :
    SameChans o (State.placeEntry s x2 x3) := by
  unfold State.placeEntry
  repeat' first
    | with_reducible assumption | with_reducible apply chans_placeAt | with_reducible apply chans_storeStep | intro _
    | split

theorem chans_postTick {o s : State} (h : SameChans o s) :
    SameChans o (State.postTick s) := by
  unfold State.postTick
  try dsimp only
  repeat' first
    | with_reducible assumption | with_reducible apply chans_record | with_reducible apply chans_finishCalibration
    | with_reducible apply chans_modAdopted | intro _ | split

theorem chans_storeAdvance {o s : State} (h : SameChans o s) {x2} :
    SameChans o (State.storeAdvance s x2) := by
  unfold State.storeAdvance
  repeat' first
    | with_reducible assumption | with_reducible apply chans_lastEnded | with_reducible apply chans_storeStep | split

theorem chans_storeFailed {o s : State} (h : SameChans o s) {x2 x3} :
    SameChans o (State.storeFailed s x2 x3) := by
  unfold State.storeFailed
  repeat' first
    | with_reducible assumption | with_reducible apply chans_occur | with_reducible apply chans_lastEnded
    | with_reducible apply chans_modCalib | with_reducible apply chans_copyEnded | with_reducible apply chans_select
    | split

theorem chans_execCalibrationWaitLimit {o s : State} (h : SameChans o s) :
    SameChansR o (execCalibrationWaitLimit s) := by
  unfold execCalibrationWaitLimit
  repeat' first
    | with_reducible assumption | with_reducible apply chans_setTask | with_reducible apply SameChansR.next | intro _
    | split

theorem chans_execFlashBusyLimit {o s : State} (h : SameChans o s) :
    SameChansR o (execFlashBusyLimit s) := by
  unfold execFlashBusyLimit
  repeat' first
    | with_reducible assumption | with_reducible apply chans_storeFailed | with_reducible apply SameChansR.next
    | intro _ | split

theorem chans_execFlashStatusPoll {o s : State} (h : SameChans o s) {x1 x2} :
    SameChansR o (execFlashStatusPoll x1 x2 s) := by
  unfold execFlashStatusPoll
  repeat' first
    | with_reducible assumption | with_reducible apply chans_storeAdvance | with_reducible apply chans_say
    | with_reducible apply chans_placeEntry | with_reducible apply chans_select | with_reducible apply SameChansR.next
    | intro _ | split

theorem chans_execMeasurePhaseEnd {o s : State} (h : SameChans o s) {x1} :
    SameChansR o (execMeasurePhaseEnd x1 s) := by
  unfold execMeasurePhaseEnd
  try dsimp only
  repeat' first
    | with_reducible assumption | with_reducible apply chans_failCalibration | with_reducible apply chans_adopt
    | with_reducible apply SameChansR.next | intro _ | split

theorem chans_execStoreReadbackDone {o s : State} (h : SameChans o s) {x1} :
    SameChansR o (execStoreReadbackDone x1 s) := by
  unfold execStoreReadbackDone
  repeat' first
    | with_reducible assumption | with_reducible apply chans_injected | with_reducible apply chans_storeFailed
    | with_reducible apply chans_copyStored | with_reducible apply chans_select | with_reducible apply SameChansR.next
    | intro _ | split

theorem chans_loadCommands {o s : State} (h : SameChans o s) {x2} :
    SameChans o (State.loadCommands s x2) := by
  unfold State.loadCommands
  repeat' first
    | with_reducible assumption | with_reducible apply chans_say | with_reducible apply chans_select

theorem chans_beginLoad {o s : State} (h : SameChans o s) {x2} :
    SameChans o (State.beginLoad s x2) := by
  unfold State.beginLoad
  repeat' first
    | with_reducible assumption | with_reducible apply chans_loadCommands | with_reducible apply SameChans.around
    | rw [mk_around] | with_reducible rfl | exact Nat.le_refl _

theorem chans_cutPost {o s : State} (h : SameChans o s) :
    SameChans o (State.cutPost s) := by
  unfold State.cutPost
  repeat' first
    | with_reducible assumption | with_reducible apply chans_finishCalibration | split

theorem chans_dropSounding {o s : State} (h : SameChans o s) {x2 x3 x4 x5} :
    SameChans o (State.dropSounding s x2 x3 x4 x5) := by
  unfold State.dropSounding
  repeat' first
    | with_reducible assumption | with_reducible apply chans_noiseEnds | with_reducible apply chans_soundingEnds
    | with_reducible apply chans_endUnmeasured | split

theorem chans_enteredRecord {o s : State} (h : SameChans o s) {x2 x3} :
    SameChans o (State.enteredRecord s x2 x3) := by
  unfold State.enteredRecord
  repeat' first
    | with_reducible assumption | with_reducible apply chans_record | intro _ | split

theorem chans_dropSoundings {o s : State} (h : SameChans o s) {x1 x2 x3 x4} :
    SameChans o (dropSoundings x1 x2 x3 x4 s) := by
  fun_induction dropSoundings x1 x2 x3 x4 s
  repeat' first
    | with_reducible assumption | with_reducible refine (‹SameChans o _ → SameChans o _›) ?_
    | with_reducible apply chans_dropSounding

theorem chans_warmRun {o s : State} (h : SameChans o s) {x2} :
    SameChans o (State.warmRun s x2) := by
  unfold State.warmRun
  repeat' first
    | with_reducible assumption | with_reducible apply chans_modRings | with_reducible apply SameChans.around
    | rw [mk_around] | with_reducible rfl | exact Nat.le_refl _

theorem chans_execExitSignal {o s : State} (h : SameChans o s) {x1} :
    SameChansR o (execExitSignal x1 s) := by
  unfold execExitSignal
  repeat' first
    | with_reducible assumption | with_reducible apply SameChans.around | rw [mk_around]
    | with_reducible apply SameChansR.next | with_reducible rfl | exact Nat.le_refl _ | intro _ | split

theorem chans_execWarmCountDone {o s : State} (h : SameChans o s) {x1} :
    SameChansR o (execWarmCountDone x1 s) := by
  unfold execWarmCountDone
  repeat' first
    | with_reducible assumption | with_reducible apply chans_warmRun | with_reducible apply chans_beginLoad
    | with_reducible apply SameChansR.next | intro _ | split

theorem chans_breakAll {o s : State} (h : SameChans o s) {x2} :
    SameChans o (State.breakAll s x2) := by
  unfold State.breakAll
  repeat' first
    | with_reducible assumption | with_reducible apply SameChans.around | rw [mk_around] | with_reducible rfl
    | exact Nat.le_refl _

theorem chans_takeSource {o s : State} (h : SameChans o s) {x2} :
    SameChans o (State.takeSource s x2) := by
  unfold State.takeSource
  repeat' first
    | with_reducible assumption | with_reducible apply SameChans.around | rw [mk_around] | with_reducible rfl
    | exact Nat.le_refl _

theorem chans_deselect {o s : State} (h : SameChans o s) :
    SameChans o (State.deselect s) := by
  unfold State.deselect
  repeat' first
    | with_reducible assumption | with_reducible apply chans_select

theorem chans_countSwitch {o s : State} (h : SameChans o s) {x2} :
    SameChans o (State.countSwitch s x2) := by
  unfold State.countSwitch
  repeat' first
    | with_reducible assumption | with_reducible apply SameChans.around | rw [mk_around] | with_reducible rfl
    | exact Nat.le_refl _

theorem chans_reissueStore {o s : State} (h : SameChans o s) :
    SameChans o (State.reissueStore s) := by
  unfold State.reissueStore
  repeat' first
    | with_reducible assumption | with_reducible apply chans_say | with_reducible apply chans_storeCommand | split

theorem chans_endSwitch {o s : State} (h : SameChans o s) :
    SameChans o (State.endSwitch s) := by
  unfold State.endSwitch
  repeat' first
    | with_reducible assumption | with_reducible apply chans_reissueStore | with_reducible apply SameChans.around
    | rw [mk_around] | with_reducible rfl | exact Nat.le_refl _

theorem chans_execHckInterruption {o s : State} (h : SameChans o s) :
    SameChansR o (execHckInterruption s) := by
  unfold execHckInterruption
  repeat' first
    | with_reducible assumption | with_reducible apply chans_modLink | with_reducible apply chans_breakAll
    | with_reducible apply SameChans.around | rw [mk_around] | with_reducible apply SameChansR.next
    | with_reducible rfl | exact Nat.le_refl _ | split

theorem chans_execSourceSwitchDone {o s : State} (h : SameChans o s) :
    SameChansR o (execSourceSwitchDone s) := by
  unfold execSourceSwitchDone
  repeat' first
    | with_reducible assumption | with_reducible apply chans_endSwitch | with_reducible apply SameChansR.next
    | intro _ | split

theorem chans_loadCommand {o s} (h : SameChans o s) {x2 x3} :
    SameChans o (State.loadCommand s x2 x3) := by
  unfold State.loadCommand
  try dsimp only
  repeat' first
    | with_reducible assumption | with_reducible apply chans_loadCommands | with_reducible apply chans_select
    | with_reducible apply chans_say | intro _ | split

theorem chans_coefficientRead {o s} (h : SameChans o s) {x2} :
    SameChans o (State.coefficientRead s x2) := by
  unfold State.coefficientRead
  try dsimp only
  repeat' first
    | with_reducible assumption | with_reducible apply chans_say | intro _ | split

theorem chans_execStartupSwitchCountDone {o s} (h : SameChans o s) {x1 x2} :
    SameChansR o (execStartupSwitchCountDone x1 x2 s) := by
  unfold execStartupSwitchCountDone
  try dsimp only
  repeat' first
    | with_reducible assumption | with_reducible apply chans_loadCommand | with_reducible apply chans_coefficientRead
    | with_reducible apply SameChansR.next | with_reducible apply SameChans.around | rw [mk_around]
    | with_reducible rfl | exact Nat.le_refl _ | intro _ | split

theorem chans_settleEach {o s : State} (h : SameChans o s) {x1} : SameChans o (settleEach x1 s) := by
  fun_induction settleEach x1 s
  repeat' first
    | with_reducible assumption | with_reducible refine (‹SameChans o _ → SameChans o _›) ?_
    | with_reducible apply chans_settleTask

theorem chans_settleSoundings {o s : State} (h : SameChans o s) : SameChans o s.settleSoundings :=
  chans_settleEach h

end Sys2Proof.Machine
end

