-- ==== Sys2Proof/Laws/SameChansTarget.lean ====
section
/-! SUPPORT. The operations of the target side, windows and host-read completions that leave the channels. -/

namespace Sys2Proof.Machine

theorem chans_addReq {o s : State} (h : SameChans o s) {x2 x3 x4} :
    SameChans o (State.addReq s x2 x3 x4) := by
  unfold State.addReq
  repeat' first
    | with_reducible assumption | with_reducible apply chans_modTransport

theorem chans_fenceDrains {o s : State} (h : SameChans o s) {x1} :
    SameChans o (fenceDrains x1 s) := by
  fun_induction fenceDrains x1 s
  repeat' first
    | with_reducible assumption | with_reducible refine (‹SameChans o _ → SameChans o _›) ?_
    | with_reducible apply chans_fence | with_reducible apply chans_modTransport

theorem chans_modReq {o s : State} (h : SameChans o s) {x2 x3} :
    SameChans o (State.modReq s x2 x3) := by
  unfold State.modReq
  repeat' first
    | with_reducible assumption | with_reducible apply chans_modTransport

theorem chans_fenceFlushes {o s : State} (h : SameChans o s) {x1} :
    SameChans o (fenceFlushes x1 s) := by
  fun_induction fenceFlushes x1 s
  repeat' first
    | with_reducible assumption | with_reducible refine (‹SameChans o _ → SameChans o _›) ?_
    | with_reducible apply chans_fence | with_reducible apply chans_modReq

theorem chans_afterReq {o s : State} (h : SameChans o s) :
    SameChans o (State.afterReq s) := by
  unfold State.afterReq
  repeat' first
    | with_reducible assumption | with_reducible apply chans_fenceDrains | with_reducible apply chans_fenceFlushes

theorem chans_endUse {o s : State} (h : SameChans o s) {x2} :
    SameChans o (State.endUse s x2) := by
  unfold State.endUse
  repeat' first
    | with_reducible assumption | with_reducible apply chans_afterReq | with_reducible apply chans_modTransport

theorem chans_endReq {o s : State} (h : SameChans o s) {x2} :
    SameChans o (State.endReq s x2) := by
  unfold State.endReq
  repeat' first
    | with_reducible assumption | with_reducible apply chans_endUse | with_reducible apply chans_modTransport

theorem chans_hold {o s : State} (h : SameChans o s) {x2 x3 x4} :
    SameChans o (State.hold s x2 x3 x4) := by
  unfold State.hold
  repeat' first
    | with_reducible assumption | with_reducible apply chans_endUse | with_reducible apply chans_modReq

theorem chans_stales {o s : State} (h : SameChans o s) {x2} :
    SameChans o (State.stales s x2) := by
  unfold State.stales
  repeat' first
    | with_reducible assumption | with_reducible apply chans_modTransport

theorem chans_setDedup {o s : State} (h : SameChans o s) {x2 x3} :
    SameChans o (State.setDedup s x2 x3) := by
  unfold State.setDedup
  repeat' first
    | with_reducible assumption | with_reducible apply chans_modTransport

theorem chans_atomicRead {o s : State} (h : SameChans o s) {x2 x3} :
    SameChans o (State.atomicRead s x2 x3) := by
  unfold State.atomicRead
  repeat' first
    | with_reducible assumption | with_reducible apply chans_hostWrite | with_reducible apply chans_fence
    | with_reducible apply chans_modReq | split

theorem chans_dropDedup {o s : State} (h : SameChans o s) {x2} :
    SameChans o (State.dropDedup s x2) := by
  unfold State.dropDedup
  try dsimp only
  repeat' first
    | with_reducible assumption | with_reducible apply chans_setDedup | intro _ | split

theorem chans_modCache {o s : State} (h : SameChans o s) {x2} :
    SameChans o (State.modCache s x2) := by
  unfold State.modCache
  repeat' first
    | with_reducible assumption | with_reducible apply chans_modTransport

theorem chans_install {o s : State} (h : SameChans o s) {x2} :
    SameChans o (State.install s x2) := by
  unfold State.install
  try dsimp only
  repeat' first
    | with_reducible assumption | with_reducible apply chans_modCache | split

theorem chans_invalidate {o s : State} (h : SameChans o s) {x2 x3 x4} :
    SameChans o (State.invalidate s x2 x3 x4) := by
  unfold State.invalidate
  repeat' first
    | with_reducible assumption | with_reducible apply chans_modCache

theorem chans_reportPage {o s : State} (h : SameChans o s) {x2 x3 x4 x5} :
    SameChans o (State.reportPage s x2 x3 x4 x5) := by
  unfold State.reportPage
  try dsimp only
  repeat' first
    | with_reducible assumption | with_reducible apply chans_occur | with_reducible apply chans_modTransport | intro _
    | split

theorem chans_sweepCache {o s : State} (h : SameChans o s) {x2} :
    SameChans o (State.sweepCache s x2) := by
  unfold State.sweepCache
  repeat' first
    | with_reducible assumption | with_reducible apply chans_modTransport

theorem chans_touch {o s : State} (h : SameChans o s) {x2 x3} :
    SameChans o (State.touch s x2 x3) := by
  unfold State.touch
  repeat' first
    | with_reducible assumption | with_reducible apply chans_modCache

theorem chans_execDedupEntryExpired {o s : State} (h : SameChans o s) {x1 x2} :
    SameChansR o (execDedupEntryExpired x1 x2 s) := by
  unfold execDedupEntryExpired
  try dsimp only
  repeat' first
    | with_reducible assumption | with_reducible apply chans_modTransport | with_reducible apply SameChansR.next
    | intro _ | split

theorem chans_execTranslationAgedOut {o s : State} (h : SameChans o s) {x1} :
    SameChansR o (execTranslationAgedOut x1 s) := by
  unfold execTranslationAgedOut
  repeat' first
    | with_reducible assumption | with_reducible apply chans_modCache | with_reducible apply SameChansR.next | intro _
    | split

theorem chans_claim {o s : State} (h : SameChans o s) {x2 x3 x4 x5} :
    SameChans o (State.claim s x2 x3 x4 x5) := by
  unfold State.claim
  repeat' first
    | with_reducible assumption | with_reducible apply chans_modQueue

theorem chans_unclaim {o s : State} (h : SameChans o s) {x2 x3 x4} :
    SameChans o (State.unclaim s x2 x3 x4) := by
  unfold State.unclaim
  repeat' first
    | with_reducible assumption | with_reducible apply chans_modQueue

theorem chans_closeItem {o s : State} (h : SameChans o s) {x2 x3 x4 x5} :
    SameChans o (State.closeItem s x2 x3 x4 x5) := by
  unfold State.closeItem
  repeat' first
    | with_reducible assumption | with_reducible apply chans_complete | with_reducible apply chans_unclaim | split

theorem chans_dropMessage {o s : State} (h : SameChans o s) {x2} :
    SameChans o (State.dropMessage s x2) := by
  unfold State.dropMessage
  repeat' first
    | with_reducible assumption | with_reducible apply chans_modTransport

theorem chans_modMessage {o s : State} (h : SameChans o s) {x2 x3} :
    SameChans o (State.modMessage s x2 x3) := by
  unfold State.modMessage
  repeat' first
    | with_reducible assumption | with_reducible apply chans_modTransport

theorem chans_drainEvent {o s : State} (h : SameChans o s) {x2 x3} :
    SameChans o (State.drainEvent s x2 x3) := by
  unfold State.drainEvent
  repeat' first
    | with_reducible assumption | with_reducible apply chans_streamRecord

theorem chans_withOffer {o s : State} (h : SameChans o s) {x2 x3} :
    SameChans o (State.withOffer s x2 x3) := by
  unfold State.withOffer
  repeat' first
    | with_reducible assumption | with_reducible apply chans_takeBuffer | with_reducible apply chans_startItem | split

theorem chans_drainRoom {o s : State} (h : SameChans o s) {x2 x3} :
    SameChans o (State.drainRoom s x2 x3).2 := by
  unfold State.drainRoom
  try dsimp only
  repeat' first
    | with_reducible assumption | with_reducible apply chans_claim | with_reducible apply chans_closeItem | split

theorem chans_drain {o s : State} (h : SameChans o s) {x2} :
    SameChans o (State.drain s x2) := by
  unfold State.drain
  repeat' first
    | with_reducible assumption | with_reducible apply chans_afterReq | with_reducible apply chans_modTransport

theorem chans_drainFenced {o s : State} (h : SameChans o s) {x2 x3 x4} :
    SameChans o (State.drainFenced s x2 x3 x4) := by
  unfold State.drainFenced
  repeat' first
    | with_reducible assumption | with_reducible apply chans_modTransport

theorem chans_drained {o s : State} (h : SameChans o s) {x2 x3 x4} :
    SameChans o (State.drained s x2 x3 x4) := by
  unfold State.drained
  repeat' first
    | with_reducible assumption | with_reducible apply chans_result | with_reducible apply chans_modTransport | split

theorem chans_windowRefused {o s : State} (h : SameChans o s) {x2 x3 x4 x5} :
    SameChans o (State.windowRefused s x2 x3 x4 x5) := by
  unfold State.windowRefused
  repeat' first
    | with_reducible assumption | with_reducible apply chans_result

theorem chans_writeWindow {o s : State} (h : SameChans o s) {x2 x3 x4 x5} :
    SameChans o (State.writeWindow s x2 x3 x4 x5) := by
  unfold State.writeWindow
  repeat' first
    | with_reducible assumption | with_reducible apply chans_hostWrite | split

theorem chans_openRead {o s : State} (h : SameChans o s) {x2 x3 x4 x5 x6} :
    SameChans o (State.openRead s x2 x3 x4 x5 x6) := by
  unfold State.openRead
  try dsimp only
  repeat' first
    | with_reducible assumption | with_reducible apply chans_windowRefused | with_reducible apply chans_complete
    | with_reducible apply chans_result | with_reducible apply chans_writeWindow | intro _ | split

theorem chans_windowItem {o s : State} (h : SameChans o s) {x2 x3 x4 x5 x6} :
    SameChans o (State.windowItem s x2 x3 x4 x5 x6) := by
  unfold State.windowItem
  repeat' first
    | with_reducible assumption | with_reducible apply chans_windowRefused | with_reducible apply chans_hostRead
    | intro _ | split

theorem chans_execPageReady {o s : State} (h : SameChans o s) {x1 x2} :
    SameChansR o (execPageReady x1 x2 s) := by
  unfold execPageReady
  repeat' first
    | with_reducible assumption | with_reducible apply chans_onItem | with_reducible apply chans_windowItem
    | with_reducible apply chans_startItem | with_reducible apply SameChansO.ite
    | with_reducible apply SameChansO.some | with_reducible exact SameChansO.none
    | with_reducible apply SameChansR.next | intro _ | split

theorem chans_execPageReadyDrained {o s : State} (h : SameChans o s) {x1 x2} :
    SameChansR o (execPageReadyDrained x1 x2 s) := by
  unfold execPageReadyDrained
  repeat' first
    | with_reducible assumption | with_reducible apply chans_drained | with_reducible apply SameChansR.next

theorem chans_execRevokeDrained {o s : State} (h : SameChans o s) {x1 x2} :
    SameChansR o (execRevokeDrained x1 x2 s) := by
  unfold execRevokeDrained
  repeat' first
    | with_reducible assumption | with_reducible apply chans_drained | with_reducible apply SameChansR.next

theorem chans_execWindowOpen {o s : State} (h : SameChans o s) {x1 x2} :
    SameChansR o (execWindowOpen x1 x2 s) := by
  unfold execWindowOpen
  repeat' first
    | with_reducible assumption | with_reducible apply chans_onItem | with_reducible apply chans_windowItem
    | with_reducible apply chans_startItem | with_reducible apply SameChansO.ite
    | with_reducible apply SameChansO.some | with_reducible exact SameChansO.none
    | with_reducible apply SameChansR.next | intro _ | split

theorem chans_execWindowRevoke {o s : State} (h : SameChans o s) {x1 x2} :
    SameChansR o (execWindowRevoke x1 x2 s) := by
  unfold execWindowRevoke
  repeat' first
    | with_reducible assumption | with_reducible apply chans_onItem | with_reducible apply chans_windowItem
    | with_reducible apply chans_startItem | with_reducible apply chans_result | with_reducible apply SameChansO.ite
    | with_reducible apply SameChansO.some | with_reducible exact SameChansO.none
    | with_reducible apply SameChansR.next | intro _ | split

theorem chans_anchorFailed {o s : State} (h : SameChans o s) {x2 x3} :
    SameChans o (State.anchorFailed s x2 x3) := by
  unfold State.anchorFailed
  repeat' first
    | with_reducible assumption | with_reducible apply chans_modRings | with_reducible apply chans_sendReply

end Sys2Proof.Machine
end

