-- ==== Sys2Proof/Laws/SameChansStart.lean ====
section
/-! SUPPORT. The operations of the schedule and start-up that leave the channels. -/

namespace Sys2Proof.Machine

theorem chans_beginCalCount {o s : State} (h : SameChans o s) :
    SameChans o (State.beginCalCount s) := by
  unfold State.beginCalCount
  repeat' first
    | with_reducible assumption | with_reducible apply chans_modCalib | intro _ | split

theorem chans_modTelem {o s : State} (h : SameChans o s) {x2} :
    SameChans o (State.modTelem s x2) := by
  unfold State.modTelem
  repeat' first
    | with_reducible assumption | with_reducible apply SameChans.around | rw [mk_around] | with_reducible rfl
    | exact Nat.le_refl _

theorem chans_modSched {o s} (h : SameChans o s) {x2} :
    SameChans o (State.modSched s x2) := by
  unfold State.modSched
  try dsimp only
  repeat' first
    | with_reducible assumption | with_reducible apply SameChans.around | rw [mk_around] | intro _ | split

theorem chans_countOverrun {o s} (h : SameChans o s) {x2} :
    SameChans o (State.countOverrun s x2) := by
  unfold State.countOverrun
  try dsimp only
  repeat' first
    | with_reducible assumption | with_reducible apply chans_modTelem | with_reducible apply chans_occur
    | with_reducible apply chans_modSched | with_reducible apply SameChans.around | rw [mk_around] | intro _ | split

theorem chans_injectedScrub {o s : State} (h : SameChans o s) :
    SameChans o (State.injectedScrub s) := by
  unfold State.injectedScrub
  repeat' first
    | with_reducible assumption | with_reducible apply chans_injected | with_reducible apply chans_occur
    | with_reducible apply chans_useFresh | with_reducible apply chans_modTelem | intro _ | split

theorem chans_readSensors {o s : State} (h : SameChans o s) {x2 x3} :
    SameChans o (State.readSensors s x2 x3) := by
  unfold State.readSensors
  try dsimp only
  repeat' first
    | with_reducible assumption | with_reducible apply chans_occur | with_reducible apply chans_newTemp
    | with_reducible apply chans_modTelem | intro _ | split

theorem chans_takeSlack {o s} (h : SameChans o s) {x2} :
    SameChans o (State.takeSlack s x2) := by
  unfold State.takeSlack
  try dsimp only
  repeat' first
    | with_reducible assumption | with_reducible apply chans_modTelem | with_reducible apply chans_countOverrun
    | intro _ | split

theorem chans_telemetry {o s : State} (h : SameChans o s) {x2} :
    SameChans o (State.telemetry s x2) := by
  unfold State.telemetry
  repeat' first
    | with_reducible assumption | with_reducible apply chans_modRings | with_reducible apply chans_record
    | with_reducible apply chans_useFresh | with_reducible apply chans_setTelem | intro _ | split

theorem chans_execSensorReading {o s : State} (h : SameChans o s) {x1 x2} :
    SameChansR o (execSensorReading x1 x2 s) := by
  unfold execSensorReading
  repeat' first
    | with_reducible assumption | with_reducible apply chans_readSensors | with_reducible apply SameChansR.next
    | intro _ | split

theorem chans_execTelemetryBoundary {o s : State} (h : SameChans o s) :
    SameChansR o (execTelemetryBoundary s) := by
  unfold execTelemetryBoundary
  try dsimp only
  repeat' first
    | with_reducible assumption | with_reducible apply chans_telemetry | with_reducible apply SameChansR.next
    | intro _ | split

theorem chans_copyResult {o s : State} (h : SameChans o s) {x2 x3} :
    SameChans o (State.copyResult s x2 x3) := by
  unfold State.copyResult
  repeat' first
    | with_reducible assumption | with_reducible apply SameChans.around | rw [mk_around] | with_reducible rfl
    | exact Nat.le_refl _ | split

theorem chans_acceptImage {o s : State} (h : SameChans o s) {x2} :
    SameChans o (State.acceptImage s x2) := by
  unfold State.acceptImage
  repeat' first
    | with_reducible assumption | with_reducible apply chans_copyResult | with_reducible apply SameChans.around
    | rw [mk_around] | with_reducible rfl | exact Nat.le_refl _

theorem chans_applyTrims {o s : State} (h : SameChans o s) :
    SameChans o (State.applyTrims s) := by
  unfold State.applyTrims
  repeat' first
    | with_reducible assumption | with_reducible apply SameChans.around | rw [mk_around] | with_reducible rfl
    | exact Nat.le_refl _ | intro _ | split

theorem chans_readSets {o s : State} (h : SameChans o s) {x1 x2} :
    SameChans o (readSets x1 x2 s) := by
  fun_induction readSets x1 x2 s
  repeat' first
    | with_reducible assumption | with_reducible refine (‹SameChans o _ → SameChans o _›) ?_
    | with_reducible apply chans_say

theorem chans_coefficientCommands {o s : State} (h : SameChans o s) {x2 x3} :
    SameChans o (State.coefficientCommands s x2 x3) := by
  unfold State.coefficientCommands
  try dsimp only
  repeat' first
    | with_reducible assumption | with_reducible apply chans_say | with_reducible apply chans_readSets | intro _
    | split

theorem chans_refuseStart {o s : State} (h : SameChans o s) {x2} :
    SameChans o (State.refuseStart s x2) := by
  unfold State.refuseStart
  repeat' first
    | with_reducible assumption | with_reducible apply SameChans.around | rw [mk_around] | with_reducible rfl
    | exact Nat.le_refl _

theorem chans_copyFailed {o s : State} (h : SameChans o s) {x2 x3} :
    SameChans o (State.copyFailed s x2 x3) := by
  unfold State.copyFailed
  repeat' first
    | with_reducible assumption | with_reducible apply chans_copyResult | with_reducible apply chans_beginLoad
    | with_reducible apply chans_refuseStart | with_reducible apply SameChans.around | rw [mk_around]
    | with_reducible rfl | exact Nat.le_refl _ | split

theorem chans_leaveReset {o s : State} (h : SameChans o s) :
    SameChans o (State.leaveReset s) := by
  unfold State.leaveReset
  repeat' first
    | with_reducible assumption | with_reducible apply chans_takeSource | with_reducible apply SameChans.around
    | rw [mk_around] | with_reducible rfl | exact Nat.le_refl _

theorem chans_loadCoefficients {o s : State} (h : SameChans o s) {x2 x3 x4} :
    SameChans o (State.loadCoefficients s x2 x3 x4) := by
  unfold State.loadCoefficients
  repeat' first
    | with_reducible assumption | with_reducible apply chans_newTemp | with_reducible apply chans_applyTrims
    | with_reducible apply SameChans.around | rw [mk_around] | with_reducible rfl | exact Nat.le_refl _

theorem chans_readResistors {o s : State} (h : SameChans o s) {x2} :
    SameChans o (State.readResistors s x2) := by
  unfold State.readResistors
  repeat' first
    | with_reducible assumption | with_reducible apply SameChans.around | rw [mk_around] | with_reducible rfl
    | exact Nat.le_refl _

theorem chans_sampleStraps {o s : State} (h : SameChans o s) {x2 x3} :
    SameChans o (State.sampleStraps s x2 x3) := by
  unfold State.sampleStraps
  repeat' first
    | with_reducible assumption | with_reducible apply chans_refuseStart | with_reducible apply SameChans.around
    | rw [mk_around] | with_reducible rfl | exact Nat.le_refl _ | intro _ | split

theorem chans_setReset {o s : State} (h : SameChans o s) {x2 x3} :
    SameChans o (State.setReset s x2 x3) := by
  unfold State.setReset
  repeat' first
    | with_reducible assumption | with_reducible apply SameChans.around | rw [mk_around] | with_reducible rfl
    | exact Nat.le_refl _ | split

theorem chans_execCoefficientsLoaded {o s : State} (h : SameChans o s) {x1 x2 x3 x4} :
    SameChansR o (execCoefficientsLoaded x1 x2 x3 x4 s) := by
  unfold execCoefficientsLoaded
  repeat' first
    | with_reducible assumption | with_reducible apply chans_loadCoefficients
    | with_reducible apply chans_coefficientCommands | with_reducible apply SameChans.around | rw [mk_around]
    | with_reducible apply SameChansR.next | with_reducible rfl | exact Nat.le_refl _ | intro _ | split

theorem chans_execImageChecked {o s : State} (h : SameChans o s) :
    SameChansR o (execImageChecked s) := by
  unfold execImageChecked
  try dsimp only
  repeat' first
    | with_reducible assumption | with_reducible apply chans_copyFailed | with_reducible apply chans_acceptImage
    | with_reducible apply SameChansR.next | intro _ | split

theorem chans_loadReads {o s} (h : SameChans o s) {x2 x3 x4} :
    SameChans o (State.loadReads s x2 x3 x4) := by
  unfold State.loadReads
  try dsimp only
  repeat' first
    | with_reducible assumption | with_reducible apply chans_say | intro _ | split

theorem chans_execImageLoaded {o s : State} (h : SameChans o s) {x1 x2} :
    SameChansR o (execImageLoaded x1 x2 s) := by
  unfold execImageLoaded
  try dsimp only
  repeat' first
    | with_reducible assumption | with_reducible apply chans_loadReads | with_reducible apply chans_select
    | with_reducible apply chans_copyFailed | with_reducible apply SameChansR.next
    | with_reducible apply SameChans.around | rw [mk_around] | with_reducible rfl | exact Nat.le_refl _ | intro _
    | split

theorem chans_execResetRelease {o s : State} (h : SameChans o s) {x1} :
    SameChansR o (execResetRelease x1 s) := by
  unfold execResetRelease
  try dsimp only
  repeat' first
    | with_reducible assumption | with_reducible apply chans_setReset | with_reducible apply chans_leaveReset
    | with_reducible apply SameChansR.next | intro _ | split

theorem chans_execStabilityCountDone {o s : State} (h : SameChans o s) {x1 x2} :
    SameChansR o (execStabilityCountDone x1 x2 s) := by
  unfold execStabilityCountDone
  repeat' first
    | with_reducible assumption | with_reducible apply chans_sampleStraps | with_reducible apply SameChansR.next
    | intro _ | split

theorem chans_execStrapResistorStepEnd {o s : State} (h : SameChans o s) {x1} :
    SameChansR o (execStrapResistorStepEnd x1 s) := by
  unfold execStrapResistorStepEnd
  repeat' first
    | with_reducible assumption | with_reducible apply chans_readResistors | with_reducible apply chans_beginLoad
    | with_reducible apply SameChansR.next | intro _ | split

theorem chans_scan {o s : State} (h : SameChans o s) {x2 x3 x4} :
    SameChans o (State.scan s x2 x3 x4) := by
  unfold State.scan
  repeat' first
    | with_reducible assumption | with_reducible apply SameChans.around | rw [mk_around] | with_reducible rfl
    | exact Nat.le_refl _

theorem chans_shiftBoundary {o s : State} (h : SameChans o s) {x2 x3 x4} :
    SameChans o (State.shiftBoundary s x2 x3 x4) := by
  unfold State.shiftBoundary
  repeat' first
    | with_reducible assumption | with_reducible apply chans_scan | with_reducible apply SameChans.around
    | rw [mk_around] | with_reducible rfl | exact Nat.le_refl _

theorem chans_execBypass {o s : State} (h : SameChans o s) {x1} :
    SameChansR o (execBypass x1 s) := by
  unfold execBypass
  repeat' first
    | with_reducible assumption | with_reducible apply chans_scan | with_reducible apply SameChansR.next | intro _
    | split

theorem chans_execDieId {o s : State} (h : SameChans o s) :
    SameChansR o (execDieId s) := by
  unfold execDieId
  repeat' first
    | with_reducible assumption | with_reducible apply chans_scan | with_reducible apply SameChansR.next

theorem chans_execFactoryRef {o s : State} (h : SameChans o s) :
    SameChansR o (execFactoryRef s) := by
  unfold execFactoryRef
  repeat' first
    | with_reducible assumption | with_reducible apply chans_scan | with_reducible apply SameChansR.next

theorem chans_execIdcode {o s : State} (h : SameChans o s) :
    SameChansR o (execIdcode s) := by
  unfold execIdcode
  repeat' first
    | with_reducible assumption | with_reducible apply chans_scan | with_reducible apply SameChansR.next

theorem chans_edgesSeen {o s} (h : SameChans o s) {x2} :
    SameChans o (State.edgesSeen s x2) := by
  unfold State.edgesSeen
  try dsimp only
  repeat' first
    | with_reducible assumption | with_reducible apply chans_modLink | with_reducible apply SameChans.around
    | rw [mk_around] | intro _ | split

theorem chans_execKeyProgram {o s : State} (h : SameChans o s) {x1 x2} :
    SameChansR o (execKeyProgram x1 x2 s) := by
  unfold execKeyProgram
  try dsimp only
  repeat' first
    | with_reducible assumption | with_reducible apply chans_scan | with_reducible apply chans_edgesSeen
    | with_reducible apply chans_useFresh | with_reducible apply SameChansR.next
    | with_reducible apply SameChans.around | rw [mk_around] | with_reducible rfl | exact Nat.le_refl _ | intro _
    | split

theorem chans_execKeyRead {o s : State} (h : SameChans o s) :
    SameChansR o (execKeyRead s) := by
  unfold execKeyRead
  repeat' first
    | with_reducible assumption | with_reducible apply chans_scan | with_reducible apply SameChansR.next

theorem chans_execSamplePreload {o s : State} (h : SameChans o s) {x1 x2} :
    SameChansR o (execSamplePreload x1 x2 s) := by
  unfold execSamplePreload
  repeat' first
    | with_reducible assumption | with_reducible apply chans_shiftBoundary | with_reducible apply SameChansR.next

theorem chans_execStartStatus {o s : State} (h : SameChans o s) :
    SameChansR o (execStartStatus s) := by
  unfold execStartStatus
  repeat' first
    | with_reducible assumption | with_reducible apply chans_scan | with_reducible apply SameChansR.next

theorem chans_execTapReset {o s} (h : SameChans o s) {x1} :
    SameChansR o (execTapReset x1 s) := by
  unfold execTapReset
  try dsimp only
  repeat' first
    | with_reducible assumption | with_reducible apply chans_scan | with_reducible apply SameChansR.next
    | with_reducible apply SameChans.around | rw [mk_around] | intro _ | split

end Sys2Proof.Machine
end

