-- ==== Sys2Proof/Laws/SameLinks.lean ====
section
/-! SUPPORT. The operations that leave every line channel as it was. -/

namespace Sys2Proof.Machine

/-- No channel has changed its link state. -/
structure SameLinks (o t : State) : Prop where
  link : ∀ c, (t.chan c).link = (o.chan c).link

def SameLinksO (o : State) : Option State → Prop
  | none => True
  | some t => SameLinks o t

def SameLinksR (o : State) : Host.Outcome State Fault Refusal → Prop
  | .next t => SameLinks o t
  | _ => True

theorem SameLinks.refl (s : State) : SameLinks s s := ⟨fun _ => rfl⟩
theorem SameLinksO.none {o : State} : SameLinksO o none := trivial
theorem SameLinksO.some {o t : State} (h : SameLinks o t) : SameLinksO o (some t) := h
theorem SameLinksR.next {o t : State} (h : SameLinks o t) : SameLinksR o (.next t) := h

theorem SameLinks.trans {o s t : State} (h : SameLinks o s) (k : SameLinks s t) : SameLinks o t :=
  ⟨fun c => (k.link c).trans (h.link c)⟩

theorem SameLinks.chans {o s t : State} (h : SameLinks o s) (k : SameChans s t) : SameLinks o t :=
  ⟨fun c => (congrArg Chan.link (k.chan c)).trans (h.link c)⟩

theorem SameLinksO.getD {o t : State} {x : Option State} (h : SameLinksO o x) (k : SameLinks o t) :
    SameLinks o (x.getD t) := by
  cases x <;> assumption

theorem SameLinksO.elim {o t : State} {x : Option α} {f : α → State} (h : ∀ a, SameLinks o (f a))
    (k : SameLinks o t) : SameLinks o (x.elim t f) := by
  cases x
  · exact k
  · exact h _

theorem SameLinks.foldl {o : State} {f : State → α → State} (l : List α) {s : State} (h : SameLinks o s)
    (k : ∀ t a, SameLinks o t → SameLinks o (f t a)) : SameLinks o (l.foldl f s) := by
  induction l generalizing s with
  | nil => exact h
  | cons a l ih => exact ih (k _ _ h)

theorem SameLinks.ite {o a b : State} {c : Prop} [Decidable c] (h : c → SameLinks o a) (k : ¬c → SameLinks o b) :
    SameLinks o (if c then a else b) := by
  split
  · exact h ‹_›
  · exact k ‹_›

theorem SameLinksO.ite {o : State} {a b : Option State} {c : Prop} [Decidable c] (h : c → SameLinksO o a)
    (k : ¬c → SameLinksO o b) : SameLinksO o (if c then a else b) := by
  split
  · exact h ‹_›
  · exact k ‹_›

theorem SameLinksR.ite {o : State} {a b : Host.Outcome State Fault Refusal} {c : Prop} [Decidable c]
    (h : c → SameLinksR o a) (k : ¬c → SameLinksR o b) : SameLinksR o (if c then a else b) := by
  split
  · exact h ‹_›
  · exact k ‹_›

theorem SameLinks.around {o s : State} (h : SameLinks o s) {pending : List Instr} {pins : Pins} {start : Start} {image : Image} {clock :
    Clock} {linkA linkB : HostLink} {ringsA ringsB : PortRings} {queues : Tab Queue} {transport : Transport} {faults
    : Faults} {tasks : List Task} {calib : Calib} {telemA telemB : Telemetry} {sched : Sched} {entry : Option Entry} {exitHeld :
    Bool} {tap : Tap} {fresh : Nat} {out : List Out} :
    SameLinks o (s.around pending pins start image clock linkA linkB ringsA ringsB queues transport faults tasks calib telemA
      telemB sched entry exitHeld tap fresh out) := ⟨h.link⟩

theorem links_setChan {o s : State} (h : SameLinks o s) {c : ChanId} {x : Chan} (k : x.link = (s.chan c).link) :
    SameLinks o (s.setChan c x) := by
  constructor
  intro d
  by_cases e : d = c
  · subst e
    rw [show (s.setChan d x).chan d = x from tab_get_set _ _ _ _, k]
    exact h.link d
  · rw [show (s.setChan c x).chan d = s.chan d from tab_get_set_ne _ _ _ _ _ (fun y => e (Fin.ext y))]
    exact h.link d

theorem links_modChan {o s : State} (h : SameLinks o s) {c : ChanId} {f : Chan → Chan} (k : ∀ x, (f x).link = x.link) :
    SameLinks o (s.modChan c f) :=
  links_setChan h (k _)

end Sys2Proof.Machine
end

