-- ==== Sys2Proof/Laws/SameLinksOps.lean ====
section
/-! SUPPORT. The operations of the ports, rings, records, queues and link states that leave every link state. -/

namespace Sys2Proof.Machine

theorem links_onFrame {o s : State} (h : SameLinks o s) {x2 x3 x4 x5} (k : ∀ t, SameLinks o t → SameLinks o (x5 t)) :
    SameLinks o (State.onFrame s x2 x3 x4 x5) := by
  unfold State.onFrame
  try dsimp only
  repeat' first
    | with_reducible assumption | with_reducible apply k
    | with_reducible refine SameLinks.chans ?_ (chans_injected (SameChans.refl _))
    | with_reducible refine SameLinks.chans ?_ (chans_badFrame (SameChans.refl _))
    | with_reducible refine SameLinks.chans ?_ (chans_acceptFrame (SameChans.refl _)) | intro _ | split

theorem links_takeFrame {o s : State} (h : SameLinks o s) {x2 x3 x4} (k : ∀ t, SameLinks o t → SameLinks o (x4 t)) :
    SameLinks o (State.takeFrame s x2 x3 x4) := by
  unfold State.takeFrame
  repeat' first
    | with_reducible assumption | with_reducible apply k
    | with_reducible refine SameLinks.chans ?_ (chans_modLink (SameChans.refl _))
    | with_reducible refine SameLinks.chans ?_ (chans_returnCredit (SameChans.refl _)) | intro _ | split

theorem links_writeQuality {o s : State} (h : SameLinks o s) {x2 x3} :
    SameLinks o (State.writeQuality s x2 x3) := by
  unfold State.writeQuality
  repeat' first
    | with_reducible assumption | with_reducible apply links_modChan
    | with_reducible refine SameLinks.chans ?_ (chans_record (SameChans.refl _))
    | with_reducible apply SameLinks.around | rw [mk_around] | with_reducible rfl | exact Nat.le_refl _ | intro _
    | split

theorem links_measure {o s} (h : SameLinks o s) {x2 x3} :
    SameLinks o (State.measure s x2 x3) := by
  unfold State.measure
  exact links_modChan h fun _ => rfl

theorem links_closeQuality {o s : State} (h : SameLinks o s) {x2} :
    SameLinks o (State.closeQuality s x2) := by
  unfold State.closeQuality
  dsimp only
  have k : SameLinks o (s.measure x2 s.closing).useFresh :=
    (links_measure h).chans (chans_useFresh (SameChans.refl _))
  split
  · exact h
  · split
    · exact h
    · exact links_writeQuality k

theorem links_writeWake {o s : State} (h : SameLinks o s) {x2 x3 x4 x5 x6 x7} :
    SameLinks o (State.writeWake s x2 x3 x4 x5 x6 x7) := by
  unfold State.writeWake
  repeat' first
    | with_reducible assumption | with_reducible apply links_modChan
    | with_reducible refine SameLinks.chans ?_ (chans_record (SameChans.refl _))
    | with_reducible apply SameLinks.around | rw [mk_around] | with_reducible rfl | exact Nat.le_refl _ | intro _

theorem links_execQualityPeriodBoundary {o s : State} (h : SameLinks o s) {x1 x2} :
    SameLinksR o (execQualityPeriodBoundary x1 x2 s) := by
  unfold execQualityPeriodBoundary
  try dsimp only
  repeat' first
    | with_reducible assumption | with_reducible apply links_measure | with_reducible apply links_writeQuality
    | with_reducible apply SameLinksR.next | with_reducible apply SameLinks.around | rw [mk_around]
    | with_reducible rfl | exact Nat.le_refl _ | intro _ | split

theorem links_modRetry {o s : State} (h : SameLinks o s) {x2 x3} :
    SameLinks o (State.modRetry s x2 x3) := by
  unfold State.modRetry
  repeat' first
    | with_reducible assumption | with_reducible apply links_modChan | with_reducible apply SameLinks.around
    | rw [mk_around] | with_reducible rfl | exact Nat.le_refl _ | intro _

theorem links_removeOp {o s : State} (h : SameLinks o s) {x2} :
    SameLinks o (State.removeOp s x2) := by
  unfold State.removeOp
  repeat' first
    | with_reducible assumption | with_reducible apply links_modRetry
    | with_reducible refine SameLinks.chans ?_ (chans_modTransport (SameChans.refl _))

theorem links_endOp {o s : State} (h : SameLinks o s) {x2 x3 x4} :
    SameLinks o (State.endOp s x2 x3 x4) := by
  unfold State.endOp
  repeat' first
    | with_reducible assumption | with_reducible apply links_removeOp
    | with_reducible refine SameLinks.chans ?_ (chans_complete (SameChans.refl _))

theorem links_endOps {o s : State} (h : SameLinks o s) {x1} :
    SameLinks o (endOps x1 s) := by
  fun_induction endOps x1 s
  repeat' first
    | with_reducible assumption | with_reducible refine (‹SameLinks o _ → SameLinks o _›) ?_
    | with_reducible apply links_endOp

theorem links_endChanOps {o s : State} (h : SameLinks o s) {x2} :
    SameLinks o (State.endChanOps s x2) := by
  unfold State.endChanOps
  repeat' first
    | with_reducible assumption | with_reducible apply links_endOps

theorem links_failChunk {o s : State} (h : SameLinks o s) {x2 x3 x4} :
    SameLinks o (State.failChunk s x2 x3 x4) := by
  unfold State.failChunk
  repeat' first
    | with_reducible assumption | with_reducible apply links_endOp
    | with_reducible refine SameLinks.chans ?_ (chans_modOp (SameChans.refl _)) | intro _ | split

theorem links_loseRunning {o s : State} (h : SameLinks o s) {x2} :
    SameLinks o (State.loseRunning s x2) := by
  unfold State.loseRunning
  repeat' first
    | with_reducible assumption | with_reducible apply links_failChunk | split

theorem links_loseRunningList {o s : State} (h : SameLinks o s) {x1} :
    SameLinks o (loseRunningList x1 s) := by
  fun_induction loseRunningList x1 s
  repeat' first
    | with_reducible assumption | with_reducible refine (‹SameLinks o _ → SameLinks o _›) ?_
    | with_reducible apply links_loseRunning

theorem links_loseRefs {o s : State} (h : SameLinks o s) {x1 x2} :
    SameLinks o (State.loseRefs x1 x2 s) := by
  unfold State.loseRefs
  repeat' first
    | with_reducible assumption | with_reducible apply links_loseRunningList
    | with_reducible refine SameLinks.chans ?_ (chans_loseCompletedList (SameChans.refl _))

theorem links_settle {o s : State} (h : SameLinks o s) {x2 x3} :
    SameLinks o (State.settle s x2 x3) := by
  unfold State.settle
  repeat' first
    | with_reducible assumption | with_reducible apply links_modChan
    | with_reducible refine SameLinks.chans ?_ (chans_settleItem (SameChans.refl _))
    | with_reducible apply SameLinks.around | rw [mk_around] | with_reducible rfl | exact Nat.le_refl _ | intro _
    | split

theorem links_moveStream {o s : State} (h : SameLinks o s) {x2 x3} :
    SameLinks o (State.moveStream s x2 x3) := by
  unfold State.moveStream
  repeat' first
    | with_reducible assumption | with_reducible apply links_modRetry

theorem links_restartAll {o s : State} (h : SameLinks o s) {x1} :
    SameLinks o (restartAll x1 s) := by
  fun_induction restartAll x1 s
  repeat' first
    | with_reducible assumption | with_reducible refine (‹SameLinks o _ → SameLinks o _›) ?_
    | with_reducible apply links_modRetry | intro _ | split

theorem links_restartBond {o s : State} (h : SameLinks o s) {x2 x3} :
    SameLinks o (State.restartBond s x2 x3) := by
  unfold State.restartBond
  repeat' first
    | with_reducible assumption | with_reducible apply links_modRetry | with_reducible apply links_loseRefs
    | with_reducible apply links_restartAll

theorem links_dropLink {o s : State} (h : SameLinks o s) {x2} :
    SameLinks o (State.dropLink s x2) := by
  unfold State.dropLink
  repeat' first
    | with_reducible assumption | with_reducible apply links_modChan | with_reducible apply links_moveStream
    | with_reducible apply links_endChanOps | with_reducible apply links_restartBond
    | with_reducible refine SameLinks.chans ?_ (chans_abandonChan (SameChans.refl _))
    | with_reducible apply SameLinks.around | rw [mk_around] | with_reducible rfl | exact Nat.le_refl _ | intro _
    | split

theorem links_eachChan {o s : State} (h : SameLinks o s) {x1 x2} (k : ∀ t c, SameLinks o t → SameLinks o (x1 t c)) :
    SameLinks o (eachChan x1 x2 s) := by
  fun_induction eachChan x1 x2 s
  repeat' first
    | with_reducible assumption | with_reducible refine (‹SameLinks o _ → SameLinks o _›) ?_ | with_reducible apply k

theorem links_leaveNoticed {o s : State} (h : SameLinks o s) {x2 x3 x4 x5} :
    SameLinks o (State.leaveNoticed s x2 x3 x4 x5) := by
  unfold State.leaveNoticed
  try dsimp only
  repeat' first
    | with_reducible assumption | with_reducible apply links_modChan | with_reducible apply links_modRetry
    | with_reducible apply SameLinks.around | rw [mk_around] | with_reducible rfl | exact Nat.le_refl _ | intro _
    | split

theorem links_sendLm {o s : State} (h : SameLinks o s) {x2 x3} :
    SameLinks o (State.sendLm s x2 x3) := by
  unfold State.sendLm
  repeat' first
    | with_reducible assumption | with_reducible apply links_modRetry

theorem links_addPacket {o s : State} (h : SameLinks o s) {x2 x3 x4} :
    SameLinks o (State.addPacket s x2 x3 x4) := by
  unfold State.addPacket
  repeat' first
    | with_reducible assumption | with_reducible apply links_modRetry

theorem links_respond {o s : State} (h : SameLinks o s) {x2 x3 x4 x5 x6 x7} :
    SameLinks o (State.respond s x2 x3 x4 x5 x6 x7) := by
  unfold State.respond
  repeat' first
    | with_reducible assumption | with_reducible apply links_addPacket

end Sys2Proof.Machine
end

