-- ==== Sys2Proof/Laws/SameLinksTransport.lean ====
section
/-! SUPPORT. The operations of the initiator, the retry layer and the streams that leave every link state. -/

namespace Sys2Proof.Machine

theorem links_sendSingle {o s : State} (h : SameLinks o s) {x2} :
    SameLinks o (State.sendSingle s x2) := by
  unfold State.sendSingle
  repeat' first
    | with_reducible assumption | with_reducible apply links_addPacket | intro _ | split

theorem links_sendRequest {o s : State} (h : SameLinks o s) {x2 x3} :
    SameLinks o (State.sendRequest s x2 x3) := by
  unfold State.sendRequest
  repeat' first
    | with_reducible assumption | with_reducible apply links_addPacket

theorem links_nextChunk {o s : State} (h : SameLinks o s) {x2} :
    SameLinks o (State.nextChunk s x2) := by
  unfold State.nextChunk
  repeat' first
    | with_reducible assumption | with_reducible apply links_sendSingle | with_reducible apply links_sendRequest
    | with_reducible refine SameLinks.chans ?_ (chans_modOp (SameChans.refl _))
    | with_reducible refine SameLinks.chans ?_ (chans_beginChunk (SameChans.refl _)) | intro _ | split

theorem links_advanceOp {o s : State} (h : SameLinks o s) {x1 x2} :
    SameLinks o (State.advanceOp x1 x2 s) := by
  fun_induction State.advanceOp x1 x2 s
  repeat' first
    | with_reducible assumption | with_reducible refine (‹SameLinks o _ → SameLinks o _›) ?_
    | with_reducible apply links_nextChunk

theorem links_sendData {o s : State} (h : SameLinks o s) {x2 x3 x4 x5} :
    SameLinks o (State.sendData s x2 x3 x4 x5) := by
  unfold State.sendData
  repeat' first
    | with_reducible assumption | with_reducible apply links_addPacket

theorem links_relayWrites {o s : State} (h : SameLinks o s) {x1 x2} :
    SameLinks o (State.relayWrites x1 x2 s) := by
  fun_induction State.relayWrites x1 x2 s
  repeat' first
    | with_reducible assumption | with_reducible refine (‹SameLinks o _ → SameLinks o _›) ?_
    | with_reducible apply links_sendData | with_reducible apply links_sendSingle
    | with_reducible refine SameLinks.chans ?_ (chans_modOp (SameChans.refl _))

theorem links_advanceList {o s : State} (h : SameLinks o s) {x1} :
    SameLinks o (advanceList x1 s) := by
  fun_induction advanceList x1 s
  repeat' first
    | with_reducible assumption | with_reducible refine (‹SameLinks o _ → SameLinks o _›) ?_
    | with_reducible apply links_advanceOp | with_reducible apply links_relayWrites | intro _ | split

theorem links_advance {o s : State} (h : SameLinks o s) :
    SameLinks o (State.advance s) := by
  unfold State.advance
  repeat' first
    | with_reducible assumption | with_reducible apply links_advanceList

theorem links_chunkRead {o s : State} (h : SameLinks o s) {x2 x3} :
    SameLinks o (State.chunkRead s x2 x3) := by
  unfold State.chunkRead
  repeat' first
    | with_reducible assumption | with_reducible apply links_sendData | with_reducible apply links_sendRequest
    | with_reducible refine SameLinks.chans ?_ (chans_modOp (SameChans.refl _)) | intro _ | split

theorem links_chunkPart {o s : State} (h : SameLinks o s) {x2 x3 x4} :
    SameLinks o (State.chunkPart s x2 x3 x4) := by
  unfold State.chunkPart
  try dsimp only
  repeat' first
    | with_reducible assumption | with_reducible apply links_chunkRead | with_reducible apply links_advance
    | with_reducible refine SameLinks.chans ?_ (chans_modOp (SameChans.refl _)) | intro _ | split

theorem links_chunkReadFailed {o s : State} (h : SameLinks o s) {x2 x3} :
    SameLinks o (State.chunkReadFailed s x2 x3) := by
  unfold State.chunkReadFailed
  repeat' first
    | with_reducible assumption | with_reducible apply links_failChunk | with_reducible apply links_advance
    | with_reducible refine SameLinks.chans ?_ (chans_modOp (SameChans.refl _)) | split

theorem links_placeRead {o s : State} (h : SameLinks o s) {x2 x3 x4} :
    SameLinks o (State.placeRead s x2 x3 x4) := by
  unfold State.placeRead
  repeat' first
    | with_reducible assumption | with_reducible apply links_endOp | with_reducible apply links_advance
    | with_reducible refine SameLinks.chans ?_ (chans_modOp (SameChans.refl _))
    | with_reducible refine SameLinks.chans ?_ (chans_hostWrite (SameChans.refl _)) | intro _ | split

theorem links_writeDone {o s : State} (h : SameLinks o s) {x2} :
    SameLinks o (State.writeDone s x2) := by
  unfold State.writeDone
  repeat' first
    | with_reducible assumption | with_reducible apply links_endOp
    | with_reducible refine SameLinks.chans ?_ (chans_modOp (SameChans.refl _)) | intro _ | split

theorem links_refAcked {o s : State} (h : SameLinks o s) {x2} :
    SameLinks o (State.refAcked s x2) := by
  unfold State.refAcked
  repeat' first
    | with_reducible assumption | with_reducible apply links_writeDone
    | with_reducible refine SameLinks.chans ?_ (chans_modOp (SameChans.refl _)) | intro _ | split

theorem links_refsAcked {o s : State} (h : SameLinks o s) {x1 x2} :
    SameLinks o (State.refsAcked x1 x2 s) := by
  fun_induction State.refsAcked x1 x2 s
  repeat' first
    | with_reducible assumption | with_reducible refine (‹SameLinks o _ → SameLinks o _›) ?_
    | with_reducible apply links_refAcked | intro _ | split

theorem links_refused {o s : State} (h : SameLinks o s) {x2 x3 x4} :
    SameLinks o (State.refused s x2 x3 x4) := by
  unfold State.refused
  try dsimp only
  repeat' first
    | with_reducible assumption | with_reducible apply links_failChunk | with_reducible apply links_advance
    | with_reducible refine SameLinks.chans ?_ (chans_modOp (SameChans.refl _)) | intro _ | split

theorem links_resendChunk {o s : State} (h : SameLinks o s) {x2 x3} :
    SameLinks o (State.resendChunk s x2 x3) := by
  unfold State.resendChunk
  repeat' first
    | with_reducible assumption | with_reducible apply links_modRetry | with_reducible apply links_sendData
    | with_reducible apply links_sendSingle | with_reducible apply links_sendRequest
    | with_reducible refine SameLinks.chans ?_ (chans_modOp (SameChans.refl _))
    | with_reducible refine SameLinks.chans ?_ (chans_beginChunk (SameChans.refl _)) | split

theorem links_startTransport {o s : State} (h : SameLinks o s) {x2 x3 x4} :
    SameLinks o (State.startTransport s x2 x3 x4) := by
  unfold State.startTransport
  repeat' first
    | with_reducible assumption | with_reducible apply links_advance
    | with_reducible refine SameLinks.chans ?_ (chans_complete (SameChans.refl _))
    | with_reducible refine SameLinks.chans ?_ (chans_startItem (SameChans.refl _))
    | with_reducible refine SameLinks.chans ?_ (chans_modTransport (SameChans.refl _)) | intro _ | split

theorem links_takePacket {o s : State} (h : SameLinks o s) {c pkt kind hd b t}
    (e : s.takePacket c pkt kind = some (hd, b, t)) : SameLinks o t := by
  unfold State.takePacket at e
  dsimp only at e
  repeat' split at e
  · cases e
    exact links_modRetry h
  · cases e
    exact (links_modRetry h).chans (chans_occurChan (SameChans.refl _))
  · cases e

theorem links_execAtomicItem {o s : State} (h : SameLinks o s) {x1 x2} :
    SameLinksR o (execAtomicItem x1 x2 s) := by
  unfold execAtomicItem
  repeat' first
    | with_reducible assumption | with_reducible apply links_startTransport | with_reducible apply SameLinksR.next

theorem links_execAtomicResponse {o s : State} (h : SameLinks o s) {x1 x2} :
    SameLinksR o (execAtomicResponse x1 x2 s) := by
  unfold execAtomicResponse
  repeat' first
    | with_reducible assumption | with_reducible exact links_takePacket h (by assumption)
    | with_reducible apply links_refused | with_reducible apply links_endOp | with_reducible apply links_advance
    | with_reducible refine SameLinks.chans ?_ (chans_hostWrite (SameChans.refl _))
    | with_reducible apply SameLinksR.next | intro _ | split

theorem links_execFlushItem {o s : State} (h : SameLinks o s) {x1 x2} :
    SameLinksR o (execFlushItem x1 x2 s) := by
  unfold execFlushItem
  repeat' first
    | with_reducible assumption | with_reducible apply links_startTransport | with_reducible apply SameLinksR.next

theorem links_execFlushResponse {o s : State} (h : SameLinks o s) {x1 x2} :
    SameLinksR o (execFlushResponse x1 x2 s) := by
  unfold execFlushResponse
  try dsimp only
  repeat' first
    | with_reducible assumption | with_reducible exact links_takePacket h (by assumption)
    | with_reducible apply links_endOp | with_reducible apply links_advance
    | with_reducible refine SameLinks.chans ?_ (chans_takeFailure (SameChans.refl _))
    | with_reducible apply SameLinksR.next | split

theorem links_execReadItem {o s : State} (h : SameLinks o s) {x1 x2} :
    SameLinksR o (execReadItem x1 x2 s) := by
  unfold execReadItem
  repeat' first
    | with_reducible assumption | with_reducible apply links_startTransport | with_reducible apply SameLinksR.next

theorem links_execReadResponse {o s : State} (h : SameLinks o s) {x1 x2} :
    SameLinksR o (execReadResponse x1 x2 s) := by
  unfold execReadResponse
  try dsimp only
  repeat' first
    | with_reducible assumption | with_reducible exact links_takePacket h (by assumption)
    | with_reducible apply links_refused | with_reducible apply links_placeRead | with_reducible apply links_failChunk
    | with_reducible apply links_advance
    | with_reducible refine SameLinks.chans ?_ (chans_checkFixity (SameChans.refl _))
    | with_reducible apply SameLinksR.next | intro _ | split

theorem links_execRelayItem {o s : State} (h : SameLinks o s) {x1 x2} :
    SameLinksR o (execRelayItem x1 x2 s) := by
  unfold execRelayItem
  repeat' first
    | with_reducible assumption | with_reducible apply links_startTransport | with_reducible apply SameLinksR.next

theorem links_execResendBackoffExpiry {o s : State} (h : SameLinks o s) {x1 x2} :
    SameLinksR o (execResendBackoffExpiry x1 x2 s) := by
  unfold execResendBackoffExpiry
  repeat' first
    | with_reducible assumption | with_reducible apply links_resendChunk | with_reducible apply SameLinksR.next
    | intro _ | split

theorem links_execResponseLimitExpiry {o s : State} (h : SameLinks o s) {x1} :
    SameLinksR o (execResponseLimitExpiry x1 s) := by
  unfold execResponseLimitExpiry
  try dsimp only
  repeat' first
    | with_reducible assumption | with_reducible apply links_endOp | with_reducible apply links_failChunk
    | with_reducible apply links_advance | with_reducible apply SameLinksR.next | intro _ | split

theorem links_execSendItem {o s : State} (h : SameLinks o s) {x1 x2} :
    SameLinksR o (execSendItem x1 x2 s) := by
  unfold execSendItem
  repeat' first
    | with_reducible assumption | with_reducible apply links_startTransport | with_reducible apply SameLinksR.next

theorem links_execStatusPacket {o s : State} (h : SameLinks o s) {x1 x2} :
    SameLinksR o (execStatusPacket x1 x2 s) := by
  unfold execStatusPacket
  repeat' first
    | with_reducible assumption | with_reducible exact links_takePacket h (by assumption)
    | with_reducible apply links_refused
    | with_reducible refine SameLinks.chans ?_ (chans_recordFailure (SameChans.refl _))
    | with_reducible apply SameLinksR.next | split

theorem links_execWriteItem {o s : State} (h : SameLinks o s) {x1 x2} :
    SameLinksR o (execWriteItem x1 x2 s) := by
  unfold execWriteItem
  repeat' first
    | with_reducible assumption | with_reducible apply links_startTransport | with_reducible apply SameLinksR.next

theorem links_takeAck {o s : State} (h : SameLinks o s) {x2 x3} :
    SameLinks o (State.takeAck s x2 x3) := by
  unfold State.takeAck
  try dsimp only
  repeat' first
    | with_reducible assumption | with_reducible apply links_modRetry | with_reducible apply links_refsAcked
    | with_reducible apply links_advance | intro _ | split

theorem links_modQuality {o s : State} (h : SameLinks o s) {x2 x3} :
    SameLinks o (State.modQuality s x2 x3) := by
  unfold State.modQuality
  repeat' first
    | with_reducible assumption | with_reducible apply links_modChan | with_reducible apply SameLinks.around
    | rw [mk_around] | with_reducible rfl | exact Nat.le_refl _ | intro _

theorem links_notePosition {o s : State} (h : SameLinks o s) {x2 x3} :
    SameLinks o (State.notePosition s x2 x3) := by
  unfold State.notePosition
  try dsimp only
  repeat' first
    | with_reducible assumption | with_reducible apply links_modRetry | intro _ | split

theorem links_passCodeword {o s : State} (h : SameLinks o s) {x2} :
    SameLinks o (State.passCodeword s x2) := by
  unfold State.passCodeword
  try dsimp only
  repeat' first
    | with_reducible assumption | with_reducible apply links_modChan | with_reducible apply SameLinks.around
    | rw [mk_around] | with_reducible rfl | exact Nat.le_refl _ | intro _ | split

theorem links_fillPosition {o s : State} (h : SameLinks o s) {x2 x3 x4} :
    SameLinks o (State.fillPosition s x2 x3 x4) := by
  unfold State.fillPosition
  repeat' first
    | with_reducible assumption | with_reducible apply links_modRetry

theorem links_feedCodeword {o s : State} (h : SameLinks o s) {x2 x3 x4 x5} :
    SameLinks o (State.feedCodeword s x2 x3 x4 x5) := by
  unfold State.feedCodeword
  try dsimp only
  repeat' first
    | with_reducible assumption | with_reducible apply links_modRetry
    | with_reducible refine SameLinks.chans ?_ (chans_injected (SameChans.refl _)) | intro _ | split

theorem links_drainMerge {o s : State} (h : SameLinks o s) {x1 x2} :
    SameLinks o (drainMerge x1 x2 s) := by
  fun_induction drainMerge x1 x2 s
  repeat' first
    | with_reducible assumption | with_reducible refine (‹SameLinks o _ → SameLinks o _›) ?_
    | with_reducible apply links_feedCodeword | with_reducible apply links_modRetry

theorem links_stopFalseWake {o s : State} (h : SameLinks o s) {x2} :
    SameLinks o (State.stopFalseWake s x2) := by
  unfold State.stopFalseWake
  repeat' first
    | with_reducible assumption | with_reducible apply links_modChan | with_reducible apply links_eachChan
    | with_reducible apply SameLinks.around | rw [mk_around] | with_reducible rfl | exact Nat.le_refl _ | intro _

theorem links_deliver {o s : State} (h : SameLinks o s) {x2 x3 x4} :
    SameLinks o (State.deliver s x2 x3 x4) := by
  unfold State.deliver
  try dsimp only
  repeat' first
    | with_reducible assumption | with_reducible apply links_fillPosition | with_reducible apply links_feedCodeword
    | with_reducible apply links_modRetry | with_reducible apply links_drainMerge
    | with_reducible apply links_stopFalseWake | intro _ | split

theorem links_takeSequenced {o s : State} (h : SameLinks o s) {x2 x3 x4} :
    SameLinks o (State.takeSequenced s x2 x3 x4) := by
  unfold State.takeSequenced
  try dsimp only
  repeat' first
    | with_reducible assumption | with_reducible apply links_modChan | with_reducible apply links_modRetry
    | with_reducible apply links_deliver | with_reducible apply SameLinks.around | rw [mk_around] | with_reducible rfl
    | exact Nat.le_refl _ | intro _ | split

theorem links_dataCodeword {o s : State} (h : SameLinks o s) {x2 x3} :
    SameLinks o (State.dataCodeword s x2 x3) := by
  unfold State.dataCodeword
  try dsimp only
  repeat' first
    | with_reducible assumption | with_reducible apply links_modQuality | with_reducible apply links_notePosition
    | with_reducible apply links_modRetry | with_reducible apply links_passCodeword
    | with_reducible apply links_takeAck | with_reducible apply links_modChan
    | with_reducible apply links_takeSequenced
    | with_reducible refine SameLinks.chans ?_ (chans_occurChan (SameChans.refl _))
    | with_reducible apply SameLinksO.some | with_reducible exact SameLinksO.none | with_reducible rfl
    | with_reducible apply SameLinks.around | rw [mk_around] | intro _ | split

theorem links_giveUp {o s : State} (h : SameLinks o s) {x2 x3} :
    SameLinks o (State.giveUp s x2 x3) := by
  unfold State.giveUp
  repeat' first
    | with_reducible assumption | with_reducible apply links_modRetry | with_reducible apply links_loseRefs
    | with_reducible apply links_restartAll | with_reducible apply links_advance
    | with_reducible refine SameLinks.chans ?_ (chans_occurChan (SameChans.refl _))

theorem links_launch {o s : State} (h : SameLinks o s) {x2 x3 x4} :
    SameLinks o (State.launch s x2 x3 x4) := by
  unfold State.launch
  repeat' first
    | with_reducible assumption | with_reducible apply links_modChan
    | with_reducible refine SameLinks.chans ?_ (chans_say (SameChans.refl _)) | with_reducible apply SameLinks.around
    | rw [mk_around] | with_reducible rfl | exact Nat.le_refl _ | intro _

theorem links_onMessage {o s : State} (h : SameLinks o s) {x2 x3 x4 x5} (k : ∀ t, SameLinks o t → SameLinks o (x5 t)) :
    SameLinks o (State.onMessage s x2 x3 x4 x5) := by
  unfold State.onMessage
  repeat' first
    | with_reducible assumption | with_reducible apply k | with_reducible apply links_modRetry | intro _ | split

theorem links_startCodeword {o s : State} (h : SameLinks o s) {x2} :
    SameLinks o (State.startCodeword s x2) := by
  unfold State.startCodeword
  repeat' first
    | with_reducible assumption | with_reducible apply links_modChan | with_reducible apply links_launch
    | with_reducible apply links_modRetry | with_reducible apply links_stopFalseWake
    | with_reducible apply SameLinks.around | rw [mk_around] | with_reducible rfl | exact Nat.le_refl _ | intro _
    | split

theorem links_trainingCodeword {o s} (h : SameLinks o s) {x2 x3} :
    SameLinks o (State.trainingCodeword s x2 x3) := by
  unfold State.trainingCodeword
  try dsimp only
  repeat' first
    | with_reducible assumption | with_reducible apply links_passCodeword | with_reducible apply links_modRetry
    | with_reducible apply SameLinksO.some | with_reducible exact SameLinksO.none | with_reducible rfl
    | with_reducible apply SameLinks.around | rw [mk_around] | intro _ | split

theorem links_execCodewordDecoded {o s : State} (h : SameLinks o s) {x1 x2} :
    SameLinksR o (execCodewordDecoded x1 x2 s) := by
  unfold execCodewordDecoded
  try dsimp only
  repeat' first
    | with_reducible assumption | with_reducible apply links_modRetry | with_reducible apply links_dataCodeword
    | with_reducible apply links_trainingCodeword
    | with_reducible refine SameLinks.chans ?_ (chans_injected (SameChans.refl _))
    | with_reducible apply SameLinksR.next | with_reducible rfl | with_reducible apply SameLinks.around
    | rw [mk_around] | intro _ | split

theorem links_execDiscardNotice {o s : State} (h : SameLinks o s) {x1 x2} :
    SameLinksR o (execDiscardNotice x1 x2 s) := by
  unfold execDiscardNotice
  repeat' first
    | with_reducible assumption | with_reducible apply links_onMessage | with_reducible apply links_loseRefs
    | with_reducible apply links_advance | with_reducible apply SameLinksR.next | intro _

theorem links_execHeaderCheckFailed {o s : State} (h : SameLinks o s) {x1 x2} :
    SameLinksR o (execHeaderCheckFailed x1 x2 s) := by
  unfold execHeaderCheckFailed
  repeat' first
    | with_reducible assumption | with_reducible apply links_modRetry
    | with_reducible refine SameLinks.chans ?_ (chans_occurChan (SameChans.refl _))
    | with_reducible apply SameLinksR.next | intro _ | split

theorem links_execPad {o s : State} (h : SameLinks o s) {x1 x2} :
    SameLinksR o (execPad x1 x2 s) := by
  exact links_onMessage h (fun _ k => k)

theorem links_execRestart {o s : State} (h : SameLinks o s) {x1 x2} :
    SameLinksR o (execRestart x1 x2 s) := by
  unfold execRestart
  repeat' first
    | with_reducible assumption | with_reducible apply links_onMessage | with_reducible apply links_modRetry
    | with_reducible refine SameLinks.chans ?_ (chans_abandonChan (SameChans.refl _))
    | with_reducible apply SameLinksR.next | intro _

theorem links_execResume {o s : State} (h : SameLinks o s) {x1 x2} :
    SameLinksR o (execResume x1 x2 s) := by
  unfold execResume
  try dsimp only
  repeat' first
    | with_reducible assumption | with_reducible apply links_onMessage | with_reducible apply links_modRetry
    | with_reducible apply links_giveUp | with_reducible apply links_refsAcked | with_reducible apply links_advance
    | with_reducible apply SameLinksR.next | intro _ | split

theorem links_execRetransmitTimeout {o s : State} (h : SameLinks o s) {x1} :
    SameLinksR o (execRetransmitTimeout x1 s) := by
  unfold execRetransmitTimeout
  try dsimp only
  repeat' first
    | with_reducible assumption | with_reducible apply links_modRetry | with_reducible apply SameLinksR.next | intro _
    | split

theorem links_execRetryBudgetExpiry {o s : State} (h : SameLinks o s) {x1} :
    SameLinksR o (execRetryBudgetExpiry x1 s) := by
  unfold execRetryBudgetExpiry
  try dsimp only
  repeat' first
    | with_reducible assumption | with_reducible apply links_giveUp | with_reducible apply SameLinksR.next | intro _
    | split

theorem links_disposition {o s : State} (h : SameLinks o s) {x2 x3 x4 x5 x6} :
    SameLinks o (State.disposition s x2 x3 x4 x5 x6) := by
  unfold State.disposition
  repeat' first
    | with_reducible assumption | with_reducible apply links_endOp | with_reducible apply links_advance
    | with_reducible refine SameLinks.chans ?_ (chans_modStream (SameChans.refl _))
    | with_reducible refine SameLinks.chans ?_ (chans_streamRecord (SameChans.refl _)) | split

theorem links_signal {o s : State} (h : SameLinks o s) {x2 x3 x4 x5 x6 x7} :
    SameLinks o (State.signal s x2 x3 x4 x5 x6 x7) := by
  unfold State.signal
  repeat' first
    | with_reducible assumption | with_reducible apply links_sendLm

theorem links_overtake {o s : State} (h : SameLinks o s) {x2 x3 x4 x5} :
    SameLinks o (State.overtake s x2 x3 x4 x5) := by
  unfold State.overtake
  repeat' first
    | with_reducible assumption | with_reducible apply links_signal
    | with_reducible refine SameLinks.chans ?_ (chans_modTransport (SameChans.refl _)) | split

theorem links_firebreak {o s : State} (h : SameLinks o s) {x2 x3 x4 x5} :
    SameLinks o (State.firebreak s x2 x3 x4 x5) := by
  unfold State.firebreak
  dsimp only
  refine SameLinks.ite (fun _ => ?_) (fun _ => ?_)
  · exact (links_overtake h).chans (chans_feedEvent (chans_fence (chans_modQueue (chans_hostWrite (SameChans.refl _)))))
  · exact (links_overtake h).chans (chans_fence (chans_modQueue (chans_hostWrite (SameChans.refl _))))

theorem links_onItem {o s : State} (h : SameLinks o s) {x2 x3 x4} (k : ∀ i b, SameLinksO o (x4 i b)) :
    SameLinks o (State.onItem s x2 x3 x4) := by
  unfold State.onItem
  repeat' first
    | with_reducible assumption | with_reducible apply k | with_reducible apply SameLinksO.getD | split

theorem links_slotFalls {o s : State} (h : SameLinks o s) {x2 x3 x4} :
    SameLinks o (State.slotFalls s x2 x3 x4) := by
  unfold State.slotFalls
  try dsimp only
  repeat' first
    | with_reducible assumption | with_reducible apply links_firebreak
    | with_reducible refine SameLinks.chans ?_ (chans_exhaust (SameChans.refl _))
    | with_reducible refine SameLinks.chans ?_ (chans_modStream (SameChans.refl _)) | intro _ | split

theorem links_slotDue {o s : State} (h : SameLinks o s) {x2 x3} :
    SameLinks o (State.slotDue s x2 x3) := by
  unfold State.slotDue
  try dsimp only
  repeat' first
    | with_reducible assumption | with_reducible apply links_slotFalls
    | with_reducible refine SameLinks.chans ?_ (chans_takeBuffer (SameChans.refl _)) | intro _ | split

theorem links_execReserveRelease {o s : State} (h : SameLinks o s) {x1 x2} :
    SameLinksR o (execReserveRelease x1 x2 s) := by
  unfold execReserveRelease
  repeat' first
    | with_reducible assumption | with_reducible apply links_onItem | with_reducible apply links_signal
    | with_reducible refine SameLinks.chans ?_ (chans_complete (SameChans.refl _))
    | with_reducible refine SameLinks.chans ?_ (chans_startItem (SameChans.refl _))
    | with_reducible refine SameLinks.chans ?_ (chans_modStream (SameChans.refl _))
    | with_reducible refine SameLinks.chans ?_ (chans_streamRecord (SameChans.refl _))
    | with_reducible apply SameLinksO.ite | with_reducible apply SameLinksO.some
    | with_reducible exact SameLinksO.none | with_reducible apply SameLinksR.next | intro _ | split

theorem links_execStreamSignal {o s : State} (h : SameLinks o s) {x1 x2} :
    SameLinksR o (execStreamSignal x1 x2 s) := by
  unfold execStreamSignal
  try dsimp only
  repeat' first
    | with_reducible assumption | with_reducible apply links_onMessage | with_reducible apply links_disposition
    | with_reducible refine SameLinks.chans ?_ (chans_streamRecord (SameChans.refl _))
    | with_reducible apply SameLinksR.next | intro _ | split

theorem links_execStreamSlotDue {o s : State} (h : SameLinks o s) {x1 x2} :
    SameLinksR o (execStreamSlotDue x1 x2 s) := by
  unfold execStreamSlotDue
  repeat' first
    | with_reducible assumption | with_reducible apply links_slotDue | with_reducible apply SameLinksR.next

end Sys2Proof.Machine
end

