-- ==== Sys2Proof/Laws/SameLinksLine.lean ====
section
/-! SUPPORT. The operations of the fault reactions and the line that leave every link state. -/

namespace Sys2Proof.Machine

theorem links_dropOps {o s : State} (h : SameLinks o s) {x1} :
    SameLinks o (dropOps x1 s) := by
  fun_induction dropOps x1 s
  repeat' first
    | with_reducible assumption | with_reducible refine (‹SameLinks o _ → SameLinks o _›) ?_
    | with_reducible apply links_removeOp

theorem links_discardWork {o s : State} (h : SameLinks o s) {x2 x3} :
    SameLinks o (State.discardWork s x2 x3) := by
  unfold State.discardWork
  repeat' first
    | with_reducible assumption | with_reducible apply links_dropOps
    | with_reducible refine SameLinks.chans ?_ (chans_unreserve (SameChans.refl _))
    | with_reducible refine SameLinks.chans ?_ (chans_modQueue (SameChans.refl _))
    | with_reducible refine SameLinks.chans ?_ (chans_modTransport (SameChans.refl _))

theorem links_discardQueue {o s : State} (h : SameLinks o s) {x2 x3 x4 x5} :
    SameLinks o (State.discardQueue s x2 x3 x4 x5) := by
  unfold State.discardQueue
  repeat' first
    | with_reducible assumption | with_reducible apply links_discardWork
    | with_reducible refine SameLinks.chans ?_ (chans_record (SameChans.refl _))

theorem links_haltQueue {o s : State} (h : SameLinks o s) {x2 x3 x4} :
    SameLinks o (State.haltQueue s x2 x3 x4) := by
  unfold State.haltQueue
  repeat' first
    | with_reducible assumption | with_reducible apply links_discardQueue
    | with_reducible refine SameLinks.chans ?_ (chans_modQueue (SameChans.refl _))

theorem links_discardKeys {o s : State} (h : SameLinks o s) {x1 x2 x3} :
    SameLinks o (discardKeys x1 x2 x3 s) := by
  fun_induction discardKeys x1 x2 x3 s
  repeat' first
    | with_reducible assumption | with_reducible refine (‹SameLinks o _ → SameLinks o _›) ?_
    | with_reducible apply links_discardWork | with_reducible apply links_discardQueue | intro _ | split

theorem links_quiesce {o s : State} (h : SameLinks o s) {x2} :
    SameLinks o (State.quiesce s x2) := by
  unfold State.quiesce
  repeat' first
    | with_reducible assumption | with_reducible apply links_discardKeys | with_reducible apply SameLinks.around
    | rw [mk_around] | with_reducible rfl | exact Nat.le_refl _

theorem links_modBring {o s : State} (h : SameLinks o s) {x2 x3} :
    SameLinks o (State.modBring s x2 x3) := by
  unfold State.modBring
  repeat' first
    | with_reducible assumption | with_reducible apply links_modChan | with_reducible apply SameLinks.around
    | rw [mk_around] | with_reducible rfl | exact Nat.le_refl _ | intro _

theorem links_beginCountdown {o s : State} (h : SameLinks o s) {x2 x3 x4} :
    SameLinks o (State.beginCountdown s x2 x3 x4) := by
  unfold State.beginCountdown
  repeat' first
    | with_reducible assumption | with_reducible apply links_modBring

theorem links_newRound {o s} (h : SameLinks o s) {x2 x3 x4} :
    SameLinks o (State.newRound s x2 x3 x4) := by
  unfold State.newRound
  try dsimp only
  repeat' first
    | with_reducible assumption | with_reducible apply links_modChan | with_reducible rfl
    | with_reducible apply SameLinks.around | rw [mk_around] | intro _ | split

theorem links_epoch {o s} (h : SameLinks o s) {x2 x3 x4} :
    SameLinks o (State.epoch s x2 x3 x4) := by
  unfold State.epoch
  try dsimp only
  repeat' first
    | with_reducible assumption | with_reducible apply links_newRound | with_reducible apply links_modBring
    | with_reducible rfl | with_reducible apply SameLinks.around | rw [mk_around] | intro _ | split

theorem links_refuseBringup {o s : State} (h : SameLinks o s) {x2 x3} :
    SameLinks o (State.refuseBringup s x2 x3) := by
  unfold State.refuseBringup
  repeat' first
    | with_reducible assumption | with_reducible apply links_modBring

theorem links_takeAssembled {o s : State} (h : SameLinks o s) {x2 x3} :
    SameLinks o (State.takeAssembled s x2 x3) := by
  unfold State.takeAssembled
  try dsimp only
  repeat' first
    | with_reducible assumption | with_reducible apply links_beginCountdown | with_reducible apply links_modBring
    | intro _ | split

theorem links_execAssemblyTimeout {o s : State} (h : SameLinks o s) {x1} :
    SameLinksR o (execAssemblyTimeout x1 s) := by
  unfold execAssemblyTimeout
  try dsimp only
  repeat' first
    | with_reducible assumption | with_reducible apply links_beginCountdown | with_reducible apply SameLinksR.next
    | intro _ | split

theorem links_execExchangeTimeout {o s : State} (h : SameLinks o s) {x1} :
    SameLinksR o (execExchangeTimeout x1 s) := by
  unfold execExchangeTimeout
  try dsimp only
  repeat' first
    | with_reducible assumption | with_reducible apply links_refuseBringup | with_reducible apply SameLinksR.next
    | intro _ | split

theorem links_execStartFrame {o s : State} (h : SameLinks o s) {x1 x2 x3} :
    SameLinksR o (execStartFrame x1 x2 x3 s) := by
  unfold execStartFrame
  try dsimp only
  repeat' first
    | with_reducible assumption | with_reducible apply links_modBring | with_reducible apply SameLinksR.next | intro _
    | split

theorem links_failTraining {o s : State} (h : SameLinks o s) {x2 x3} :
    SameLinks o (State.failTraining s x2 x3) := by
  unfold State.failTraining
  repeat' first
    | with_reducible assumption | with_reducible apply links_leaveNoticed

theorem links_modTrain {o s : State} (h : SameLinks o s) {x2 x3} :
    SameLinks o (State.modTrain s x2 x3) := by
  unfold State.modTrain
  repeat' first
    | with_reducible assumption | with_reducible apply links_modChan | with_reducible apply SameLinks.around
    | rw [mk_around] | with_reducible rfl | exact Nat.le_refl _ | intro _

theorem links_rxStreamBegins {o s : State} (h : SameLinks o s) {x2} :
    SameLinks o (State.rxStreamBegins s x2) := by
  unfold State.rxStreamBegins
  try dsimp only
  repeat' first
    | with_reducible assumption | with_reducible apply links_modChan | with_reducible rfl
    | with_reducible apply SameLinks.around | rw [mk_around] | intro _ | split

theorem links_sayState {o s : State} (h : SameLinks o s) {x2} :
    SameLinks o (State.sayState s x2) := by
  unfold State.sayState
  repeat' first
    | with_reducible assumption | with_reducible apply links_sendLm | with_reducible apply links_modTrain

theorem links_sayTable {o s : State} (h : SameLinks o s) {x2} :
    SameLinks o (State.sayTable s x2) := by
  unfold State.sayTable
  repeat' first
    | with_reducible assumption | with_reducible apply links_sendLm | with_reducible apply links_modTrain | split

theorem links_setEcho {o s : State} (h : SameLinks o s) {x2} :
    SameLinks o (State.setEcho s x2) := by
  unfold State.setEcho
  repeat' first
    | with_reducible assumption | with_reducible apply links_modChan
    | with_reducible refine SameLinks.chans ?_ (chans_useFresh (SameChans.refl _))
    | with_reducible apply SameLinks.around | rw [mk_around] | with_reducible rfl | exact Nat.le_refl _ | intro _

theorem links_setMatrix {o s : State} (h : SameLinks o s) {x2} :
    SameLinks o (State.setMatrix s x2) := by
  unfold State.setMatrix
  repeat' first
    | with_reducible assumption | with_reducible apply links_modChan
    | with_reducible refine SameLinks.chans ?_ (chans_useFresh (SameChans.refl _))
    | with_reducible apply SameLinks.around | rw [mk_around] | with_reducible rfl | exact Nat.le_refl _ | intro _

theorem links_setPreEq {o s : State} (h : SameLinks o s) {x2} :
    SameLinks o (State.setPreEq s x2) := by
  unfold State.setPreEq
  repeat' first
    | with_reducible assumption | with_reducible apply links_modChan
    | with_reducible refine SameLinks.chans ?_ (chans_useFresh (SameChans.refl _))
    | with_reducible apply SameLinks.around | rw [mk_around] | with_reducible rfl | exact Nat.le_refl _ | intro _

theorem links_startStream {o s : State} (h : SameLinks o s) {x2} :
    SameLinks o (State.startStream s x2) := by
  unfold State.startStream
  try dsimp only
  repeat' first
    | with_reducible assumption | with_reducible apply links_modRetry | with_reducible apply links_modChan
    | with_reducible apply links_sayState | with_reducible refine SameLinks.chans ?_ (chans_say (SameChans.refl _))
    | exact rfl | intro _ | split

theorem links_startF3 {o s : State} (h : SameLinks o s) {x2} :
    SameLinks o (State.startF3 s x2) := by
  unfold State.startF3
  repeat' first
    | with_reducible assumption | with_reducible apply links_modChan | with_reducible apply links_startStream
    | with_reducible apply SameLinks.around | rw [mk_around] | with_reducible rfl | exact Nat.le_refl _ | intro _

theorem links_startLoading {o s : State} (h : SameLinks o s) {x2 x3} :
    SameLinks o (State.startLoading s x2 x3) := by
  unfold State.startLoading
  try dsimp only
  repeat' first
    | with_reducible assumption | with_reducible apply links_sayTable | with_reducible apply links_modChan
    | with_reducible apply links_failTraining | with_reducible apply SameLinks.around | rw [mk_around]
    | with_reducible rfl | exact Nat.le_refl _ | intro _ | split

theorem links_stateInTrain5 {o s : State} (h : SameLinks o s) {x2 x3} :
    SameLinks o (State.stateInTrain5 s x2 x3) := by
  unfold State.stateInTrain5
  repeat' first
    | with_reducible assumption | with_reducible apply links_failTraining | with_reducible apply links_modTrain
    | intro _ | split

theorem links_swapBegins {o s : State} (h : SameLinks o s) {x2} :
    SameLinks o (State.swapBegins s x2) := by
  unfold State.swapBegins
  repeat' first
    | with_reducible assumption | with_reducible apply links_modChan | with_reducible apply links_modQuality
    | with_reducible refine SameLinks.chans ?_ (chans_occurChan (SameChans.refl _))
    | with_reducible apply SameLinks.around | rw [mk_around] | with_reducible rfl | exact Nat.le_refl _ | intro _
    | split

theorem links_trainTick {o s : State} (h : SameLinks o s) {x2} :
    SameLinks o (State.trainTick s x2) := by
  unfold State.trainTick
  try dsimp only
  repeat' first
    | with_reducible assumption | with_reducible apply links_sayState | with_reducible apply links_sayTable | intro _
    | split

theorem links_restartSnr {o s} (h : SameLinks o s) {x2} :
    SameLinks o (State.restartSnr s x2) := by
  unfold State.restartSnr
  try dsimp only
  repeat' first
    | with_reducible assumption | with_reducible apply links_modChan | with_reducible rfl
    | with_reducible apply SameLinks.around | rw [mk_around] | intro _ | split

theorem links_execF1Acquired {o s : State} (h : SameLinks o s) {x1} :
    SameLinksR o (execF1Acquired x1 s) := by
  unfold execF1Acquired
  try dsimp only
  repeat' first
    | with_reducible assumption | with_reducible apply links_modTrain | with_reducible apply links_restartSnr
    | with_reducible apply SameLinksR.next | with_reducible rfl | with_reducible apply SameLinks.around
    | rw [mk_around] | intro _ | split

theorem links_execLoadingTable {o s : State} (h : SameLinks o s) {x1 x2} :
    SameLinksR o (execLoadingTable x1 x2 s) := by
  unfold execLoadingTable
  try dsimp only
  repeat' first
    | with_reducible assumption | with_reducible apply links_onMessage | with_reducible apply links_sayState
    | with_reducible apply links_modChan | with_reducible apply links_modTrain | with_reducible apply SameLinks.around
    | rw [mk_around] | with_reducible apply SameLinksR.next | with_reducible rfl | exact Nat.le_refl _ | intro _
    | split

theorem links_execTrain5Limit {o s : State} (h : SameLinks o s) {x1} :
    SameLinksR o (execTrain5Limit x1 s) := by
  unfold execTrain5Limit
  try dsimp only
  repeat' first
    | with_reducible assumption | with_reducible apply links_failTraining | with_reducible apply SameLinksR.next
    | intro _ | split

theorem links_modRx {o s : State} (h : SameLinks o s) {x2 x3} :
    SameLinks o (State.modRx s x2 x3) := by
  unfold State.modRx
  repeat' first
    | with_reducible assumption | with_reducible apply links_modChan | with_reducible apply SameLinks.around
    | rw [mk_around] | with_reducible rfl | exact Nat.le_refl _ | intro _

theorem links_stepGain {o s} (h : SameLinks o s) {x2 x3} :
    SameLinks o (State.stepGain s x2 x3) := by
  unfold State.stepGain
  try dsimp only
  repeat' first
    | with_reducible assumption | with_reducible apply links_modChan | with_reducible rfl
    | with_reducible apply SameLinks.around | rw [mk_around] | intro _ | split

theorem links_deferredGain {o s : State} (h : SameLinks o s) {x2} :
    SameLinks o (State.deferredGain s x2) := by
  unfold State.deferredGain
  try dsimp only
  repeat' first
    | with_reducible assumption | with_reducible apply links_modChan | with_reducible apply links_stepGain
    | with_reducible rfl | with_reducible apply SameLinks.around | rw [mk_around] | intro _ | split

theorem links_markTick {o s : State} (h : SameLinks o s) {x2} :
    SameLinks o (State.markTick s x2) := by
  unfold State.markTick
  repeat' first
    | with_reducible assumption | with_reducible apply links_modChan | with_reducible apply SameLinks.around
    | rw [mk_around] | with_reducible rfl | exact Nat.le_refl _ | intro _ | split

theorem links_requestSwap {o s : State} (h : SameLinks o s) {x2 x3} :
    SameLinks o (State.requestSwap s x2 x3) := by
  unfold State.requestSwap
  repeat' first
    | with_reducible assumption | with_reducible apply links_sendLm | with_reducible apply links_modChan
    | with_reducible apply SameLinks.around | rw [mk_around] | with_reducible rfl | exact Nat.le_refl _ | intro _

theorem links_waitingSwap {o s : State} (h : SameLinks o s) {x2} :
    SameLinks o (State.waitingSwap s x2) := by
  unfold State.waitingSwap
  try dsimp only
  repeat' first
    | with_reducible assumption | with_reducible apply links_requestSwap | intro _ | split

theorem links_execAntiAliasCornerChange {o s : State} (h : SameLinks o s) {x1} :
    SameLinksR o (execAntiAliasCornerChange x1 s) := by
  unfold execAntiAliasCornerChange
  try dsimp only
  repeat' first
    | with_reducible assumption | with_reducible apply links_modRx | with_reducible apply SameLinksR.next | intro _
    | split

theorem links_execBitSwapApply {o s : State} (h : SameLinks o s) {x1} :
    SameLinksR o (execBitSwapApply x1 s) := by
  unfold execBitSwapApply
  try dsimp only
  repeat' first
    | with_reducible assumption | with_reducible apply links_modChan
    | with_reducible refine SameLinks.chans ?_ (chans_say (SameChans.refl _)) | with_reducible apply SameLinksR.next
    | with_reducible apply SameLinksO.some | with_reducible exact SameLinksO.none | exact rfl
    | with_reducible apply SameLinks.around | rw [mk_around] | exact Nat.le_refl _ | intro _ | split

theorem links_execBitSwapRequest {o s : State} (h : SameLinks o s) {x1 x2} :
    SameLinksR o (execBitSwapRequest x1 x2 s) := by
  unfold execBitSwapRequest
  try dsimp only
  repeat' first
    | with_reducible assumption | with_reducible apply links_onMessage | with_reducible apply links_sendLm
    | with_reducible apply links_modChan | with_reducible apply SameLinks.around | rw [mk_around]
    | with_reducible apply SameLinksR.next | with_reducible rfl | exact Nat.le_refl _ | intro _ | split

theorem links_execEchoRetrainEnd {o s : State} (h : SameLinks o s) {x1} :
    SameLinksR o (execEchoRetrainEnd x1 s) := by
  unfold execEchoRetrainEnd
  try dsimp only
  repeat' first
    | with_reducible assumption | with_reducible apply links_modRx
    | with_reducible refine SameLinks.chans ?_ (chans_useFresh (SameChans.refl _))
    | with_reducible apply SameLinksR.next | intro _ | split

theorem links_execEchoRetrainStart {o s : State} (h : SameLinks o s) {x1 x2} :
    SameLinksR o (execEchoRetrainStart x1 x2 s) := by
  unfold execEchoRetrainStart
  try dsimp only
  repeat' first
    | with_reducible assumption | with_reducible apply links_modRx
    | with_reducible refine SameLinks.chans ?_ (chans_occurChan (SameChans.refl _))
    | with_reducible apply SameLinksR.next | intro _ | split

theorem links_execGainTrackingStep {o s : State} (h : SameLinks o s) {x1 x2} :
    SameLinksR o (execGainTrackingStep x1 x2 s) := by
  unfold execGainTrackingStep
  try dsimp only
  repeat' first
    | with_reducible assumption | with_reducible apply links_modRx | with_reducible apply links_stepGain
    | with_reducible apply SameLinksR.next | with_reducible rfl | with_reducible apply SameLinks.around
    | rw [mk_around] | intro _ | split

theorem links_correctMatrix {o s} (h : SameLinks o s) {x2} :
    SameLinks o (State.correctMatrix s x2) := by
  unfold State.correctMatrix
  try dsimp only
  repeat' first
    | with_reducible assumption | with_reducible apply links_modRx
    | with_reducible refine SameLinks.chans ?_ (chans_useFresh (SameChans.refl _)) | with_reducible rfl
    | with_reducible apply SameLinks.around | rw [mk_around] | intro _ | split

theorem links_execPreEqualiserUpdate {o s : State} (h : SameLinks o s) {x1} :
    SameLinksR o (execPreEqualiserUpdate x1 s) := by
  unfold execPreEqualiserUpdate
  try dsimp only
  repeat' first
    | with_reducible assumption | with_reducible apply links_setPreEq | with_reducible apply links_correctMatrix
    | with_reducible apply links_modRx | with_reducible apply links_modChan | with_reducible apply SameLinksR.next
    | with_reducible rfl | with_reducible apply SameLinks.around | rw [mk_around] | intro _ | split

theorem links_execTransformWindowMove {o s : State} (h : SameLinks o s) {x1 x2} :
    SameLinksR o (execTransformWindowMove x1 x2 s) := by
  unfold execTransformWindowMove
  try dsimp only
  repeat' first
    | with_reducible assumption | with_reducible apply links_modChan | with_reducible apply SameLinksR.next | exact rfl | intro _
    | split

theorem links_modQuiet {o s : State} (h : SameLinks o s) {x2 x3} :
    SameLinks o (State.modQuiet s x2 x3) := by
  unfold State.modQuiet
  repeat' first
    | with_reducible assumption | with_reducible apply links_modChan | with_reducible apply SameLinks.around
    | rw [mk_around] | with_reducible rfl | exact Nat.le_refl _ | intro _

theorem links_beginAlert {o s : State} (h : SameLinks o s) {x2} :
    SameLinks o (State.beginAlert s x2) := by
  unfold State.beginAlert
  repeat' first
    | with_reducible assumption | with_reducible apply links_modQuiet
    | with_reducible refine SameLinks.chans ?_ (chans_say (SameChans.refl _))

theorem links_execQuietIdleTimeout {o s : State} (h : SameLinks o s) {x1} :
    SameLinksR o (execQuietIdleTimeout x1 s) := by
  unfold execQuietIdleTimeout
  try dsimp only
  repeat' first
    | with_reducible assumption | with_reducible apply links_sendLm | with_reducible apply links_modQuiet
    | with_reducible apply SameLinksR.next | intro _ | split

theorem links_execQuietReply {o s : State} (h : SameLinks o s) {x1 x2} :
    SameLinksR o (execQuietReply x1 x2 s) := by
  unfold execQuietReply
  try dsimp only
  repeat' first
    | with_reducible assumption | with_reducible apply links_onMessage | with_reducible apply links_modChan
    | with_reducible apply links_modQuiet | with_reducible apply SameLinksR.next | with_reducible rfl
    | with_reducible apply SameLinks.around | rw [mk_around] | intro _ | split

theorem links_execQuietReplyTimeout {o s : State} (h : SameLinks o s) {x1} :
    SameLinksR o (execQuietReplyTimeout x1 s) := by
  unfold execQuietReplyTimeout
  try dsimp only
  repeat' first
    | with_reducible assumption | with_reducible apply links_modQuiet | with_reducible apply SameLinksR.next | intro _
    | split

theorem links_execQuietRequest {o s : State} (h : SameLinks o s) {x1 x2} :
    SameLinksR o (execQuietRequest x1 x2 s) := by
  unfold execQuietRequest
  try dsimp only
  repeat' first
    | with_reducible assumption | with_reducible apply links_onMessage | with_reducible apply links_sendLm
    | with_reducible apply links_modQuiet | with_reducible apply SameLinksR.next | intro _ | split

theorem links_execQuietWorkPending {o s : State} (h : SameLinks o s) {x1} :
    SameLinksR o (execQuietWorkPending x1 s) := by
  unfold execQuietWorkPending
  repeat' first
    | with_reducible assumption | with_reducible apply links_beginAlert | with_reducible apply SameLinksR.next
    | intro _ | split

end Sys2Proof.Machine
end

