-- ==== Sys2Proof/Laws/SameLinksPort.lean ====
section
/-! SUPPORT. The operations of the host link, the start record, wake and the channel items that leave every link state. -/

namespace Sys2Proof.Machine

theorem links_wakeMatch {o s : State} (h : SameLinks o s) {x2} :
    SameLinks o (State.wakeMatch s x2) := by
  unfold State.wakeMatch
  repeat' first
    | with_reducible assumption | with_reducible apply links_modChan | with_reducible apply links_writeWake
    | with_reducible apply SameLinks.around | rw [mk_around] | with_reducible rfl | exact Nat.le_refl _ | intro _
    | split

theorem links_wakeMatches {o s : State} (h : SameLinks o s) {x1} :
    SameLinks o (wakeMatches x1 s) := by
  fun_induction wakeMatches x1 s
  repeat' first
    | with_reducible assumption | with_reducible refine (‹SameLinks o _ → SameLinks o _›) ?_
    | with_reducible apply links_wakeMatch

theorem links_wakeRecords {o s : State} (h : SameLinks o s) {x2} :
    SameLinks o (State.wakeRecords s x2) := by
  unfold State.wakeRecords
  repeat' first
    | with_reducible assumption | with_reducible apply links_wakeMatches
    | with_reducible refine SameLinks.chans ?_ (chans_writeBuffered (SameChans.refl _))
    | with_reducible refine SameLinks.chans ?_ (chans_releaseWake (SameChans.refl _)) | intro _ | split

theorem links_writeStart {o s : State} (h : SameLinks o s) {x2} :
    SameLinks o (State.writeStart s x2) := by
  unfold State.writeStart
  repeat' first
    | with_reducible assumption | with_reducible apply links_wakeRecords
    | with_reducible refine SameLinks.chans ?_ (chans_modRings (SameChans.refl _))
    | with_reducible refine SameLinks.chans ?_ (chans_record (SameChans.refl _))
    | with_reducible refine SameLinks.chans ?_ (chans_setTelem (SameChans.refl _))
    | with_reducible apply SameLinks.around | rw [mk_around] | with_reducible rfl | exact Nat.le_refl _ | intro _
    | split

theorem links_owedStart {o s} (h : SameLinks o s) {x2} :
    SameLinks o (State.owedStart s x2) := by
  unfold State.owedStart
  try dsimp only
  repeat' first
    | with_reducible assumption | with_reducible apply links_writeStart | intro _ | split

theorem links_trained {o s : State} (h : SameLinks o s) {x2} :
    SameLinks o (State.trained s x2) := by
  unfold State.trained
  try dsimp only
  repeat' first
    | with_reducible assumption | with_reducible apply links_owedStart
    | with_reducible refine SameLinks.chans ?_ (chans_bringUp (SameChans.refl _)) | intro _ | split

theorem links_alignOn {o s} (h : SameLinks o s) {x2 x3} :
    SameLinks o (State.alignOn s x2 x3) := by
  unfold State.alignOn
  try dsimp only
  repeat' first
    | with_reducible assumption | with_reducible apply links_trained | with_reducible apply links_advance
    | with_reducible refine SameLinks.chans ?_ (chans_setLink (SameChans.refl _)) | with_reducible rfl
    | with_reducible apply SameLinks.around | rw [mk_around] | intro _ | split

theorem links_execAlignRow {o s : State} (h : SameLinks o s) {x1 x2} :
    SameLinksR o (execAlignRow x1 x2 s) := by
  unfold execAlignRow
  try dsimp only
  repeat' first
    | with_reducible assumption | with_reducible apply links_alignOn | with_reducible apply SameLinksR.next
    | with_reducible refine SameLinks.chans ?_ (chans_setLink (SameChans.refl _)) | intro _ | split

theorem links_modWake {o s : State} (h : SameLinks o s) {x2 x3} :
    SameLinks o (State.modWake s x2 x3) := by
  unfold State.modWake
  repeat' first
    | with_reducible assumption | with_reducible apply links_modChan | with_reducible apply SameLinks.around
    | rw [mk_around] | with_reducible rfl | exact Nat.le_refl _ | intro _

theorem links_restoreWoken {o s : State} (h : SameLinks o s) {x2} :
    SameLinks o (State.restoreWoken s x2) := by
  unfold State.restoreWoken
  repeat' first
    | with_reducible assumption | with_reducible apply links_modWake

theorem links_woken {o s : State} (h : SameLinks o s) {x2 x3 x4} :
    SameLinks o (State.woken s x2 x3 x4) := by
  unfold State.woken
  try dsimp only
  repeat' first
    | with_reducible assumption | with_reducible apply links_modWake | with_reducible apply links_restoreWoken
    | with_reducible apply SameLinks.around | rw [mk_around] | with_reducible rfl | exact Nat.le_refl _ | intro _
    | split

theorem links_takeWakeFrame {o s} (h : SameLinks o s) {x2 x3 x4 x5} :
    SameLinks o (State.takeWakeFrame s x2 x3 x4 x5) := by
  unfold State.takeWakeFrame
  try dsimp only
  repeat' first
    | with_reducible assumption | with_reducible apply links_modWake | with_reducible apply links_woken
    | with_reducible rfl | with_reducible apply SameLinks.around | rw [mk_around] | intro _ | split

theorem links_execWakeFrameDecoded {o s} (h : SameLinks o s) {x1 x2 x3 x4 x5} :
    SameLinksR o (execWakeFrameDecoded x1 x2 x3 x4 x5 s) := by
  unfold execWakeFrameDecoded
  try dsimp only
  repeat' first
    | with_reducible assumption | with_reducible apply links_takeWakeFrame | with_reducible apply SameLinksR.next
    | intro _ | split

theorem links_channelItem {o s : State} (h : SameLinks o s) {x2 x3 x4 x5 x6} (k : ∀ t, SameLinks o t → SameLinksO o (x6 t)) :
    SameLinksO o (State.channelItem s x2 x3 x4 x5 x6) := by
  unfold State.channelItem
  repeat' first
    | with_reducible assumption | with_reducible apply k
    | with_reducible refine SameLinks.chans ?_ (chans_result (SameChans.refl _))
    | with_reducible refine SameLinks.chans ?_ (chans_startItem (SameChans.refl _))
    | with_reducible apply SameLinksO.ite | with_reducible apply SameLinksO.some
    | with_reducible exact SameLinksO.none | intro _

theorem links_stopSending {o s : State} (h : SameLinks o s) {x2} :
    SameLinks o (State.stopSending s x2) := by
  unfold State.stopSending
  try dsimp only
  repeat' first
    | with_reducible assumption | with_reducible apply links_modChan
    | with_reducible refine SameLinks.chans ?_ (chans_result (SameChans.refl _))
    | with_reducible apply SameLinksO.some | with_reducible exact SameLinksO.none | with_reducible rfl
    | with_reducible apply SameLinks.around | rw [mk_around] | exact rfl | intro _ | split

theorem links_execChannelQuiet {o s : State} (h : SameLinks o s) {x1 x2} :
    SameLinksR o (execChannelQuiet x1 x2 s) := by
  unfold execChannelQuiet
  repeat' first
    | with_reducible assumption | with_reducible apply links_onItem | with_reducible apply links_channelItem
    | with_reducible apply links_modQuiet | with_reducible refine SameLinks.chans ?_ (chans_result (SameChans.refl _))
    | with_reducible apply SameLinksO.ite | with_reducible apply SameLinksO.some
    | with_reducible exact SameLinksO.none | with_reducible apply SameLinksR.next | intro _ | split

theorem links_execMarginOverride {o s : State} (h : SameLinks o s) {x1 x2} :
    SameLinksR o (execMarginOverride x1 x2 s) := by
  unfold execMarginOverride
  repeat' first
    | with_reducible assumption | with_reducible apply links_modChan | with_reducible apply links_onItem
    | with_reducible apply links_channelItem
    | with_reducible refine SameLinks.chans ?_ (chans_result (SameChans.refl _))
    | with_reducible apply SameLinks.around | with_reducible apply SameLinksO.ite | rw [mk_around]
    | with_reducible apply SameLinksO.some | with_reducible exact SameLinksO.none
    | with_reducible apply SameLinksR.next | with_reducible rfl | exact Nat.le_refl _ | intro _ | split

end Sys2Proof.Machine
end

