-- ==== Sys2Proof/Laws/SameLinksTasks.lean ====
section
/-! SUPPORT. The operations of the background tasks, calibration, dormant entry and the clocks that leave every link state. -/

namespace Sys2Proof.Machine

theorem links_endSounding {o s : State} (h : SameLinks o s) {x2 x3} (k : ∀ t, SameLinks o t → SameLinks o (x3 t)) :
    SameLinks o (State.endSounding s x2 x3) := by
  unfold State.endSounding
  try dsimp only
  repeat' first
    | with_reducible assumption | with_reducible refine SameLinks.chans ?_ (chans_record (SameChans.refl _))
    | with_reducible refine SameLinks.chans ?_ (chans_writeBuffered (SameChans.refl _))
    | with_reducible refine SameLinks.chans ?_ (chans_settleTask (SameChans.refl _)) | with_reducible rfl
    | with_reducible apply SameLinks.around | rw [mk_around] | with_reducible apply k
    | with_reducible refine SameLinks.chans ?_ (chans_endTask (SameChans.refl _)) | exact Nat.le_refl _ | intro _
    | split

theorem links_startTask {o s} (h : SameLinks o s) {x2} :
    SameLinks o (State.startTask s x2) := by
  unfold State.startTask
  try dsimp only
  repeat' first
    | with_reducible assumption | with_reducible apply links_modChan
    | with_reducible refine SameLinks.chans ?_ (chans_setTask (SameChans.refl _))
    | with_reducible refine SameLinks.chans ?_ (chans_modCalib (SameChans.refl _))
    | with_reducible refine SameLinks.chans ?_ (chans_failCalibration (SameChans.refl _))
    | with_reducible refine SameLinks.chans ?_ (chans_endUnmeasured (SameChans.refl _)) | with_reducible rfl
    | with_reducible apply SameLinks.around | rw [mk_around] | exact rfl | intro _ | split

theorem links_beginScrub {o s} (h : SameLinks o s) :
    SameLinks o (State.beginScrub s) := by
  unfold State.beginScrub
  try dsimp only
  repeat' first
    | with_reducible assumption | with_reducible rfl | with_reducible apply SameLinks.around | rw [mk_around]
    | intro _ | split

theorem links_execBackgroundTaskStart {o s : State} (h : SameLinks o s) {x1} :
    SameLinksR o (execBackgroundTaskStart x1 s) := by
  unfold execBackgroundTaskStart
  try dsimp only
  repeat' first
    | with_reducible assumption | with_reducible apply links_startTask | with_reducible apply links_wakeRecords
    | with_reducible apply links_beginScrub
    | with_reducible refine SameLinks.chans ?_ (chans_telemetry (SameChans.refl _))
    | with_reducible apply SameLinksR.next | with_reducible apply SameLinksO.elim
    | with_reducible apply SameLinksO.some | with_reducible exact SameLinksO.none
    | with_reducible refine SameLinks.chans ?_ (chans_startTask (SameChans.refl _)) | intro _ | split

theorem links_discardDeep {o s : State} (h : SameLinks o s) {x2 x3} :
    SameLinks o (State.discardDeep s x2 x3) := by
  unfold State.discardDeep
  try dsimp only
  repeat' first
    | with_reducible assumption | with_reducible apply links_discardQueue
    | with_reducible refine SameLinks.chans ?_ (chans_modRings (SameChans.refl _))
    | with_reducible refine SameLinks.chans ?_ (chans_modQueue (SameChans.refl _)) | intro _ | split

theorem links_discardAllDeep {o s : State} (h : SameLinks o s) {x1 x2} :
    SameLinks o (discardAllDeep x1 x2 s) := by
  fun_induction discardAllDeep x1 x2 s
  repeat' first
    | with_reducible assumption | with_reducible refine (‹SameLinks o _ → SameLinks o _›) ?_
    | with_reducible apply links_discardDeep

theorem links_enterDormant {o s : State} (h : SameLinks o s) {x2 x3 x4 x5} :
    SameLinks o (State.enterDormant s x2 x3 x4 x5) := by
  unfold State.enterDormant
  extract_lets s1 s2 s3 s4
  have h2 : SameLinks o s2 := h.chans (chans_dropSoundings (chans_cutPost (chans_abandonCalibration (SameChans.refl _))))
  have h3 : SameLinks o s3 := by
    simp only [s3]
    split
    · exact h2
    · exact links_discardAllDeep h2
  exact (h3.chans (chans_result (chans_settleSoundings (chans_writeBuffered (chans_writeBuffered (chans_enteredRecord
    (chans_enteredRecord (SameChans.refl _)))))))).around

theorem links_resumeWoken {o s : State} (h : SameLinks o s) {x2} :
    SameLinks o (State.resumeWoken s x2) := by
  unfold State.resumeWoken
  try dsimp only
  repeat' first
    | with_reducible assumption | with_reducible apply links_restoreWoken | intro _ | split

theorem links_execDormantEntryAfterStore {o s : State} (h : SameLinks o s) {x1 x2 x3} :
    SameLinksR o (execDormantEntryAfterStore x1 x2 x3 s) := by
  unfold execDormantEntryAfterStore
  repeat' first
    | with_reducible assumption | with_reducible apply links_enterDormant | with_reducible apply SameLinksR.next
    | intro _ | split

end Sys2Proof.Machine
end

