-- ==== Sys2Proof/Laws/SameLinksTarget.lean ====
section
/-! SUPPORT. The operations of the target side, windows and host-read completions that leave every link state. -/

namespace Sys2Proof.Machine

theorem links_refuse {o s : State} (h : SameLinks o s) {x2 x3 x4} :
    SameLinks o (State.refuse s x2 x3 x4) := by
  unfold State.refuse
  repeat' first
    | with_reducible assumption | with_reducible apply links_respond

theorem links_refuseCount {o s : State} (h : SameLinks o s) {x2 x3 x4 x5} :
    SameLinks o (State.refuseCount s x2 x3 x4 x5) := by
  unfold State.refuseCount
  repeat' first
    | with_reducible assumption | with_reducible apply links_refuse
    | with_reducible refine SameLinks.chans ?_ (chans_occurChan (SameChans.refl _))

theorem links_refuseReq {o s : State} (h : SameLinks o s) {x2 x3 x4} :
    SameLinks o (State.refuseReq s x2 x3 x4) := by
  unfold State.refuseReq
  repeat' first
    | with_reducible assumption | with_reducible apply links_refuse | with_reducible apply links_refuseCount
    | with_reducible refine SameLinks.chans ?_ (chans_endReq (SameChans.refl _)) | split

theorem links_perform {o s : State} (h : SameLinks o s) {x2 x3} :
    SameLinks o (State.perform s x2 x3) := by
  unfold State.perform
  try dsimp only
  repeat' first
    | with_reducible assumption | with_reducible apply links_refuseReq
    | with_reducible refine SameLinks.chans ?_ (chans_writePieces (SameChans.refl _))
    | with_reducible refine SameLinks.chans ?_ (chans_endReq (SameChans.refl _))
    | with_reducible refine SameLinks.chans ?_ (chans_checkFixity (SameChans.refl _))
    | with_reducible refine SameLinks.chans ?_ (chans_hostRead (SameChans.refl _))
    | with_reducible refine SameLinks.chans ?_ (chans_modReq (SameChans.refl _))
    | with_reducible refine SameLinks.chans ?_ (chans_readPieces (SameChans.refl _)) | intro _ | split

theorem links_wakeAtomics {o s : State} (h : SameLinks o s) {x1} :
    SameLinks o (wakeAtomics x1 s) := by
  fun_induction wakeAtomics x1 s
  repeat' first
    | with_reducible assumption | with_reducible refine (‹SameLinks o _ → SameLinks o _›) ?_
    | with_reducible apply links_perform

theorem links_atomicFenced {o s : State} (h : SameLinks o s) {x2} :
    SameLinks o (State.atomicFenced s x2) := by
  unfold State.atomicFenced
  repeat' first
    | with_reducible assumption | with_reducible apply links_wakeAtomics | with_reducible apply links_respond
    | with_reducible refine SameLinks.chans ?_ (chans_endReq (SameChans.refl _))
    | with_reducible refine SameLinks.chans ?_ (chans_setDedup (SameChans.refl _))
    | with_reducible apply SameLinks.foldl | intro _ | split

theorem links_failReq {o s : State} (h : SameLinks o s) {x2 x3 x4} :
    SameLinks o (State.failReq s x2 x3 x4) := by
  unfold State.failReq
  repeat' first
    | with_reducible assumption | with_reducible apply links_refuseReq
    | with_reducible refine SameLinks.chans ?_ (chans_dropDedup (SameChans.refl _))
    | with_reducible apply SameLinks.foldl | intro _

theorem links_flushFenced {o s : State} (h : SameLinks o s) {x2 x3} :
    SameLinks o (State.flushFenced s x2 x3) := by
  unfold State.flushFenced
  repeat' first
    | with_reducible assumption | with_reducible apply links_respond
    | with_reducible refine SameLinks.chans ?_ (chans_endReq (SameChans.refl _)) | split

theorem links_onRequest {o s : State} (h : SameLinks o s) {x2 x3 x4 x5} (k : ∀ i t, SameLinks o t → SameLinks o (x5 i t)) :
    SameLinks o (State.onRequest s x2 x3 x4 x5) := by
  unfold State.onRequest
  repeat' first
    | with_reducible assumption | with_reducible apply k | with_reducible exact links_takePacket h (by assumption)
    | with_reducible apply links_refuse | intro _ | split

theorem links_pageAbsent {o s : State} (h : SameLinks o s) {x2 x3 x4} :
    SameLinks o (State.pageAbsent s x2 x3 x4) := by
  unfold State.pageAbsent
  try dsimp only
  repeat' first
    | with_reducible assumption | with_reducible apply links_failReq
    | with_reducible refine SameLinks.chans ?_ (chans_reportPage (SameChans.refl _))
    | with_reducible refine SameLinks.chans ?_ (chans_hold (SameChans.refl _)) | intro _ | split

theorem links_translate {o s : State} (h : SameLinks o s) {x2} :
    SameLinks o (State.translate s x2) := by
  unfold State.translate
  repeat' first
    | with_reducible assumption | with_reducible apply links_perform
    | with_reducible refine SameLinks.chans ?_ (chans_hostRead (SameChans.refl _))
    | with_reducible refine SameLinks.chans ?_ (chans_modReq (SameChans.refl _)) | split

theorem links_passed {o s : State} (h : SameLinks o s) {x2 x3} :
    SameLinks o (State.passed s x2 x3) := by
  unfold State.passed
  try dsimp only
  repeat' first
    | with_reducible assumption | with_reducible apply links_translate | with_reducible apply links_respond
    | with_reducible refine SameLinks.chans ?_ (chans_endReq (SameChans.refl _))
    | with_reducible refine SameLinks.chans ?_ (chans_modReq (SameChans.refl _))
    | with_reducible refine SameLinks.chans ?_ (chans_setDedup (SameChans.refl _)) | intro _ | split

theorem links_readPart {o s : State} (h : SameLinks o s) {x2 x3 x4} :
    SameLinks o (State.readPart s x2 x3 x4) := by
  unfold State.readPart
  repeat' first
    | with_reducible assumption | with_reducible apply links_respond
    | with_reducible refine SameLinks.chans ?_ (chans_endReq (SameChans.refl _))
    | with_reducible refine SameLinks.chans ?_ (chans_modReq (SameChans.refl _)) | intro _ | split

theorem links_reqReadFailed {o s : State} (h : SameLinks o s) {x2} :
    SameLinks o (State.reqReadFailed s x2) := by
  unfold State.reqReadFailed
  repeat' first
    | with_reducible assumption | with_reducible apply links_wakeAtomics | with_reducible apply links_failReq | split

theorem links_walk {o s : State} (h : SameLinks o s) {x2} :
    SameLinks o (State.walk s x2) := by
  unfold State.walk
  repeat' first
    | with_reducible assumption | with_reducible apply links_refuseReq
    | with_reducible refine SameLinks.chans ?_ (chans_hostRead (SameChans.refl _))
    | with_reducible refine SameLinks.chans ?_ (chans_modReq (SameChans.refl _)) | split

theorem links_walkedDesc {o s : State} (h : SameLinks o s) {x2 x3} :
    SameLinks o (State.walkedDesc s x2 x3) := by
  unfold State.walkedDesc
  try dsimp only
  repeat' first
    | with_reducible assumption | with_reducible apply links_walk | with_reducible apply links_passed
    | with_reducible apply links_failReq | intro _ | split

theorem links_walkedEntry {o s : State} (h : SameLinks o s) {x2 x3 x4} :
    SameLinks o (State.walkedEntry s x2 x3 x4) := by
  unfold State.walkedEntry
  try dsimp only
  repeat' first
    | with_reducible assumption | with_reducible apply links_pageAbsent | with_reducible apply links_translate
    | with_reducible apply links_walk | with_reducible apply links_failReq
    | with_reducible refine SameLinks.chans ?_ (chans_modReq (SameChans.refl _))
    | with_reducible refine SameLinks.chans ?_ (chans_install (SameChans.refl _)) | intro _ | split

theorem links_windowRequest {o s : State} (h : SameLinks o s) {x2 x3 x4} :
    SameLinks o (State.windowRequest s x2 x3 x4) := by
  unfold State.windowRequest
  try dsimp only
  repeat' first
    | with_reducible assumption | with_reducible apply links_refuseReq | with_reducible apply links_walk
    | with_reducible apply links_refuseCount | with_reducible apply links_passed
    | with_reducible refine SameLinks.chans ?_ (chans_touch (SameChans.refl _))
    | with_reducible refine SameLinks.chans ?_ (chans_modReq (SameChans.refl _))
    | with_reducible refine SameLinks.chans ?_ (chans_addReq (SameChans.refl _)) | intro _ | split

theorem links_execAtomicRequest {o s : State} (h : SameLinks o s) {x1 x2} :
    SameLinksR o (execAtomicRequest x1 x2 s) := by
  unfold execAtomicRequest
  repeat' first
    | with_reducible assumption | with_reducible apply links_onRequest | with_reducible apply links_windowRequest
    | with_reducible apply SameLinksR.next | intro _

theorem links_execFlushRequest {o s : State} (h : SameLinks o s) {x1 x2} :
    SameLinksR o (execFlushRequest x1 x2 s) := by
  unfold execFlushRequest
  repeat' first
    | with_reducible assumption | with_reducible apply links_onRequest
    | with_reducible refine SameLinks.chans ?_ (chans_afterReq (SameChans.refl _))
    | with_reducible refine SameLinks.chans ?_ (chans_addReq (SameChans.refl _))
    | with_reducible apply SameLinksR.next | intro _

theorem links_execReadRequest {o s : State} (h : SameLinks o s) {x1 x2} :
    SameLinksR o (execReadRequest x1 x2 s) := by
  unfold execReadRequest
  repeat' first
    | with_reducible assumption | with_reducible apply links_onRequest | with_reducible apply links_windowRequest
    | with_reducible apply SameLinksR.next | intro _

theorem links_execStallLimitExpiry {o s : State} (h : SameLinks o s) {x1} :
    SameLinksR o (execStallLimitExpiry x1 s) := by
  unfold execStallLimitExpiry
  repeat' first
    | with_reducible assumption | with_reducible apply links_failReq | with_reducible apply SameLinksR.next | intro _
    | split

theorem links_execWritePacket {o s : State} (h : SameLinks o s) {x1 x2} :
    SameLinksR o (execWritePacket x1 x2 s) := by
  unfold execWritePacket
  repeat' first
    | with_reducible assumption | with_reducible apply links_onRequest | with_reducible apply links_windowRequest
    | with_reducible apply SameLinksR.next | intro _

theorem links_truncate {o s : State} (h : SameLinks o s) {x2} :
    SameLinks o (State.truncate s x2) := by
  unfold State.truncate
  repeat' first
    | with_reducible assumption | with_reducible apply links_signal
    | with_reducible refine SameLinks.chans ?_ (chans_occurQueue (SameChans.refl _))
    | with_reducible refine SameLinks.chans ?_ (chans_modMessage (SameChans.refl _))
    | with_reducible refine SameLinks.chans ?_ (chans_drainEvent (SameChans.refl _))
    | with_reducible refine SameLinks.chans ?_ (chans_closeItem (SameChans.refl _))

theorem links_drainEnd {o s : State} (h : SameLinks o s) {x2} :
    SameLinks o (State.drainEnd s x2) := by
  unfold State.drainEnd
  repeat' first
    | with_reducible assumption | with_reducible apply links_signal
    | with_reducible refine SameLinks.chans ?_ (chans_dropMessage (SameChans.refl _))
    | with_reducible refine SameLinks.chans ?_ (chans_drainEvent (SameChans.refl _))
    | with_reducible refine SameLinks.chans ?_ (chans_closeItem (SameChans.refl _)) | intro _ | split

theorem links_drainNext {o s : State} (h : SameLinks o s) {x2 x3 x4} :
    SameLinks o (State.drainNext s x2 x3 x4) := by
  unfold State.drainNext
  repeat' first
    | with_reducible assumption | with_reducible apply links_drainEnd
    | with_reducible refine SameLinks.chans ?_ (chans_modMessage (SameChans.refl _)) | intro _ | split

theorem links_drainChunk {o s : State} (h : SameLinks o s) {x2 x3 x4 x5} :
    SameLinks o (State.drainChunk s x2 x3 x4 x5) := by
  unfold State.drainChunk
  try dsimp only
  repeat' first
    | with_reducible assumption | with_reducible apply links_truncate | with_reducible apply links_drainNext
    | with_reducible apply links_refuse | with_reducible apply links_signal
    | with_reducible refine SameLinks.chans ?_ (chans_dropMessage (SameChans.refl _))
    | with_reducible refine SameLinks.chans ?_ (chans_checkFixity (SameChans.refl _))
    | with_reducible refine SameLinks.chans ?_ (chans_drainRoom (SameChans.refl _))
    | with_reducible refine SameLinks.chans ?_ (chans_withOffer (SameChans.refl _))
    | with_reducible refine SameLinks.chans ?_ (chans_hostWrite (SameChans.refl _))
    | with_reducible refine SameLinks.chans ?_ (chans_closeItem (SameChans.refl _))
    | with_reducible refine SameLinks.chans ?_ (chans_modStream (SameChans.refl _))
    | with_reducible refine SameLinks.chans ?_ (chans_streamRecord (SameChans.refl _)) | split

theorem links_placeChunk {o s : State} (h : SameLinks o s) {x2 x3 x4 x5 x6} :
    SameLinks o (State.placeChunk s x2 x3 x4 x5 x6) := by
  unfold State.placeChunk
  try dsimp only
  repeat' first
    | with_reducible assumption | with_reducible apply links_refuse | with_reducible apply links_signal
    | with_reducible refine SameLinks.chans ?_ (chans_dropMessage (SameChans.refl _))
    | with_reducible refine SameLinks.chans ?_ (chans_complete (SameChans.refl _))
    | with_reducible refine SameLinks.chans ?_ (chans_checkFixity (SameChans.refl _))
    | with_reducible refine SameLinks.chans ?_ (chans_unclaim (SameChans.refl _))
    | with_reducible refine SameLinks.chans ?_ (chans_hostWrite (SameChans.refl _))
    | with_reducible refine SameLinks.chans ?_ (chans_fence (SameChans.refl _))
    | with_reducible refine SameLinks.chans ?_ (chans_modMessage (SameChans.refl _)) | split

theorem links_notReady {o s : State} (h : SameLinks o s) {x2 x3 x4 x5} :
    SameLinks o (State.notReady s x2 x3 x4 x5) := by
  unfold State.notReady
  repeat' first
    | with_reducible assumption | with_reducible apply links_refuse
    | with_reducible refine SameLinks.chans ?_ (chans_occurQueue (SameChans.refl _))

theorem links_firstPacket {o s : State} (h : SameLinks o s) {x2 x3 x4} :
    SameLinks o (State.firstPacket s x2 x3 x4) := by
  unfold State.firstPacket
  try dsimp only
  repeat' first
    | with_reducible assumption | with_reducible apply links_placeChunk | with_reducible apply links_notReady
    | with_reducible apply links_drainChunk | with_reducible apply links_refuseCount
    | with_reducible refine SameLinks.chans ?_ (chans_withOffer (SameChans.refl _))
    | with_reducible refine SameLinks.chans ?_ (chans_claim (SameChans.refl _))
    | with_reducible refine SameLinks.chans ?_ (chans_modStream (SameChans.refl _))
    | with_reducible refine SameLinks.chans ?_ (chans_modTransport (SameChans.refl _)) | intro _ | split

theorem links_messageFenced {o s : State} (h : SameLinks o s) {x2 x3 x4 x5} :
    SameLinks o (State.messageFenced s x2 x3 x4 x5) := by
  unfold State.messageFenced
  repeat' first
    | with_reducible assumption | with_reducible apply links_signal
    | with_reducible refine SameLinks.chans ?_ (chans_dropMessage (SameChans.refl _))
    | with_reducible refine SameLinks.chans ?_ (chans_complete (SameChans.refl _))
    | with_reducible refine SameLinks.chans ?_ (chans_unclaim (SameChans.refl _)) | intro _ | split

theorem links_execMessagePacket {o s : State} (h : SameLinks o s) {x1 x2} :
    SameLinksR o (execMessagePacket x1 x2 s) := by
  unfold execMessagePacket
  repeat' first
    | with_reducible assumption | with_reducible apply links_onRequest | with_reducible apply links_placeChunk
    | with_reducible apply links_firstPacket | with_reducible apply links_drainChunk
    | with_reducible refine SameLinks.chans ?_ (chans_dropMessage (SameChans.refl _))
    | with_reducible apply SameLinksR.next | intro _ | split

theorem links_rewalk {o s : State} (h : SameLinks o s) {x1 x2} :
    SameLinks o (rewalk x1 x2 s) := by
  fun_induction rewalk x1 x2 s
  repeat' first
    | with_reducible assumption | with_reducible refine (‹SameLinks o _ → SameLinks o _›) ?_
    | with_reducible apply links_translate | intro _ | split

theorem links_readyRead {o s : State} (h : SameLinks o s) {x2 x3 x4 x5 x6 x7 x8 x9} :
    SameLinks o (State.readyRead s x2 x3 x4 x5 x6 x7 x8 x9) := by
  unfold State.readyRead
  try dsimp only
  repeat' first
    | with_reducible assumption | with_reducible apply links_rewalk
    | with_reducible refine SameLinks.chans ?_ (chans_windowRefused (SameChans.refl _))
    | with_reducible refine SameLinks.chans ?_ (chans_invalidate (SameChans.refl _))
    | with_reducible refine SameLinks.chans ?_ (chans_modTransport (SameChans.refl _))
    | with_reducible refine SameLinks.chans ?_ (chans_stales (SameChans.refl _))
    | with_reducible refine SameLinks.chans ?_ (chans_drain (SameChans.refl _)) | intro _ | split

theorem links_refuseAll {o s : State} (h : SameLinks o s) {x1 x2} :
    SameLinks o (refuseAll x1 x2 s) := by
  fun_induction refuseAll x1 x2 s
  repeat' first
    | with_reducible assumption | with_reducible refine (‹SameLinks o _ → SameLinks o _›) ?_
    | with_reducible apply links_failReq

theorem links_revokeRead {o s : State} (h : SameLinks o s) {x2 x3 x4 x5 x6 x7} :
    SameLinks o (State.revokeRead s x2 x3 x4 x5 x6 x7) := by
  unfold State.revokeRead
  dsimp only
  refine SameLinks.ite (fun _ => h.chans (chans_windowRefused (SameChans.refl _))) (fun _ => ?_)
  refine SameLinks.ite (fun _ => h.chans (chans_result (SameChans.refl _))) (fun _ => ?_)
  refine SameLinks.ite (fun _ => h.chans (chans_windowRefused (SameChans.refl _))) (fun _ => ?_)
  exact links_refuseAll (h.chans (chans_drain (chans_stales (chans_invalidate (chans_writeWindow (SameChans.refl _))))))

theorem links_leaveStart {o s : State} (h : SameLinks o s) {x2} :
    SameLinks o (State.leaveStart s x2) := by
  unfold State.leaveStart
  repeat' first
    | with_reducible assumption | with_reducible apply links_modChan | with_reducible apply SameLinks.around
    | rw [mk_around] | with_reducible rfl | exact Nat.le_refl _ | intro _ | split

theorem links_startChannels {o s : State} (h : SameLinks o s) {x2} :
    SameLinks o (State.startChannels s x2) := by
  unfold State.startChannels
  repeat' first
    | with_reducible assumption | with_reducible apply links_leaveStart | with_reducible apply links_eachChan
    | intro _ | split

theorem links_anchorRead {o s : State} (h : SameLinks o s) {p addr b} :
    SameLinks o (State.anchorRead s p addr b) := by
  unfold State.anchorRead
  dsimp only
  split
  · exact h.chans (chans_sendReply (SameChans.refl _))
  · split
    · exact links_startChannels (links_writeStart (h.chans (chans_sendReply (chans_hostWrite (chans_modRings (SameChans.refl _))))))
    · exact h.chans (chans_sendReply (chans_modRings (SameChans.refl _)))

theorem links_delivered {o s : State} (h : SameLinks o s) {x2 x3 x4} :
    SameLinks o (State.delivered s x2 x3 x4) := by
  unfold State.delivered
  repeat' first
    | with_reducible assumption | with_reducible apply links_readPart | with_reducible apply links_messageFenced
    | with_reducible apply links_walkedEntry | with_reducible apply links_flushFenced
    | with_reducible apply links_chunkPart | with_reducible apply links_readyRead
    | with_reducible apply links_revokeRead | with_reducible apply links_atomicFenced
    | with_reducible apply links_walkedDesc | with_reducible apply links_anchorRead
    | with_reducible refine SameLinks.chans ?_ (chans_openRead (SameChans.refl _))
    | with_reducible refine SameLinks.chans ?_ (chans_drainFenced (SameChans.refl _))
    | with_reducible refine SameLinks.chans ?_ (chans_assertInt (SameChans.refl _))
    | with_reducible refine SameLinks.chans ?_ (chans_firebreakDone (SameChans.refl _))
    | with_reducible refine SameLinks.chans ?_ (chans_atomicRead (SameChans.refl _))
    | with_reducible refine SameLinks.chans ?_ (chans_fetchDone (SameChans.refl _)) | split

theorem links_undelivered {o s : State} (h : SameLinks o s) {x2 x3} :
    SameLinks o (State.undelivered s x2 x3) := by
  unfold State.undelivered
  repeat' first
    | with_reducible assumption | with_reducible apply links_reqReadFailed | with_reducible apply links_messageFenced
    | with_reducible apply links_flushFenced | with_reducible apply links_chunkReadFailed
    | with_reducible refine SameLinks.chans ?_ (chans_windowRefused (SameChans.refl _))
    | with_reducible refine SameLinks.chans ?_ (chans_anchorFailed (SameChans.refl _))
    | with_reducible refine SameLinks.chans ?_ (chans_fetchFailed (SameChans.refl _))
    | with_reducible refine SameLinks.chans ?_ (chans_drainFenced (SameChans.refl _))
    | with_reducible refine SameLinks.chans ?_ (chans_assertInt (SameChans.refl _))
    | with_reducible refine SameLinks.chans ?_ (chans_firebreakDone (SameChans.refl _)) | split

theorem links_readFailed {o s : State} (h : SameLinks o s) {x2 x3} :
    SameLinks o (State.readFailed s x2 x3) := by
  unfold State.readFailed
  repeat' first
    | with_reducible assumption | with_reducible apply links_undelivered
    | with_reducible refine SameLinks.chans ?_ (chans_hostLinkError (SameChans.refl _))
    | with_reducible refine SameLinks.chans ?_ (chans_pump (SameChans.refl _))

theorem links_actCompletion {o s : State} (h : SameLinks o s) {x2 x3 x4 x5} :
    SameLinks o (State.actCompletion s x2 x3 x4 x5) := by
  unfold State.actCompletion
  repeat' first
    | with_reducible assumption | with_reducible apply links_delivered | with_reducible apply links_readFailed
    | with_reducible refine SameLinks.chans ?_ (chans_modLink (SameChans.refl _))
    | with_reducible refine SameLinks.chans ?_ (chans_hostLinkError (SameChans.refl _))
    | with_reducible refine SameLinks.chans ?_ (chans_pump (SameChans.refl _)) | intro _ | split

theorem links_actHeld {o s : State} (h : SameLinks o s) {x2 x3} :
    SameLinks o (State.actHeld s x2 x3) := by
  unfold State.actHeld
  try dsimp only
  repeat' first
    | with_reducible assumption | with_reducible apply links_actCompletion
    | with_reducible refine SameLinks.chans ?_ (chans_actWorkDoorbell (SameChans.refl _))
    | with_reducible refine SameLinks.chans ?_ (chans_returnCredit (SameChans.refl _))
    | with_reducible refine SameLinks.chans ?_ (chans_actConsumedDoorbell (SameChans.refl _))
    | with_reducible refine SameLinks.chans ?_ (chans_actAnchor (SameChans.refl _))
    | with_reducible refine SameLinks.chans ?_ (chans_ignoreFrame (SameChans.refl _)) | intro _ | split

theorem links_actHeldList {o s : State} (h : SameLinks o s) {x1 x2} :
    SameLinks o (actHeldList x1 x2 s) := by
  fun_induction actHeldList x1 x2 s
  repeat' first
    | with_reducible assumption | with_reducible refine (‹SameLinks o _ → SameLinks o _›) ?_
    | with_reducible apply links_actHeld

theorem links_actAllHeld {o s : State} (h : SameLinks o s) {x2} :
    SameLinks o (State.actAllHeld s x2) := by
  unfold State.actAllHeld
  repeat' first
    | with_reducible assumption | with_reducible apply links_actHeldList
    | with_reducible refine SameLinks.chans ?_ (chans_modLink (SameChans.refl _)) | split

theorem links_execReadCompletion {o s : State} (h : SameLinks o s) {x1 x2 x3 x4 x5} :
    SameLinksR o (execReadCompletion x1 x2 x3 x4 x5 s) := by
  unfold execReadCompletion
  repeat' first
    | with_reducible assumption | with_reducible apply links_onFrame | with_reducible apply links_actCompletion
    | with_reducible refine SameLinks.chans ?_ (chans_modLink (SameChans.refl _))
    | with_reducible apply SameLinksR.next | intro _ | split

theorem links_execReadCompletionTimeout {o s : State} (h : SameLinks o s) {x1 x2} :
    SameLinksR o (execReadCompletionTimeout x1 x2 s) := by
  unfold execReadCompletionTimeout
  repeat' first
    | with_reducible assumption | with_reducible apply links_readFailed
    | with_reducible refine SameLinks.chans ?_ (chans_modLink (SameChans.refl _))
    | with_reducible apply SameLinksR.next | intro _ | split

end Sys2Proof.Machine
end

