-- ==== Sys2Proof/Laws/SameLinksStart.lean ====
section
/-! SUPPORT. The operations of the schedule and start-up that leave every link state. -/

namespace Sys2Proof.Machine

theorem links_countSuperframe {o s : State} (h : SameLinks o s) {x2} :
    SameLinks o (State.countSuperframe s x2) := by
  unfold State.countSuperframe
  repeat' first
    | with_reducible assumption | with_reducible apply links_modQuality | intro _ | split

theorem links_loseStaged {o s : State} (h : SameLinks o s) {x2 x3} :
    SameLinks o (State.loseStaged s x2 x3) := by
  unfold State.loseStaged
  repeat' first
    | with_reducible assumption | with_reducible apply links_failChunk | with_reducible apply links_advance
    | with_reducible refine SameLinks.chans ?_ (chans_modOp (SameChans.refl _))
    | with_reducible refine SameLinks.chans ?_ (chans_occurChan (SameChans.refl _)) | intro _ | split

theorem links_nextSlot {o s : State} (h : SameLinks o s) :
    SameLinks o (State.nextSlot s) := by
  unfold State.nextSlot
  repeat' first
    | with_reducible assumption | with_reducible apply links_eachChan | with_reducible apply links_countSuperframe
    | with_reducible apply SameLinks.around | rw [mk_around] | with_reducible rfl | exact Nat.le_refl _ | intro _
    | split

end Sys2Proof.Machine
end

