-- ==== Sys2Proof/Laws/Moves.lean ====
section
/-! SUPPORT. Where a channel stands after each way of moving between link states. -/

namespace Sys2Proof.Machine

theorem setChan_chan_if (s : State) (c d : ChanId) (x : Chan) : (s.setChan c x).chan d = if d = c then x else s.chan d := by
  split
  · next e => subst e; exact tab_get_set _ _ _ _
  · next e => exact tab_get_set_ne _ _ _ _ _ (fun y => e (Fin.ext y))

theorem modChan_chan_if (s : State) (c d : ChanId) (f : Chan → Chan) :
    (s.modChan c f).chan d = if d = c then f (s.chan c) else s.chan d :=
  setChan_chan_if s c d _

/-- Entering a state moves that channel's link state and no other's. -/
theorem move_link (s : State) (c : ChanId) (new : LinkState) (r : Nat) (d : ChanId) :
    ((s.move c new r).chan d).link = if d = c then new else (s.chan d).link := by
  unfold State.move
  dsimp only
  have h1 : SameLinks s (if (new.ends && ((s.chan c).link.counts || (s.chan c).link == .fast)) = true
      then s.closeQuality c else s) :=
    SameLinks.ite (fun _ => links_closeQuality (SameLinks.refl s)) (fun _ => SameLinks.refl s)
  generalize (if (new.ends && ((s.chan c).link.counts || (s.chan c).link == .fast)) = true
      then s.closeQuality c else s) = s1 at h1 ⊢
  have h2 : SameLinks s (if new.ends = true then s1.dropLink c
      else if ((s.chan c).link.counts && (new == .fast || new == .hold)) = true then s1.modRetry c Retry.suspend
      else s1) :=
    SameLinks.ite (fun _ => links_dropLink h1)
      (fun _ => SameLinks.ite (fun _ => links_modRetry h1) (fun _ => h1))
  generalize (if new.ends = true then s1.dropLink c
      else if ((s.chan c).link.counts && (new == .fast || new == .hold)) = true then s1.modRetry c Retry.suspend
      else s1) = s2 at h2 ⊢
  have h3 : SameLinks ((s2.stopSending c).modChan c fun x => x.enter new) (((s2.stopSending c).modChan c fun x => x.enter new).breakSounding c new) :=
    (SameLinks.refl _).chans (chans_breakSounding (SameChans.refl _))
  have e3 : (((s2.stopSending c).modChan c fun x => x.enter new).chan d).link = if d = c then new else (s.chan d).link := by
    rw [modChan_chan_if]
    split
    · rfl
    · exact (links_stopSending h2).link d
  rw [← e3]
  refine SameLinks.link (o := (s2.stopSending c).modChan c fun x => x.enter new) ?_ d
  have h4 : SameLinks ((s2.stopSending c).modChan c fun x => x.enter new) (if new.recorded = true
      then (((s2.stopSending c).modChan c fun x => x.enter new).breakSounding c new).linkRecord c (s.chan c).link r
      else ((s2.stopSending c).modChan c fun x => x.enter new).breakSounding c new) :=
    SameLinks.ite (fun _ => h3.chans (chans_linkRecord (SameChans.refl _))) (fun _ => h3)
  generalize (if new.recorded = true
      then (((s2.stopSending c).modChan c fun x => x.enter new).breakSounding c new).linkRecord c (s.chan c).link r
      else ((s2.stopSending c).modChan c fun x => x.enter new).breakSounding c new) = s4 at h4 ⊢
  refine SameLinks.ite (fun _ => links_settle ?_) (fun _ => ?_)
  all_goals
    refine SameLinks.ite (fun _ => links_writeWake (SameLinks.chans ?_ (chans_occurChan (SameChans.refl _)))) (fun _ => ?_)
    all_goals
      split
      · exact h4.chans (chans_occurChan (SameChans.refl _))
      · exact h4

/-- A channel that arrives at a state other than SEARCH is in it, and no other has moved. -/
theorem arrive_link (s : State) (c : ChanId) {target : LinkState} (r : Nat) (h : target ≠ .search) (d : ChanId) :
    ((s.arrive c target r).chan d).link = if d = c then target else (s.chan d).link := by
  unfold State.arrive State.onRelease
  rw [if_neg h, ← move_link s c target r d]
  split
  · rw [modChan_chan_if]
    split
    · next e => rw [e]
    · rfl
  · rfl

/-- One that is to go to SEARCH waits for the epoch boundary where it stands. -/
theorem arrive_search (s : State) (c : ChanId) (r : Nat) (h : (s.chan c).wake.sleepItem = none) :
    s.arrive c .search r = s.modChan c fun x =>
      { x with bring := { x.bring with toSearch := some (BitVec.ofNat 8 r), leaving := none } } := by
  unfold State.arrive
  simp [h]

/-- Fast retrain begins from stored settings. -/
theorem beginFast_link (s : State) (c : ChanId) (r w : Nat) (x y : Option Sf) {v : Stored}
    (h : (s.chan c).stored = some v) (d : ChanId) :
    ((s.beginFast c r w x y).chan d).link = if d = c then .fast else (s.chan d).link := by
  unfold State.beginFast
  rw [h]
  dsimp only
  rw [modChan_chan_if]
  split
  · next e =>
    have m := move_link s c .fast r c
    rw [if_pos rfl] at m
    exact m
  · next e =>
    have m := move_link s c .fast r d
    rw [if_neg e] at m
    exact m

/-- A channel that has stored settings and is not leaving enters FAST. -/
theorem enterFast_link (s : State) (c : ChanId) (r : Nat) (x : Sf) {v : Stored} (h : (s.chan c).stored = some v)
    (k : (s.chan c).bring.leaving = none) (d : ChanId) :
    ((s.enterFast c r x).chan d).link = if d = c then .fast else (s.chan d).link := by
  unfold State.enterFast
  rw [k]
  exact beginFast_link s c r _ _ _ h d

end Sys2Proof.Machine
end

