-- ==== Sys2Proof/Laws/Reported.lean ====
section
/-! SUPPORT. What counting an occurrence and producing records change. -/

namespace Sys2Proof.Machine

theorem Reported.refl (s : State) : Reported s s :=
  ⟨rfl, fun _ => rfl, rfl, rfl⟩

theorem Reported.trans {s t u : State} (h : Reported s t) (k : Reported t u) : Reported s u := by
  refine ⟨?_, ?_, k.armed.trans h.armed, k.quiesced.trans h.quiesced⟩
  · rw [k.frame, h.frame]
  · intro p; rw [k.rings p, h.rings p]

/-- The fault side and ERR_N alone. -/
theorem Reported.faults (s : State) (f : Faults) (e : Bool) (h : f.armed = s.faults.armed)
    (k : f.quiesced = s.faults.quiesced) : Reported s { s with faults := f, pins := { s.pins with errLow := e } } :=
  ⟨rfl, fun p => by cases p <;> rfl, h, k⟩

theorem Reported.setFaults (s : State) (f : Faults) (h : f.armed = s.faults.armed)
    (k : f.quiesced = s.faults.quiesced) : Reported s { s with faults := f } :=
  Reported.faults s f s.pins.errLow h k

theorem reported_pushRecord (s : State) (n : NewRec) : Reported s (s.pushRecord n).2 := by
  unfold State.pushRecord
  dsimp only
  split
  · exact Reported.refl s
  · split
    · refine ⟨?_, ?_, ?_, ?_⟩
      · cases n.port <;> rfl
      · intro p; cases n.port <;> cases p <;> rfl
      · cases n.port <;> rfl
      · cases n.port <;> rfl
    · split
      · refine ⟨?_, ?_, ?_, ?_⟩
        · cases n.port <;> rfl
        · intro p; cases n.port <;> cases p <;> rfl
        · cases n.port <;> rfl
        · cases n.port <;> rfl
      · refine ⟨?_, ?_, ?_, ?_⟩
        · cases n.port <;> rfl
        · intro p; cases n.port <;> cases p <;> rfl
        · cases n.port <;> rfl
        · cases n.port <;> rfl

theorem reported_setSource (s : State) (k : Nat) (x : Source) : Reported s (s.setSource k x) :=
  Reported.setFaults s _ rfl rfl

theorem reported_reactFault (s : State) (i : Scope) (k : Nat) : Reported s (s.reactFault i k) := by
  unfold State.reactFault
  split
  · exact (Reported.setFaults _ _ rfl rfl).trans (Reported.setFaults _ _ rfl rfl)
  · exact Reported.setFaults _ _ rfl rfl

theorem reported_countOne (s : State) (k : Nat) (i : Option Scope) (a : Bytes) : Reported s (s.countOne k i a).2 := by
  unfold State.countOne
  extract_lets n r merged s1 s2 _ s3 m s4
  have h1 : Reported s s1 := reported_setSource s k r.2
  have h2 : Reported s s2 := by
    refine h1.trans ?_
    simp only [s2]
    split
    · split
      · exact reported_reactFault _ _ _
      · exact Reported.refl _
    · exact Reported.refl _
  have h3 : Reported s s3 := by
    refine h2.trans ?_
    simp only [s3]
    split
    · exact Reported.faults _ _ _ rfl rfl
    · exact Reported.refl _
  split
  · have h4 : Reported s s4 := h3.trans (reported_setSource _ _ _)
    split <;> exact h4
  · split <;> exact h3

theorem reported_produceList (n : Nat) (l : List NewRec) (s : State) : Reported s (produceList n l s) := by
  fun_induction produceList n l s with
  | case1 => exact Reported.refl _
  | case2 => exact Reported.refl _
  | case3 n x t s r h ih => exact (reported_pushRecord s _).trans ih
  | case4 n x t s r h o ih => exact ((reported_pushRecord s _).trans (reported_countOne _ _ _ _)).trans ih

theorem reported_occur (s : State) (k : Nat) (i : Option Scope) (a : Bytes) : Reported s (s.occur k i a) :=
  (reported_countOne s k i a).trans (reported_produceList _ _ _)

theorem reported_record (s : State) (p : Port) (k : Nat) (b : Bytes) : Reported s (s.record p k b) :=
  reported_produceList _ _ _

end Sys2Proof.Machine
end

