-- ==== Sys2Proof/WellFormed.lean ====
section
/-! DEFINITION. Well-formed commands: what a command takes from outside has the sizes and ranges that the spec gives it. The meanings
are total: a command that is not well formed still answers a next state; what such a command stands for the spec does not say. -/

namespace Sys2Proof

/-- A link-management message is the 251-byte payload of one codeword (R168). -/
def messageOk (msg : Bytes) : Bool :=
  msg.length == 251

/-- SNR values of the 59 data carriers (R164, R199). -/
def snrOk (l : List Int) : Bool :=
  l.length == 59

/-- Soft values of one codeword (R175). -/
def softOk (l : List Int) : Bool :=
  l.length == 2304 && l.all fun v => decide (-31 ≤ v) && decide (v ≤ 31)

/-- A packet: 32 header bytes and a payload of at most one chunk (R338, R341). -/
def packetOk (p : Packet) : Bool :=
  p.header.length == 32 && decide (p.payload.length ≤ 4096)

/-- The carrier of a call frame: 1 from a calling end, 3 from an answering one (R209). -/
def carrierOk (carrier : Nat) : Bool :=
  carrier == 1 || carrier == 3

/-- Ten coefficient copies, or none from a device without usable flash (R102). -/
def copiesOk (r : CoeffRead) : Bool :=
  r.copies.length == 10 || r.copies.isEmpty

/-- A noise-floor value for each data carrier (Table 11.2). -/
def noiseOk (noise : Bytes) : Bool :=
  noise.length == 59

/-- At most 64 bursts, and a level for each data carrier or none (Table 11.4). -/
def soundingOk (m : SoundingMeasured) : Bool :=
  decide (m.bursts ≤ 64) && (m.levels.isEmpty || m.levels.length == 59)

/-- A symbol period is 144 samples, or 59 data carriers and the pilot (R158, R191). -/
def receptionOk : Reception → Bool
  | .samples v => v.length == 144
  | .equalised y => y.length == 60

/-- The measured stems of a channel (R441, R442): 288 cells, 18 sub-converters, four comparator stems of each. -/
def stemsOk (m : StemsMeasured) : Bool :=
  m.cells.length == 288 && m.ratios.length == 18 && m.inRange.length == 18 && m.offsets.length == 18 &&
  m.offsets.all fun l => l.length == 4

/-- An error lies in one 64-bit word of an SRAM area (R440). -/
def sramOk (e : SramError) : Bool :=
  decide (e.addr < 2 ^ 32)

/-- Is a command well formed? -/
def Instr.wellFormed : Instr → Bool
  | .strapResistorStepEnd rm => rm.length == 7
  | .coefficientsLoaded prim mir _ _ => copiesOk prim && copiesOk mir
  | .slotTick slack late received errors => (slack.all fun e => decide (e.1 < 88)) && (late.all fun i => decide (i < 88)) &&
      (received.all fun e => receptionOk e.2) && errors.all sramOk
  | .sensorReading vcore temps => decide (vcore < 2 ^ 16) && temps.length == 9
  | .qualityPeriodBoundary _ m => m.noise.isEmpty || noiseOk m.noise
  | .trainBlock _ _ content => content.length == 7
  | .linkParametersFrame _ body => body.length == 32
  | .hostFrameBad _ blocks => !blocks.isEmpty
  | .blockLockLost _ _ headers => headers.length == 64
  | .echoRetrainStart _ residuals => residuals.length == 4
  | .readCompletion _ _ _ _ data => decide (data.length ≤ 4096)
  | .anchorMessage _ _ body => body.length == 16
  | .codewordDecoded _ lam => softOk lam
  | .loadingRecompute _ snr | .f2End _ snr => snrOk snr
  | .bitSwapRequest _ msg | .bitSwapReply _ msg | .loadingTable _ msg | .stateMessage _ msg | .downNotice _ msg
  | .quietRequest _ msg | .quietReply _ msg | .sleepNotice _ msg | .restart _ msg | .resume _ msg
  | .discardNotice _ msg | .pad _ msg | .streamSignal _ msg => messageOk msg
  | .capabilityFrame _ carrier _ | .roleFrame _ carrier _ | .startFrame _ carrier _ | .assembledFrame _ carrier _
  | .holdFrame _ carrier _ => carrierOk carrier
  | .trainPhaseEnd _ m => snrOk m.snr && decide (m.gain ≤ 60)
  | .wakeFrameDecoded _ _ _ data _ => data.length == 32
  | .dormantEntryAfterStore m _ noise => soundingOk m && noiseOk noise
  | .headerCheckFailed _ header => header.length == 32
  | .writePacket _ pkt | .readRequest _ pkt | .readResponse _ pkt | .messagePacket _ pkt | .atomicRequest _ pkt
  | .atomicResponse _ pkt | .flushRequest _ pkt | .flushResponse _ pkt | .statusPacket _ pkt => packetOk pkt
  | .measurePhaseEnd m => m.payload.length == 40000 && m.stems.all fun e => stemsOk e.2
  | .flashStatusPoll _ area => area.isEmpty || area.length == 65536
  | .soundingEnd m => soundingOk m
  | .noiseFloorMeasurementEnd _ noise _ => noiseOk noise
  | .alignRow _ row => row.length == 8 || row.length == 16
  | .resetAssert _ | .resetRelease _ | .stabilityCountDone _ _ | .portStabilityCountDone _ | .imageLoaded _ _
  | .imageChecked | .telemetryBoundary | .backgroundTaskStart _ | .tselChange _ | .sourceSwitchDone
  | .startupSwitchCountDone _ _ | .hckInterruption | .hckReturn | .portClockStop _ | .portClockReturn _
  | .hostTrainAttemptStart _ | .trainingPhaseLimit _ | .attemptIdleEnd _
  | .frameNotActedOn _ _ _ _ | .ack _ _ | .nak _ _ | .credit _ _ | .retrain _ _ | .ackRepeat _ | .creditRepeat _
  | .replayInterval _ | .readCompletionTimeout _ _ | .tagHoldExpiry _ _ | .workQueueDoorbell _ _ _ _
  | .consumedDoorbell _ _ _ _ | .itemFetch _ _ | .eventFrame _ _ _ | .recordWrite _ | .malformedItem _ _
  | .faultClear _ _ | .faultAcknowledge _ _ | .calibrate _ _ | .soundCable _ _ | .enterDormant _ _
  | .injectCheckInversion _ _ | .channelUp _ _ | .channelDown _ _ | .channelQuiet _ _ | .channelSleep _ _
  | .marginOverride _ _ | .windowOpen _ _ | .windowRevoke _ _ | .revokeDrained _ _ | .pageReady _ _
  | .pageReadyDrained _ _ | .injectionLimitExpiry _ | .writeItem _ _ | .readItem _ _ | .sendItem _ _
  | .receiveItem _ _ | .atomicItem _ _ | .flushItem _ _ | .relayItem _ _ | .streamStart _ _ | .streamBuffer _ _
  | .streamStop _ _ | .reserveRelease _ _ | .syncMinusS _ | .missedSyncs _ | .gainTrackingStep _ _
  | .antiAliasCornerChange _ | .preEqualiserUpdate _ | .transformWindowMove _ _
  | .echoRetrainEnd _ | .echoRetrainHoldoffEnd _ _ | .bitSwapApply _ | .bitSwapResendTimeout _
  | .searchRoundStart _ _ _ | .exchangeTimeout _ | .assemblyTimeout _ | .countdownEnd _ | .loadingTableApply _
  | .train5Limit _ | .silenceToleranceExpiry _ | .f1Acquired _ | .f1Limit _ | .f3Limit _ | .quietIdleTimeout _
  | .quietReplyTimeout _ | .quietStreamsEnded _ | .quietRefresh _ | .refreshMissed _ | .quietWorkPending _
  | .alertDetected _ | .alertAnswerTimeout _ | .wakeFramesSent _ | .wakeAnswerLimit _ | .wakeRestoreDone _
  | .falseWakeTimeout _ | .dormantLineStop | .exitSignal _ | .dormantExitBegin | .warmCountDone _
  | .retransmitTimeout _ | .retryBudgetExpiry _ | .stallLimitExpiry _ | .resendBackoffExpiry _ _
  | .responseLimitExpiry _ | .translationAgedOut _ | .dedupEntryExpired _ _ | .streamSlotDue _ _
  | .graceTimerExpiry _ | .calNFalling | .calNRising | .calNArmed | .calibrationWaitLimit | .flashBusyLimit
  | .storeReadbackDone _ | .tapReset _ | .extest _ _ | .idcode | .samplePreload _ _ | .clamp | .highz | .extestPulse _ _
  | .extestTrain _ _ | .startStatus | .keyRead | .keyProgram _ _ | .factoryRef | .dieId | .bypass _
  | .parametersFrameInterval _ => true

end Sys2Proof
end

