-- ==== Sys2Proof/Tests/Slice0.lean ====
section
/-! SUPPORT. Tests: ill-formed commands that WellFormed refuses, small facts whose expected values come from the spec's tables and worked
cases, and for every statement with hypotheses a witness that meets them. -/

namespace Sys2Proof.Tests

-- The tests are elaborated one after another: a closed test waits for all proofs before it, and one waiting thread each is too many.
set_option Elab.async false

open Sys2Proof Sys2Proof.Machine

/-! ### Small states -/

/-- The schedule runs, both ports enabled, with the given parameters. -/
def running (params : Tab (List Nat)) : State :=
  { State.reset with
    pins := { Pins.reset with resetN := true, pwrok := true }
    start := { Start.reset with stage := .running, sampled := true, straps := 0x60 }
    image := { Image.reset with loaded := true, params := params } }

def run : State := running []

/-- A stage of the start, and a stage with a level of TSEL. -/
def inStage (x : Stage) : State :=
  { run with start := { run.start with stage := x } }

/-- Channel 0 as a function makes it, in a running device. -/
def chan0 (s : State) (f : Chan → Chan) : State :=
  s.modChan 0 f

/-- Channel 0 in a link state. -/
def chanIn (l : LinkState) : State :=
  chan0 run fun x => { x with link := l }

/-- Port A's link, up. -/
def upLink : HostLink :=
  { HostLink.reset with phase := .up, trained := true, granted := [64, 64, 64] }

def up : State :=
  { run with linkA := upLink }

def withLink (s : State) (f : HostLink → HostLink) : State :=
  { s with linkA := f s.linkA }

/-- An anchor with one record ring, one completion ring and queue 0 enabled with 16 items. -/
def anchor1 : Anchor :=
  { addr := 0x1000, indexBlock := 0x2000, windowBase := 0x4000, windowSlots := 2, queueBase := 0x8000, recordRings := 1
    completionRings := 1, routing := [], records := [(0x10000, 0, false)], completions := [(0x20000, 0, false)]
    queues := [0x40000000] }

def anchored : State :=
  { up with ringsA := { PortRings.reset with anchor := some anchor1 } }

/-- A byte string of n bytes that begins as given. -/
def padded (n : Nat) (b : Bytes) : Bytes :=
  b ++ List.replicate (n - b.length) 0

/-- Queue 0 of port A holds one fetched item. -/
def queued (s : State) (raw : Bytes) : State :=
  s.modQueue .a 0 fun x => { x with items := [⟨0, padded 64 raw, .fetched⟩] }

def item0 (raw : Bytes) : Item := ⟨0, padded 64 raw, .fetched⟩

/-- A delivered message on channel 0. -/
def delivered (s : State) (msg : Bytes) : State :=
  s.modRetry 0 fun r => { r with inbox := [msg] }

/-- A packet that has arrived on channel 0. -/
def arrived (s : State) (pkt : Packet) : State :=
  s.modRetry 0 fun r => { r with arrived := [pkt] }

/-! ### WellFormed refuses -/

theorem test_wf_resistors : (Instr.strapResistorStepEnd [some 1000]).wellFormed = false := by decide
theorem test_wf_copies : (Instr.coefficientsLoaded ⟨[], [[]]⟩ ⟨[], []⟩ 0 0).wellFormed = false := by decide
theorem test_wf_mirror_copies : (Instr.coefficientsLoaded ⟨[], []⟩ ⟨[], List.replicate 11 []⟩ 0 0).wellFormed = false := by decide
theorem test_wf_slack : (Instr.slotTick [(88, 0)] [] [] []).wellFormed = false := by decide
theorem test_wf_late : (Instr.slotTick [] [88] [] []).wellFormed = false := by decide
theorem test_wf_samples : (Instr.slotTick [] [] [(0, .samples [0])] []).wellFormed = false := by decide
theorem test_wf_equalised : (Instr.slotTick [] [] [(0, .equalised [])] []).wellFormed = false := by decide
theorem test_wf_sram : (Instr.slotTick [] [] [] [⟨.other, false, 2 ^ 32⟩]).wellFormed = false := by decide
theorem test_wf_temps : (Instr.sensorReading 900 [25]).wellFormed = false := by decide
theorem test_wf_vcore : (Instr.sensorReading 65536 (List.replicate 9 25)).wellFormed = false := by decide
theorem test_wf_quality : (Instr.qualityPeriodBoundary 0 ⟨0, 0, 0, 0, 0, [1]⟩).wellFormed = false := by decide
theorem test_wf_train_block : (Instr.trainBlock .a 0 []).wellFormed = false := by decide
theorem test_wf_parameters : (Instr.linkParametersFrame .a [1]).wellFormed = false := by decide
theorem test_wf_frame : (Instr.hostFrameBad .a []).wellFormed = false := by decide
theorem test_wf_headers : (Instr.blockLockLost .a 0 [0]).wellFormed = false := by decide
theorem test_wf_residuals : (Instr.echoRetrainStart 0 [0]).wellFormed = false := by decide
theorem test_wf_completion : (Instr.readCompletion .a 0 0 0 (List.replicate 4097 0)).wellFormed = false := by
  decide +kernel
theorem test_wf_anchor : (Instr.anchorMessage .a 0 [1]).wellFormed = false := by decide
theorem test_wf_soft_length : (Instr.codewordDecoded 0 [1]).wellFormed = false := by decide
theorem test_wf_soft_range : softOk (List.replicate 2304 32) = false := by decide +kernel
theorem test_wf_snr : (Instr.loadingRecompute 0 [3000]).wellFormed = false := by decide
theorem test_wf_message : (Instr.bitSwapRequest 0 [0x11]).wellFormed = false := by decide
theorem test_wf_carrier : (Instr.roleFrame 0 2 0).wellFormed = false := by decide
theorem test_wf_gain : (Instr.trainPhaseEnd 0 ⟨0, List.replicate 59 0, 61⟩).wellFormed = false := by decide
theorem test_wf_wake : (Instr.wakeFrameDecoded 0 [] 1 [] 0).wellFormed = false := by decide
theorem test_wf_bursts : (Instr.soundingEnd ⟨[], [], [], 0, 0, false, [], 65⟩).wellFormed = false := by decide
theorem test_wf_loss : (Instr.soundingEnd ⟨[], [], [], 0, 0, false, [1], 64⟩).wellFormed = false := by decide
theorem test_wf_noise : (Instr.noiseFloorMeasurementEnd 0 [] false).wellFormed = false := by decide
theorem test_wf_header : (Instr.headerCheckFailed 0 []).wellFormed = false := by decide
theorem test_wf_packet_header : (Instr.writePacket 0 ⟨[], [], 0⟩).wellFormed = false := by decide
theorem test_wf_packet_payload :
    (Instr.writePacket 0 ⟨List.replicate 32 0, List.replicate 4097 0, 0⟩).wellFormed = false := by decide +kernel
theorem test_wf_payload : (Instr.measurePhaseEnd ⟨[], 0, [], 0, 0⟩).wellFormed = false := by decide
theorem test_wf_stems : stemsOk ⟨[], [], [], []⟩ = false := by decide
theorem test_wf_area : (Instr.flashStatusPoll false [0]).wellFormed = false := by decide
theorem test_wf_align : (Instr.alignRow .a [⟨0, 0, 0⟩]).wellFormed = false := by decide

/-- What the checks let through. -/
theorem test_wf_accepts : (Instr.strapResistorStepEnd (List.replicate 7 (some 1000))).wellFormed = true ∧
    (Instr.sensorReading 900 (List.replicate 9 25)).wellFormed = true ∧
    (Instr.trainBlock .a 0 (List.replicate 7 0)).wellFormed = true ∧ (Instr.roleFrame 0 3 0).wellFormed = true ∧
    (Instr.slotTick [(87, -3)] [0] [(63, .samples (List.replicate 144 0))] []).wellFormed = true := by decide +kernel

/-! ### The table gives no word a command -/

theorem test_no_word : decodeTableWord 0 0 = none ∧ decodeTableWord 32 0xFFFFFFFF = none := by decide

theorem test_fetch_word_changes_nothing : State.reset.withFetchWord 0 0 = State.reset := by rfl

/-! ### Witnesses: each theorem shows states and operands that meet the hypotheses of the statement it names, clause by clause -/

theorem witness_StepRunsFrontCommand : ({ run with pending := [.calNArmed, .idcode] } : State).pending = .calNArmed :: [.idcode] ∧
    run.pending = [] := ⟨rfl, rfl⟩

theorem witness_StepKeepsInvariant : State.reset.inv ∧ step State.reset = .next State.reset :=
  ⟨⟨by decide, by decide, rfl, rfl⟩, rfl⟩

theorem witness_ResetStateStands : AtRest State.reset ∧ (∀ pin, Instr.calNArmed ≠ .resetRelease pin) ∧
    exec .calNArmed State.reset = .next State.reset := by
  refine ⟨rfl, ?_, rfl⟩
  intro pin h
  cases h

theorem witness_StageFrame : ∃ t, exec (.channelDown .a 0) (queued run [8]) = .next t := ⟨_, rfl⟩

/-- Slot 254, slot 255, the first tick after a reset, and a count about to wrap. -/
theorem witness_TimeBaseMovesAtTicks : run.runs = true ∧
    ({ run with clock := { run.clock with slot := 254 } } : State).runs = true ∧
    ({ run with clock := { run.clock with slot := 255, sf := 0xFFFFFFFFFFFF } } : State).runs = true ∧
    ((inStage .ready).start.stage = .ready ∧ (inStage .ready).start.recount = none ∧
      (inStage .ready).clock.interrupted = false ∧ (inStage .ready).start.kind = 0) := by decide

theorem witness_AnchorsAreKept : ∃ t, exec (.idcode) anchored = .next t ∧ (anchored.rings .a).anchor = some anchor1 :=
  ⟨_, rfl, rfl⟩

theorem witness_executes : ∃ t, exec .dieId State.reset = .next t := ⟨_, rfl⟩

theorem witness_KeyProgramSetsBits :
    (let s := { State.reset with pins := { Pins.reset with pwrok := true } }
     s.pins.resetN = false ∧ s.pins.pwrok = true ∧ s.tap.key = 0) ∧
    run.pins.resetN = true ∧ State.reset.pins.pwrok = false := by decide

/-- An opcode of no instruction (Table 23.3). -/
theorem witness_ScanInstructionsShift :
    (0x05 : Byte) ∉ ([0x00, 0x01, 0x02, 0x03, 0x04, 0x09, 0x0A, 0x10, 0x11, 0x12, 0x13, 0x14] : List Byte) := by decide

theorem witness_ResetInputs :
    (let s := { State.reset with pins := { Pins.reset with pwrok := true } }
     s.start.stage = .reset ∧ s.tap.holding = false ∧ s.pins.pwrok = true) ∧
    (let s := { State.reset with pins := { Pins.reset with resetN := true } }
     s.start.stage = .reset ∧ s.tap.holding = false ∧ s.pins.resetN = true) := by decide

theorem witness_StrapsSampledOnce : (inStage .stability).start.stage = .stability ∧
    (inStage .stability).start.recount = none ∧ (inStage .stability).clock.interrupted = false ∧
    (⟨false, false, false, false, false, true, true, true⟩ : StrapLevels).testmode = true ∧
    ((⟨false, false, false, false, false, false, false, false⟩ : StrapLevels).portenA = false ∧
      (⟨false, false, false, false, false, false, false, false⟩ : StrapLevels).portenB = false) ∧
    ((⟨false, false, false, false, false, false, true, false⟩ : StrapLevels).testmode = false ∧
      (⟨false, false, false, false, false, false, true, false⟩ : StrapLevels).portenB = true) := by decide

/-- The edges of Table 2.7's first, second and last bands, and the readings beside them. -/
theorem witness_ResistorBands : (0 ≤ 200 ∧ 920 ≤ 920 ∧ 1080 ≤ 1080 ∧ 135200 ≤ 158800) ∧
    (200 < 201 ∧ 201 < 920 ∧ 919 < 920 ∧ 158800 < 158801 ∧ 499999 < 500000) ∧ 500000 ≤ 500000 ∧
    ((inStage .strapStep).start.stage = .strapStep ∧ (inStage .strapStep).start.recount = none ∧
      (inStage .strapStep).clock.interrupted = false ∧ ([none, some 0, some 200, some 201, some 920, some 158800,
        some 500000] : List (Option Nat)).length = 7) := by decide

theorem witness_NodeIdentity :
    ({ run with start := { run.start with codes := [15, 0, 14, 1, 15, 0, 2] } } : State).start.codes =
      [15, 0, 14, 1, 15, 0, 2] ∧ (15 < 16) ∧ (65535 < 65536 ∧ 4095 < 4096) ∧
    (running [(0x700, [0xFFFF])]).elem 0x0700 (queueKey .a 0) = 0xFFFF := by decide

/-- A check of an accepted image, with the straps of its combination. -/
def checking (d : FlashDev) : State :=
  { inStage (.imageCheck d) with start := { (inStage (.imageCheck d)).start with straps := 0x60, copy := goodImage } }

/-- A load that fails and a check that fails, of either copy. -/
theorem witness_ImageLoading : ((inStage (.imageLoad .primary)).start.stage = .imageLoad .primary ∧
      (inStage (.imageLoad .primary)).start.recount = none ∧ (inStage (.imageLoad .primary)).clock.interrupted = false ∧
      loadResult [] [] ≠ 0) ∧
    (inStage (.imageLoad .mirror)).start.stage = .imageLoad .mirror ∧
    ((inStage (.imageCheck .mirror)).start.stage = .imageCheck .mirror ∧
      checkCode (inStage (.imageCheck .mirror)).tap.key (inStage (.imageCheck .mirror)).start.straps
        (inStage (.imageCheck .mirror)).start.copy ≠ 1) := by decide +kernel

/-- A load that completes and a check that accepts, of either copy. -/
theorem witness_ImageLoading_passes : loadResult goodSfdp goodImage = 0 ∧
    (∀ d : FlashDev, (checking d).start.stage = .imageCheck d ∧ (checking d).start.recount = none ∧
      (checking d).clock.interrupted = false ∧
      checkCode (checking d).tap.key (checking d).start.straps (checking d).start.copy = 1) :=
  ⟨goodImage_result, fun _ => ⟨rfl, rfl, rfl, goodImage_checks⟩⟩

theorem witness_CoefficientsAndPortCounts : ((inStage .coefficients).start.stage = .coefficients ∧
      (inStage .coefficients).start.recount = none ∧ (inStage .coefficients).clock.interrupted = false) ∧
    ((inStage .coefficients).start.stage ≠ .reset ∧ (∀ k, (inStage .coefficients).start.stage ≠ .dormant k) ∧
      ((inStage .coefficients).link .a).clockStopped = false ∧ (inStage .coefficients).enabled .a = true) ∧
    (inStage .coefficients).start.sampled = true := by
  refine ⟨by decide, ⟨by decide, ?_, by decide, by decide⟩, by decide⟩
  intro k h
  cases h

theorem witness_SourceSwitchRuns : (run.pins.tsel ≠ true ∧ run.start.stage = .running ∧ run.clock.interrupted = false) ∧
    ((inStage .switching).start.stage = .switching ∧ (inStage .switching).clock.interrupted = false) ∧
    ((inStage .strapStep).pins.tsel ≠ true ∧ (inStage (.imageCheck .mirror)).pins.tsel ≠ true) ∧
    ((inStage .stability).pins.tsel ≠ true ∧ (inStage (.warm .retain)).pins.tsel ≠ true) ∧
    (∀ x ∈ [Stage.imageLoad .mirror, .coefficients, .ready, .strapStep],
      ({ inStage x with start := { (inStage x).start with recount := some x } } : State).start.recount.isSome = true ∧
      ({ inStage x with start := { (inStage x).start with recount := some x } } : State).clock.interrupted = false) ∧
    ((inStage (.dormant .deep)).pins.tsel ≠ true ∧ (inStage .strapRefusal).pins.tsel ≠ true ∧
      (inStage (.dormant .deep)).start.stage = .dormant .deep) := by decide

/-- A selected clock that stood still, with a doorbell credit owed and with none, and the other port's. -/
theorem witness_ClockInterruptions : (∀ k, run.start.stage ≠ .dormant k) ∧
    (inStage (.dormant .retain)).start.stage = .dormant .retain ∧
    (∀ n ∈ [0, 1], (({ run with linkA := { HostLink.reset with clockStopped := true, owed := n, phase := .up } } : State).link
        ({ run with linkA := { HostLink.reset with clockStopped := true, owed := n, phase := .up } } : State).sourcePort
        ).clockStopped = true) ∧ run.clock.pendingTsel = false ∧
    run.clockFree .b = true := by
  refine ⟨?_, rfl, by decide, by decide, by decide⟩
  intro k h
  cases h

/-- Readings kept and new, in the limits, above 110 °C and with VCORE too low; periods of telemetry with and without an anchor. -/
theorem witness_SensorsAndTelemetry : (run.atBoundary = true ∧ run.mayRun 87 4 = true ∧ run.clock.sf.toNat % 16 = 0 ∧
      (List.replicate 9 (250 : Int)).length = 9 ∧ hottest (List.replicate 9 250) = 250 ∧ (run.telem .a).temps = [] ∧
      (({ run with telemA := { Telemetry.reset with temps := List.replicate 9 200 } } : State).telem .a).temps.length = 9 ∧
      ((9049 : Nat) : Int) - 50 < envelopeAt ({ run with image := { run.image with envelope := List.replicate 5 9000 } }
        : State).envelope (min (250 + 20) 1100) ∧
      hottest (List.replicate 9 1101) = 1101) ∧
    (let s := { running [(0x0E00, [16]), (0x0E01, [0])] with
        clock := { Clock.reset with sf := 16 }, ringsA := { PortRings.reset with anchor := some anchor1 } }
     s.atBoundary = true ∧ s.mayRun 87 4 = true ∧ s.par 0x0E00 ≠ 0 ∧ s.clock.sf.toNat % s.par 0x0E00 = s.par 0x0E01 ∧
       (s.rings .a).anchor.isSome = true ∧ s.since (s.telem .a).since ≠ 0 ∧ (s.rings .b).anchor = none) ∧
    run.since (run.telem .a).since = 0 := by decide

/-- A LINK block with its check (Table 13.3). -/
def block (subtype : Nat) (value count : BitVec 16) : LinkBlock :=
  ⟨value, count, BitVec.ofNat 16 (crc32c (le 1 subtype ++ le 2 value.toNat ++ le 2 count.toNat))⟩

def mayTrainA (ph : LinkPhase) : State :=
  { run with linkA := { HostLink.reset with counted := true, phase := ph } }

theorem witness_HostTrainingStarts : ((mayTrainA .down).enabled .a = true ∧ ((mayTrainA .down).link .a).counted = true ∧
      ((mayTrainA .down).link .a).clockStopped = false ∧ (mayTrainA .down).start.stage = .running ∧
      ((mayTrainA .down).link .a).phase = .down) ∧
    ((({ mayTrainA .idle with start := { run.start with stage := .switching } } : State).link .a).phase = .idle ∧
      ({ mayTrainA .idle with start := { run.start with stage := .switching } } : State).enabled .a = true) ∧
    (up.linkUp .a = true ∧ linkBlockOk 4 (block 4 1 0) = true) ∧
    ((0 : Fin 16).val < up.lanes .a ∧ (15 : Fin 16).val < up.lanes .a ∧
      16 ≤ ((List.replicate 16 (3 : BitVec 2) ++ List.replicate 48 1).take 64).countP (fun h => h == 0 || h == 3)) ∧
    (((mayTrainA .t4).link .a).phase ∈ [LinkPhase.t1, .t2, .t3, .t4] ∧ ((mayTrainA .t4).link .a).clockStopped = false) := by
  decide +kernel

/-- An equaliser at its limits in T1, at its start in T3, a preset, a step and a hold, on lane 0 and lane 15. -/
theorem witness_TrainingBlocksAct :
    (let s := withLink (mayTrainA .t1) fun l => { l with txEq := List.replicate 16 (6, 12, 1) }
     (s.link .a).phase ∈ [LinkPhase.t1, .t2, .t3] ∧ (s.link .a).clockStopped = false ∧ (15 : Fin 16).val < s.lanes .a ∧
     (s.link .a).txEq.length = 16 ∧ (s.link .a).responses.length = 16 ∧
     (∀ x ∈ (s.link .a).txEq, x.1 ≤ 6 ∧ x.2.1 ≤ 12)) ∧
    (let s := mayTrainA .t3
     (s.link .a).phase ∈ [LinkPhase.t1, .t2, .t3] ∧ (s.link .a).txEq.length = 16 ∧
     (∀ x ∈ (s.link .a).txEq, x.1 ≤ 6 ∧ x.2.1 ≤ 12)) ∧
    (128 ≤ field [0, 0, 128] 2 1 ∧ field [0, 0, 5] 2 1 < 128) := by decide

/-- A parameters frame with next expected sequence 4095 and credits. -/
def goodParams : Bytes :=
  [1, 1, 0xFF, 0x0F, 16, 0, 0, 0, 0, 0, 16, 0, 128, 0, 16, 0] ++ List.replicate 16 0

def t4Link (trained : Bool) : HostLink :=
  { HostLink.reset with phase := .t4, trained := trained, paramsSent := true, farPeerSeen := true }

/-- A row of ALIGN blocks on n lanes as it arrives, lane 0 inverted or not. -/
def alignedRow (n : Nat) (inverted : Bool) : List LaneBlock :=
  (List.range n).map fun i =>
    let w := (scrambleWord (alignWord i n) 0).1
    if inverted && i == 0 then ⟨BitVec.allOnes 58, w ^^^ BitVec.allOnes 66, 64⟩ else ⟨0, w, 64⟩

/-- Two frames in the replay buffer, of which the far end has the first. -/
def t4Again : State :=
  { run with linkA := { t4Link true with farNext := 1, replay := [⟨2, 0, []⟩, ⟨2, 1, []⟩] } }

theorem witness_TrainingEnds : (((mayTrainA .t4).link .a).phase = .t4 ∧ ((mayTrainA .t4).link .a).clockStopped = false) ∧
    paramsGood goodParams = true ∧
    (((mayTrainA .t1).link .a).phase = .t1 ∧ invertedLanes ((mayTrainA .t1).lanes .a)
        (alignedRow ((mayTrainA .t1).lanes .a) true) = [0] ∧
      lanesOk ((mayTrainA .t1).lanes .a) (readRow ((mayTrainA .t1).lanes .a) (fun i => [0].contains i)
        (alignedRow ((mayTrainA .t1).lanes .a) true)) = true) ∧
    (((mayTrainA .t3).link .a).phase ∈ [LinkPhase.t1, .t2, .t3] ∧ ((mayTrainA .t3).link .a).inverted = []) ∧
    (let s := { run with linkA := t4Link false }
     (s.link .a).phase = .t4 ∧ (s.link .a).clockStopped = false ∧ (s.link .a).paramsSent = true ∧
       lanesOk (s.lanes .a) (readRow (s.lanes .a) (fun i => (s.link .a).inverted.contains i)
         (alignedRow (s.lanes .a) false)) = true ∧
       (s.link .a).farPeerSeen = true ∧ (s.rings .a).startPending = false ∧ (s.link .a).trained = false) ∧
    (t4Again.link .a).trained = true ∧ framesFrom (t4Again.link .a).farNext (t4Again.link .a).replay ≠ [] ∧
    (({ run with ringsA := { PortRings.reset with startPending := true } } : State).ringsA.startPending = true ∧
      run.runs = true) := by
  decide +kernel

def frame (n : BitVec 12) : Frame := ⟨2, n, []⟩

/-- An acknowledgement across the wrap of sequence numbers, and credits at each class. -/
theorem witness_LinkControlBlocks : up.linkUp .a = true ∧ linkBlockOk 1 (block 1 0 0) = true ∧
    linkBlockOk 2 (block 2 4095 0) = true ∧ linkBlockOk 3 (block 3 3 65535) = true ∧
    (upLink.ackUpTo 0 = upLink) ∧ upLink.granted.length = 3 ∧ (1 ≤ 1 ∧ 3 ≤ 3) ∧
    (∃ f ∈ [frame 4095], ((0 : BitVec 12) - f.seq).toNat < 2048) := by decide +kernel

theorem witness_ReplayIntervals :
    (let s := withLink up fun l => { l with replay := [frame 0], resends := 3 }
     s.linkUp .a = true ∧ (s.link .a).replay ≠ [] ∧ (s.link .a).resends < 4) ∧
    (let s := withLink up fun l => { l with replay := [frame 0], resends := 4 }
     s.linkUp .a = true ∧ (s.link .a).replay ≠ [] ∧ 4 ≤ (s.link .a).resends) := by decide

theorem witness_SendingKeepsLimits : upLink.replay.length ≤ 2048 ∧ upLink.used ≤ 65536 ∧ (upLink.reads.map (·.tag)).Nodup ∧
    (HostLink.reset.phase ≠ .up) ∧ ({ upLink with clockStopped := true } : HostLink).clockStopped = true := by decide

/-- A frame 2,048 and one number behind, 2,047 ahead, and the expected one. -/
theorem witness_FramesInSequence : up.linkUp .a = true ∧ up.armedFor 2 Port.a.num = none ∧ up.runs = true ∧ (up.link .a).held = [] ∧
    2048 ≤ ((2048 : BitVec 12) - (up.link .a).expected).toNat ∧ 2048 ≤ ((4095 : BitVec 12) - (up.link .a).expected).toNat ∧
    (0 < ((2047 : BitVec 12) - (up.link .a).expected).toNat ∧ ((2047 : BitVec 12) - (up.link .a).expected).toNat < 2048) ∧
    (up.link .a).nakSent = false ∧ (withLink up fun l => { l with nakSent := true }).linkA.nakSent = true ∧
    (0 : BitVec 12) = (up.link .a).expected ∧ notActable 8 [] = true := by decide

/-- A frame of one data block whose CRC is another. -/
def badFrame : RawFrame := ⟨[4, 0, 0, 1, 0, 0, 0], zeros 8, zeros 7, false⟩

theorem witness_BadFramesAreCounted : up.linkUp .a = true ∧
    readFrame [controlWord typeStart badFrame.start, dataWord badFrame.body, controlWord typeEnd badFrame.ending] =
      some badFrame ∧ frameGood badFrame = false ∧ up.armedFor 2 Port.a.num = none ∧ up.runs = true ∧
    (up.link .a).held = [] ∧ notActable (4 : Byte).toNat [] = true ∧ notActable (8 : Byte).toNat [] = true ∧
    (withLink up fun l => { l with nakSent := true }).linkA.nakSent = true := by decide +kernel

theorem witness_DoorbellsAct : (up.linkUp .a = true ∧ up.armedFor 2 Port.a.num = none ∧ up.runs = true ∧ (up.link .a).held = [] ∧
      (up.rings .a).anchor = none ∧ (511 : BitVec 16).toNat < 512 ∧ (63 : BitVec 16).toNat < 64 ∧
      0x100 ≤ (0x107 : BitVec 16).toNat ∧ (0x107 : BitVec 16).toNat < 0x108) ∧
    (anchored.linkUp .a = true ∧ anchored.armedFor 2 Port.a.num = none ∧ anchored.runs = true ∧
      (anchored.link .a).held = [] ∧
      (anchored.rings .a).anchor = some anchor1 ∧ anchored.entry = none ∧ descEnabled (anchor1.desc 0) = true ∧
      ((16 : BitVec 32) - (anchored.queue .a 0).consumed).toNat ≤ descItems (anchor1.desc 0) ∧
      ((16 : BitVec 32) - (anchored.queue .a 0).producer).toNat ≤ ((16 : BitVec 32) - (anchored.queue .a 0).consumed).toNat) ∧
    ((0 : Fin 64).val < anchor1.completionRings ∧ (((anchored.rings .a).completionRing 0).producer - 0).toNat ≤
      (((anchored.rings .a).completionRing 0).producer - ((anchored.rings .a).completionRing 0).consumed).toNat) ∧
    ((0 : Fin 8).val < anchor1.recordRings ∧ (((anchored.rings .a).recordRing 0).producer - 0).toNat ≤
      (((anchored.rings .a).recordRing 0).producer - ((anchored.rings .a).recordRing 0).consumed).toNat ∧
      (0 : BitVec 32) = ((anchored.rings .a).recordRing 0).producer) ∧
    (({ up with start := { up.start with stage := .switching } } : State).linkUp .a = true ∧
      ({ up with start := { up.start with stage := .switching } } : State).runs = false) ∧
    ((withLink up fun l => { l with held := [.anchor []] }).link .a).held ≠ [] ∧
    notActable (8 : Byte).toNat [] = true := by decide

/-- A good message, one with an anchor accepted, one while one is read, and bodies that are wrong. -/
theorem witness_AnchorIsRead : (up.linkUp .a = true ∧ up.armedFor 2 Port.a.num = none ∧ up.runs = true ∧
      (up.link .a).held = [] ∧
      (0x1000 : BitVec 64).toNat % 4096 = 0 ∧ (up.rings .a).anchor = none ∧ (up.rings .a).anchorReading = false) ∧
    (anchored.rings .a).anchor.isSome = true ∧ anchorCode .a [] ≠ 0 ∧ field [2] 0 1 ≠ 1 ∧
    zeroAt ([1, 1] ++ zeros 14) 1 7 = false ∧ field ([1] ++ zeros 7 ++ [1] ++ zeros 7) 8 8 % 4096 ≠ 0 := by
  decide +kernel

def oneRead : HostRead := ⟨3, 4, 0, .intFence⟩

def reading : State :=
  withLink up fun l => { l with reads := [oneRead], heldTags := [(9, 0)] }

def late (s : State) (n : Nat) : State :=
  { s with clock := { s.clock with symbols := n } }

theorem witness_HostReadsEnd : (reading.linkUp .a = true ∧ reading.armedFor 2 Port.a.num = none ∧ reading.runs = true ∧
      (reading.link .a).held = [] ∧
      reading.readOf .a 3 = some oneRead ∧ ([0, 0, 0, 0] : Bytes).length = oneRead.length ∧ (2 : Byte) ≠ 0) ∧
    reading.readOf .a 4 = none ∧
    ((late reading 1000).readOf .a 3 = some oneRead ∧ (late reading 1000).runs = true ∧
      oneRead.issued + 256 * (late reading 1000).hostTimeout .a ≤ (late reading 1000).clock.symbols) ∧
    ((9, 0) ∈ ((late reading 1000).link .a).heldTags ∧
      0 + 256 * (4 * (late reading 1000).hostTimeout .a) ≤ (late reading 1000).clock.symbols) := by decide

def fetchable : State :=
  anchored.modQueue .a 0 fun x => { x with producer := 1 }

def oneRecord : Rec := ⟨7, 0, List.replicate 64 0⟩

def recording (producer : BitVec 32) : State :=
  { up with ringsA := { PortRings.reset with
      anchor := some anchor1
      buffer := [oneRecord]
      record := [(0, { Ring.reset with producer := producer, consumed := producer })] } }

/-- A port whose completion ring 0 and record rings 0 and 1 owe an event frame. -/
def owesEvents : State :=
  { up with ringsA := { PortRings.reset with
      completion := [(0, { Ring.reset with eventDue := true })]
      record := [(0, { Ring.reset with eventDue := true }), (1, { Ring.reset with eventDue := true })] } }

/-- A record at the start of its ring and one that would cross its end. -/
theorem witness_ItemsAndRecordsMove : ((fetchable.rings .a).anchor = some anchor1 ∧ fetchable.runs = true ∧
      descEnabled (anchor1.desc 0) = true ∧ (fetchable.queue .a 0).reading = false ∧ fetchable.entry = none ∧
      0 < fetchable.fetchCount .a anchor1 0) ∧
    (owesEvents.runs = true ∧ (owesEvents.link .a).waiting = [] ∧
      (owesEvents.link .a).maySend 7 (eventBody 0 0 0) 0 = true ∧
      ((owesEvents.rings .a).completionRing 0).eventDue = true ∧ ((owesEvents.rings .a).recordRing 0).eventDue = true ∧
      ((owesEvents.rings .a).recordRing 1).eventDue = true) ∧
    (let s := recording 127
     (s.rings .a).anchor = some anchor1 ∧ (s.rings .a).buffer = oneRecord :: [] ∧ s.linkUp .a = true ∧ s.runs = true ∧
     oneRecord.bytes.length / 32 = 2 ∧ anchor1.recordSize 0 = 128 ∧
     1 = (if ((s.rings .a).recordRing 0).producer.toNat % 128 + 2 > 128
       then 128 - ((s.rings .a).recordRing 0).producer.toNat % 128 else 0) ∧
     ((s.rings .a).recordRing 0).held + 1 + 2 ≤ 128 ∧ (s.rings .a).outside = []) ∧
    ((recording 0).rings .a).buffer = oneRecord :: [] := by decide +kernel

/-! Witnesses of the items, dormant and streams -/

def entry0 : Entry := { kind := .retain, queue := (.a, 0), item := 0, written := false, acked := none }

def exiting (k : DormantKind) : State :=
  { inStage (.dormant k) with exitHeld := true }

theorem witness_DormantCycle :
    (({ run with entry := some entry0 } : State).entry = some entry0 ∧
      ({ run with entry := some entry0 } : State).runs = true ∧ entry0.written = false ∧ run.calib.store = none) ∧
    (∀ k ∈ [DormantKind.retain, .deep], let e := { entry0 with kind := k, written := true, acked := some 0 }
     let s := late { run with entry := some e } 256
     s.entry = some e ∧ s.runs = true ∧ e.acked = some 0 ∧ 0 + 256 ≤ s.clock.symbols) ∧
    ((exiting .deep).start.stage = .dormant .deep ∧ (exiting .deep).enabled .b = true ∧
      ((exiting .deep).link .b).clockStopped = false) ∧
    ((exiting .retain).start.stage = .dormant .retain ∧ (exiting .retain).exitHeld = true ∧
      ((exiting .retain).link (if (exiting .retain).pins.tsel then .b else .a)).clockStopped = false) ∧
    ((inStage (.warm .retain)).start.stage = .warm .retain ∧ (inStage (.warm .retain)).start.recount = none ∧
      (inStage (.warm .retain)).clock.interrupted = false ∧ (inStage (.warm .deep)).start.stage = .warm .deep) := by
  decide

/-- The next item of queue 0 of port A, from its first bytes. -/
def itemOf (s : State) (raw : Bytes) : Option (Option ItemBody) :=
  ((queued s raw).nextItem .a 0).map (·.2)

/-- A bit pattern of a fault clear over all sources, an acknowledge of one source, calibrate, sound, dormant and inject items, and a
malformed one with a flag set (Tables 14.6, 14.8). -/
theorem witness_MaintenanceItemsAct :
    (queued run [1, 1]).nextItem .a 0 = some (item0 [1, 1], none) ∧
    (queued run [1, 0, 0, 0, 7, 0, 0, 0, 0, 0, 0xFF, 3]).nextItem .a 0 =
      some (item0 [1, 0, 0, 0, 7, 0, 0, 0, 0, 0, 0xFF, 3], some (.faultClear 0 0x3FF)) ∧
    (itemOf run [2, 0, 0, 0, 0, 0, 0, 0, 5, 0] = some (some (.faultAcknowledge 5)) ∧
      (let s := { run with faults := { Faults.reset with reactions := [⟨.channel 5, some 100, 5, []⟩] } }
       s.graceOf 5 = some ⟨.channel 5, some 100, 5, []⟩) ∧
      (let s := { run with faults := { Faults.reset with
          sources := [(5, { Source.reset with severe := true })], acknowledged := [(.channel 5, [5])] } }
       s.graceOf 5 = none ∧ s.wasAcknowledged 5 = true) ∧
      run.graceOf 5 = none ∧ run.wasAcknowledged 5 = false) ∧
    itemOf run (padded 16 [3, 0, 0, 0, 0, 0, 0, 0, 4, 1] ++ [1, 0, 0, 0, 0, 0, 0, 0x80, 3]) =
      some (some (.calibrate 4 true 0x8000000000000001 3)) ∧
    (itemOf run [4, 0, 0, 0, 0, 0, 0, 0, 63, 3] = some (some (.sound 63 3)) ∧ run.ownChannel .a 63 = true ∧
      (running [(0x301, [1])]).ownChannel .a 0 = false) ∧
    (itemOf run [5, 0, 0, 0, 0, 0, 0, 0, 2] = some (some (.dormant .deep)) ∧ run.asleep = true ∧
      (chanIn .data).asleep = false) ∧
    (itemOf run [6, 0, 0, 0, 0, 0, 0, 0, 2, 1, 0] = some (some (.inject 2 1 0)) ∧ run.par 0x0A5E ≠ 1 ∧
      (running [(0xA5E, [1])]).par 0x0A5E = 1 ∧
      ((running [(0xA5E, [1])]).faults.armed.any fun a => a.1 == 2) = false) := by decide +kernel

/-- The items of Table 14.8 for channel 0, and what each finds. -/
theorem witness_ChannelItemsAct :
    ((running [(0x301, [1])]).ownChannel .a 0 = false ∧ run.ownChannel .a 0 = true) ∧
    ((queued run [7, 0, 0, 0, 0, 0, 0, 0, 0, 1, 0x34, 0x12]).nextItem .a 0 =
        some (item0 [7, 0, 0, 0, 0, 0, 0, 0, 0, 1, 0x34, 0x12], some (.up 0 (some (0x1234, zeros 32)))) ∧
      (queued (running [(0x301, [1])]) [7]).nextItem .a 0 = some (item0 [7], some (.up 0 none)) ∧
      (run.chan 0).down = true ∧ ((chanIn .data).chan 0).down = false ∧
      ((chan0 run fun x => { x with quarantined := true }).chan 0).quarantined = true) ∧
    ((queued run [8]).nextItem .a 0 = some (item0 [8], some (.down 0)) ∧ (run.chan 0).wake.downItem = none ∧
      (run.chan 0).stands .off = true ∧ ((chanIn .fast).chan 0).stands .off = false) ∧
    ((queued run [9]).nextItem .a 0 = some (item0 [9], some (.quiet 0)) ∧ ((chanIn .quarantine).chan 0).link = .quarantine ∧
      ((chan0 (chanIn .data) fun x => { x with quiet := { x.quiet with mode := true } }).chan 0).quiet.mode = true) ∧
    ((queued run [10]).nextItem .a 0 = some (item0 [10], some (.sleep 0)) ∧ (run.chan 0).wake.sleepItem = none ∧
      ((chanIn .hold).chan 0).link = .hold ∧ ((chanIn .sleep).chan 0).stands .sleep = true) := by decide +kernel

/-- CH.008 is 100 and CH.009 is 900: both limits, a value beside each, and 0xFFFF. -/
theorem witness_MarginOverrideHeld :
    (let s := running [(0x307, [600]), (0x308, [100]), (0x309, [900])]
     s.ownChannel .a 0 = true ∧ s.elem 0x0308 0 = 100 ∧ s.elem 0x0309 0 = 900 ∧ s.elem 0x0307 0 = 600 ∧
     (queued s [11, 0, 0, 0, 0, 0, 0, 0, 0, 0, 0xFF, 0xFF]).nextItem .a 0 =
       some (item0 [11, 0, 0, 0, 0, 0, 0, 0, 0, 0, 0xFF, 0xFF], some (.margin 0 0xFFFF)) ∧
     itemOf s [11, 0, 0, 0, 0, 0, 0, 0, 0, 0, 100, 0] = some (some (.margin 0 100)) ∧
     itemOf s [11, 0, 0, 0, 0, 0, 0, 0, 0, 0, 0x84, 3] = some (some (.margin 0 900)) ∧
     itemOf s [11, 0, 0, 0, 0, 0, 0, 0, 0, 0, 99, 0] = some (some (.margin 0 99)) ∧
     itemOf s [11, 0, 0, 0, 0, 0, 0, 0, 0, 0, 0x85, 3] = some (some (.margin 0 901))) ∧
    (100 ≠ 0xFFFF ∧ 100 ≤ 100 ∧ 900 ≤ 900 ∧ 99 < 100 ∧ 900 < 901) := by decide +kernel

def draining (page : Option Nat) : State :=
  { run with transport := { Transport.reset with drains := [⟨.a, 0, 0, 1, 1, page, [], 2⟩] } }

/-- An open of slot 1 waits for its descriptor. -/
def openingOne : State :=
  { anchored with linkA := { anchored.linkA with reads := [⟨0, 32, 0, .openDesc 3 0 1⟩] } }

/-- Slot 1 of two, slot 2 at the count, a slot that is being revoked, one whose descriptor is being read for an open, no anchor; and both
drains. -/
theorem witness_WindowItemsAct :
    ((run.rings .a).anchor = none ∧ (anchored.rings .a).anchor = some anchor1 ∧ anchor1.windowSlots = 2 ∧
      itemOf anchored [12, 0, 0, 0, 0, 0, 0, 0, 1, 0] = some (some (.windowOpen 1)) ∧
      (queued run [12, 0, 0, 0, 0, 0, 0, 0, 2, 0]).nextItem .a 0 =
        some (item0 [12, 0, 0, 0, 0, 0, 0, 0, 2, 0], some (.windowOpen 2)) ∧
      itemOf anchored [13, 0, 0, 0, 0, 0, 0, 0, 1, 0, 7, 0] = some (some (.windowRevoke 1 7)) ∧
      itemOf anchored (padded 16 [14, 0, 0, 0, 0, 0, 0, 0, 1, 0, 7, 0] ++ [0, 0x10, 0, 0, 0, 0, 0, 0, 2]) =
        some (some (.pageReady 1 7 0x1000 2)) ∧
      anchored.windowBusy .a 1 = false ∧ run.windowBusy .a 1 = false ∧ openingOne.windowBusy .a 1 = true ∧
      openingOne.opening .a 1 = true ∧ itemOf openingOne [12, 0, 0, 0, 0, 0, 0, 0, 1, 0] = some (some (.windowOpen 1)) ∧
      itemOf openingOne [13, 0, 0, 0, 0, 0, 0, 0, 1, 0, 7, 0] = some (some (.windowRevoke 1 7)) ∧
      anchored.revoking .a 1 = false ∧ (draining none).revoking .a 1 = true) ∧
    ((draining none).runs = true ∧ (draining (some 3)).runs = true ∧
      ((draining none).transport.drains.find? fun e => e.port == .a && e.queue == 0 && e.page.isSome == false &&
        e.fence == 2) = some ⟨.a, 0, 0, 1, 1, none, [], 2⟩ ∧
      ((draining (some 3)).transport.drains.find? fun e => e.port == .a && e.queue == 0 && e.page.isSome == true &&
        e.fence == 2) = some ⟨.a, 0, 0, 1, 1, some 3, [], 2⟩) := by decide +kernel

/-- A flush item on channel 0. -/
def flushRaw : Bytes := [0x25]

def flushBody : TransportBody := bodyOf (padded 64 flushRaw) .flush 0 0

/-- An item of each kind, of one byte where it carries data (Table 16.2). -/
def transportItems : List (OpKind × Bytes) :=
  [(.write, padded 32 [0x20, 1] ++ [1]), (.read, padded 32 [0x21] ++ [1]), (.send, padded 32 [0x22, 1] ++ [1]), (.atomic, [0x24]),
    (.flush, [0x25]), (.relay, padded 32 [0x26] ++ [1])]

/-- Is an item of a kind next on queue 0, its channels ready? -/
def starts (s : State) (k : OpKind) (raw : Bytes) : Bool :=
  match (queued s raw).nextItem .a 0 with
  | some (_, some (.transport b)) => b.kind == k && s.ready b.chan == .go && s.ready b.chan2 == .go
  | _ => false

/-- Each kind on a channel in DATA; a channel in DATA, in FAST and in OFF; and a withdrawn stream. -/
theorem witness_TransportItemsStart : (∀ e ∈ transportItems, starts (chanIn .data) e.1 e.2 = true) ∧
    (queued (chanIn .data) flushRaw).nextItem .a 0 = some (item0 flushRaw, some (.transport flushBody)) ∧
    flushBody.kind = .flush ∧
    ((chanIn .data).ready 0 = .go ∧ (chanIn .fast).ready 0 = .wait ∧ run.ready 0 = .down) ∧
    (let s := (running [(0x900, [3])]).modQueue .a 0 fun x => { x with stream := { x.stream with withdrawn := true } }
     (s.queue .a 0).stream.withdrawn = true ∧ (s.role .a 0).stream = 3) ∧
    run.relays < 32 := by decide +kernel

theorem witness_ReceiveItemsWait :
    (queued (running [(0x702, [1])]) (padded 32 [0x23, 2] ++ [0xFF])).nextItem .a 0 =
      some (item0 (padded 32 [0x23, 2] ++ [0xFF]), some (.receive 0 255 true)) := by decide +kernel

/-- Queue 0 as a stream queue of a kind, with frames of 256 bytes at a rate of 64, and its stream as a function makes it. -/
def streaming (kind : Nat) (f : Stream → Stream) : State :=
  (running [(0x900, [kind]), (0x901, [256]), (0x902, [64])]).modQueue .a 0 fun x => { x with stream := f x.stream }

theorem witness_StreamItemsAct :
    (queued (streaming 1 id) [0x40, 0, 0, 0, 0, 0, 0, 0, 0xFF, 0xFF]).nextItem .a 0 =
      some (item0 [0x40, 0, 0, 0, 0, 0, 0, 0, 0xFF, 0xFF], some (.streamStart 65535 0)) ∧
    itemOf (streaming 3 id) [0x40] = some (some (.streamStart 0 0)) ∧
    ((streaming 3 id).role .a 0).stream = 3 ∧
    ((streaming 1 fun x => { x with running := true }).queue .a 0).stream.running = true ∧
    itemOf (streaming 1 id) (padded 24 [0x41] ++ [0, 0x10, 0, 0, 0, 0, 0, 0, 0, 1]) =
      some (some (.streamBuffer 0x1000 256)) ∧
    itemOf (streaming 1 id) [0x42] = some (some .streamStop) ∧
    (itemOf (streaming 2 id) [0x43] = some (some .reserveRelease) ∧
      ((streaming 2 id).queue .a 0).stream.episodeOpen = false ∧
      ((streaming 2 fun x => { x with episodeOpen := true }).queue .a 0).stream.episodeOpen = true ∧
      (streaming 2 fun x => { x with episodeOpen := true }).inReserve .a 0 = false ∧
      ((streaming 2 fun x => { x with chan := some 0 }).queue .a 0).stream.chan = some 0) := by decide +kernel

def due0 : State :=
  streaming 1 fun x => { x with running := true }

/-- Slot 0 falls due in the superframe of the start with a lead of 0: with no item, with an item under way, and with one done. -/
def dueWith (ph : ItemPhase) : State :=
  (streaming 1 fun x => { x with running := true, slots := [(0, 0)], nextSlot := 1 }).modQueue .a 0 fun x =>
    { x with items := [⟨0, padded 64 [0x41], ph⟩] }

/-- A stream signal message for transaction 0 (Table 17.5), on channel 0. -/
def signalMsg (event : Nat) : Bytes := padded 18 [0x50, BitVec.ofNat 8 event]

/-- A send of queue 0 that runs. -/
def sendOp : Op := opOf .a 0 (item0 []) (bodyOf (padded 64 [0x22]) .send 0 0)

def signalled (event : Nat) : State :=
  delivered { streaming 3 id with transport := { Transport.reset with
    ops := [sendOp], lastFrames := [(0, 0, .a, 0, 0)] } } (signalMsg event)

theorem witness_StreamSlotsAndSignals :
    (due0.runs = true ∧ (due0.role .a 0).stream = 1 ∧ (due0.queue .a 0).stream.running = true ∧
      (due0.clock.sf - due0.due .a 0 0).toNat < 2 ^ 47 ∧
      ((due0.takeBuffer .a 0).queue .a 0).stream.slots.find? (fun e => e.1 == 0) = none) ∧
    ((dueWith .started).runs = true ∧
      ((dueWith .started).queue .a 0).stream.slots.find? (fun e => e.1 == 0) = some (0, 0) ∧
      (dueWith .started).findItem .a 0 0 = some ⟨0, padded 64 [0x41], .started⟩ ∧
      (dueWith (.done 0 0)).findItem .a 0 0 = some ⟨0, padded 64 [0x41], .done 0 0⟩) ∧
    ((signalled 1).runs = true ∧ field (signalMsg 1) 0 1 = 0x50 ∧
      ((signalled 1).chan 0).retry.inbox.contains (signalMsg 1) = true ∧
      (signalled 1).op (BitVec.ofNat 32 (field (signalMsg 1) 4 4)) = some sendOp ∧ sendOp.kind = .send ∧
      ((signalled 1).role sendOp.port sendOp.queue).stream = 3 ∧ field (signalMsg 1) 1 1 = 1 ∧
      field (signalMsg 3) 1 1 = 3 ∧ field (signalMsg 4) 1 1 = 4 ∧ field (signalMsg 6) 1 1 = 6) ∧
    (((signalled 2).transport.lastFrames.find? fun f => f.1 == (signalled 2).owner 0 &&
        f.2.1 == BitVec.ofNat 16 (field (signalMsg 2) 0x10 2)) = some (0, 0, .a, 0, 0) ∧
      run.transport.lastFrames.find? (fun f => f.1 == run.owner 0) = none ∧ field (signalMsg 5) 1 1 = 5) := by
  decide +kernel

/-! Witnesses of the line -/

def inData (f : Chan → Chan) : State :=
  chan0 (chanIn .data) f

/-- A table with one carrier of 12 bits, and the message that carries a table. -/
def someTable : Table := (12, 14) :: List.replicate 58 (0, 12)

def swapMsg (ident : Byte) : Bytes := tableMessage 0x11 ident 600 someTable

def later (s : State) (sf : Nat) : State :=
  { s with clock := { s.clock with sf := BitVec.ofNat 48 sf } }

/-- A channel in DATA whose received stream is found, at a symbol of its superframe. -/
def atSymbol (n : Nat) (f : Air → Air) : State :=
  inData fun x => { x with air := f { x.air with aligned := true, symbol := n } }

theorem witness_ReceiveAdaptationActs :
    ((chanIn .data).runs = true ∧ ((chanIn .data).chan 0).stands .data = true ∧
      ((chanIn .data).armedFor 3 (0 : ChanId).val).isSome = false ∧
      (chanIn .data).rxOver ((chanIn .data).chan 0) = false) ∧
    ((((inData fun x => { x with load := { x.load with armed := some someTable } }).chan 0).load.armed = some someTable) ∧
      ((chanIn .data).chan 0).load.armed = none) ∧
    ((chanIn .data).clock.slot = 0 ∧ (chanIn .data).manualGain 0 = none ∧ (running [(0x305, [1])]).elem 0x0305 0 = 1 ∧
      ((chanIn .data).chan 0).air.stepped = false ∧
      75 < ((-1276 : Int) + 1200).natAbs ∧ 75 < ((-1124 : Int) + 1200).natAbs ∧ ¬ 75 < ((-1125 : Int) + 1200).natAbs) ∧
    (let s := chan0 (atSymbol 128 id) fun x =>
        { x with rx := { x.rx with narrow := true }, load := { x.load with waiting := some someTable } }
     (s.chan 0).air.symbol = 128 ∧ (s.chan 0).rx.narrow = true ∧ (s.chan 0).load.waiting.isSome = true) ∧
    (((atSymbol 128 id).chan 0).rx.narrow = false ∧ tableWide ((atSymbol 128 id).chan 0).load.rxTable = false ∧
      ((chanIn .data).chan 0).air.aligned = false) ∧
    ((running [(0x306, [1])]).elem 0x0306 0 = 1 ∧
      256 ≤ ((atSymbol 64 fun a => { a with preEqFrames := 256 }).chan 0).air.preEqFrames) ∧
    (32 < ((atSymbol 0 fun a => { a with delay := 33 }).chan 0).air.delay ∧
      ((atSymbol 0 fun a => { a with delay := -33 }).chan 0).air.delay < -32) ∧
    (((chanIn .data).chan 0).rx.retraining = none ∧ ((chanIn .data).chan 0).rx.holdoff = none ∧
      ([-499, 0, 1, 2] : List Int).length = 4 ∧ ∀ r ∈ ([-499, 0, 1, 2] : List Int), -500 < r) ∧
    ((inData fun x => { x with rx := { x.rx with retraining := some 0 } }).chan 0).rx.retraining = some 0 ∧
    (let s := late (inData fun x => { x with rx := { x.rx with holdoff := some 0 } }) 65536
     (s.chan 0).rx.holdoff = some 0 ∧ 0 + 256 * 256 ≤ s.clock.symbols) := by decide +kernel

/-- A state in which a recomputation is due. -/
def recomputes (f : Chan → Chan) : State :=
  inData fun x => f { x with partner := { x.partner with highB := 12 }, air := { x.air with frames := 256 } }

def dueTable (s : State) (snr : List Int) : Table :=
  loadTable ((s.chan 0).dataSnr snr) (s.marginM 0) (s.elem 0x030A 0) (s.chan 0).partner.highB

/-- Carriers that carry nothing (B is 0, below 24), and all at 50 dB, with a request worth it and with one under way; a request that is
new, one repeated and one with a wrong B; the replies to it; a table due in this superframe; and a request 64 superframes old. -/
theorem witness_LoadingAndBitSwaps :
    (let s := recomputes id
     s.runs = true ∧ (s.chan 0).stands .data = true ∧ 256 ≤ (s.chan 0).air.frames ∧
       tableB (dueTable s (List.replicate 59 0)) < s.linkMinimum 0) ∧
    ((recomputes fun x => { x with load := { x.load with armed := some someTable } }).chan 0).load.armed.isSome = true ∧
    (let s := recomputes id
     let v := (s.chan 0).dataSnr (List.replicate 59 5000)
     s.linkMinimum 0 ≤ tableB (dueTable s (List.replicate 59 5000)) ∧ (s.chan 0).load.armed = none ∧
       (s.chan 0).load.waiting = none ∧ wantsSwap (s.marginM 0) (s.marginM 0 != (s.chan 0).load.lastMargin)
         (s.chan 0).load.rxTable (dueTable s (List.replicate 59 5000)) v = true) ∧
    (∃ t, Delivered (delivered (chanIn .data) (swapMsg 7)) 0 (swapMsg 7) 0x11 t ∧ (t.chan 0).stands .data = true ∧
      (t.chan 0).load.applied ≠ some (byteAt (swapMsg 7) 1) ∧ readTable (swapMsg 7) = some someTable) ∧
    (∃ t, Delivered (delivered (inData fun x => { x with load := { x.load with applied := some 7 } }) (swapMsg 7)) 0
      (swapMsg 7) 0x11 t ∧ (t.chan 0).load.applied = some (byteAt (swapMsg 7) 1)) ∧
    readTable (padded 67 [0x11]) = none ∧
    (∃ t, Delivered (delivered (inData fun x => { x with load := { x.load with armed := some someTable, ident := 7 } })
        [0x12, 7, 1]) 0 [0x12, 7, 1] 0x12 t ∧ (t.chan 0).stands .data = true ∧ (t.chan 0).load.armed.isSome = true ∧
      byteAt [0x12, 7, 1] 1 = (t.chan 0).load.ident ∧ byteAt [0x12, 7, 1] 2 = 1) ∧
    (let s := inData fun x => { x with load := { x.load with toApply := some (someTable, 0) } }
     (s.chan 0).load.toApply = some (someTable, 0) ∧ s.atBoundary = true ∧ (s.chan 0).stands .data = true ∧
       s.passedSf 0 0 = true) ∧
    (let s := late (inData fun x => { x with load := { x.load with armed := some someTable, attempts := 4 } }) 16384
     (s.chan 0).load.armed = some someTable ∧ s.runs = true ∧
       (s.chan 0).load.armedSince + 256 * 64 ≤ s.clock.symbols ∧ 4 ≤ (s.chan 0).load.attempts ∧
       (s.chan 0).load.replied = false) := by
  refine ⟨by decide +kernel, by decide +kernel, by decide +kernel, ⟨_, ⟨by decide, by decide, by decide +kernel, rfl⟩,
    by decide, by decide, by decide +kernel⟩,
    ⟨_, ⟨by decide, by decide, by decide +kernel, rfl⟩, by decide⟩, by decide +kernel,
    ⟨_, ⟨by decide, by decide, by decide, rfl⟩, by decide, by decide, by decide, by decide⟩, by decide +kernel,
    by decide +kernel⟩

def brings (l : LinkState) (f : Bringup → Bringup) : State :=
  chan0 (chanIn l) fun x => { x with bring := f x.bring }

/-- Capability words that are taken, of the wrong version, and of the node itself; a role word; start, assembled and hold frames. -/
def goodCapability : Nat := 1 + 2 ^ 8 * 5 + 2 ^ 24 * 12 + 2 ^ 35 * 24

theorem witness_SearchAndExchange :
    (let s := brings .search fun b => { b with calling := true }
     s.runs = true ∧ s.hears 0 1 = true ∧ callAccepted 1 (callFrame 1 goodCapability) = true ∧
       (s.chan 0).stands .search = true ∧ (s.chan 0).bring.calling = true ∧
       s.refuses (callPayload (callFrame 1 goodCapability)) = none ∧
       s.refuses (callPayload (callFrame 1 (goodCapability - 2 ^ 8 * 5))) = some 6 ∧
       s.refuses (callPayload (callFrame 1 (goodCapability + 1))) = some 7 ∧
       callAccepted 1 (callFrame 1 (goodCapability + 1)) = true) ∧
    (let s := brings .exchange fun b => { b with caller := true, capSeen := true }
     s.hears 0 3 = true ∧ callAccepted 2 (callFrame 2 1) = true ∧ (s.chan 0).stands .exchange = true ∧
       (s.chan 0).bring.capSeen = true ∧ (s.chan 0).bring.roleSeen = false ∧
       bits (callPayload (callFrame 2 1)) 7 0 = 1 ∧ bits (callPayload (callFrame 2 2)) 7 0 ≠ 1) ∧
    (let s := brings .exchange fun b => { b with roleSeen := true }
     s.hears 0 1 = true ∧ callAccepted 3 (callFrame 3 3) = true ∧ (s.chan 0).bring.caller = false ∧
       (s.chan 0).bring.countdown = none ∧ (s.chan 0).stands .exchange = true ∧ (s.chan 0).bring.roleSeen = true) ∧
    (let s := chanIn .assemble
     (s.chan 0).stands .assemble = true ∧ (s.chan 0).bring.countdown = none ∧ s.mayAssemble 0 = false ∧
       callAccepted 4 (callFrame 4 1) = true ∧ callAccepted 5 (callFrame 5 0) = true ∧
       callAccepted 5 (callFrame 5 1) = false) ∧
    (let s := brings .exchange fun b => { b with roleSeen := true }
     s.hears 0 1 = true ∧ s.mayAssemble 0 = true) ∧
    (let s := later (brings .search fun b => { b with toSearch := some 9 }) 162
     s.atBoundary = true ∧ s.clock.sf.toNat % 162 = 0 ∧ (s.chan 0).bring.toSearch = some 9) ∧
    (later (chanIn .search) 162).atBoundary = true ∧
    (let s := later (chanIn .assemble) 64
     s.runs = true ∧ (s.chan 0).bring.countdown = none ∧ s.passedSf (s.chan 0).bring.lastProgress 64 = true) ∧
    (let s := later (brings .assemble fun b => { b with caller := true }) 1296
     (s.chan 0).bring.caller = true ∧ s.passedSf (s.chan 0).bring.roundStart 1296 = true) ∧
    (let s := later (brings .assemble fun b => { b with countdown := some (true, 7) }) 8
     (s.chan 0).bring.countdown = some (true, 7) ∧ s.atBoundary = true ∧ (s.chan 0).stands .assemble = true ∧
       s.passedSf 7 1 = true) := by decide +kernel

def trains (l : LinkState) (f : Train → Train) : State :=
  chan0 (chanIn l) fun x => { x with train := f x.train }

def tableMsg : Bytes := tableMessage 0x10 0 600 someTable

theorem witness_TrainingAdvances :
    (∀ l ∈ [(LinkState.train1, 256), (.train2, 512), (.train3, 512), (.train4, 256)],
      phaseLength l.1 = some l.2 ∧ (later (chanIn l.1) l.2).atBoundary = true ∧
        ((later (chanIn l.1) l.2).chan 0).bring.toSearch = none ∧
        (later (chanIn l.1) l.2).passedSf ((later (chanIn l.1) l.2).chan 0).train.phaseStart l.2 = true) ∧
    (∃ t, Delivered (delivered (chanIn .train5) tableMsg) 0 tableMsg 0x10 t ∧ (t.chan 0).stands .train5 = true ∧
      (t.chan 0).load.toApply = none ∧ (t.chan 0).train.txMinus = false ∧ byteAt tableMsg 1 = 0 ∧
      readTable tableMsg = some someTable) ∧
    (byteAt (tableMessage 0x10 1 600 someTable) 1 ≠ 0 ∧ readTable (padded 67 [0x10]) = none) ∧
    (∃ t, Delivered (delivered (trains .fast fun y => { y with fast := .f3 }) (padded 20 [0x20])) 0 (padded 20 [0x20])
      0x20 t ∧ (t.chan 0).stands .fast = true ∧ (t.chan 0).train.fast = .f3 ∧ (t.chan 0).train.confirmed = false) ∧
    (∃ t, Delivered (delivered (chanIn .train5) (padded 20 [0x20])) 0 (padded 20 [0x20]) 0x20 t ∧
      (t.chan 0).stands .train5 = true) ∧
    (let s := chan0 (chanIn .train5) fun x => { x with load := { x.load with toApply := some (someTable, 0) } }
     (s.chan 0).load.toApply = some (someTable, 0) ∧ s.atBoundary = true ∧ (s.chan 0).trains = true ∧
       (s.chan 0).train.txMinus = false ∧ s.passedSf 0 0 = true) ∧
    (let s := later (chanIn .train5) 1024
     s.runs = true ∧ (s.chan 0).stands .train5 = true ∧ s.passedSf (s.chan 0).train.phaseStart 1024 = true) ∧
    (∃ t, Delivered (delivered (chanIn .data) [0x21, 2]) 0 [0x21, 2] 0x21 t ∧ (t.chan 0).stands .data = true ∧
      (t.chan 0).bring.leaving = none) ∧
    (∃ t, Delivered (delivered (brings .quiet fun b => { b with leaving := some (.off, 2, 3) }) [0x21, 2]) 0 [0x21, 2]
      0x21 t ∧ (t.chan 0).stands .quiet = true ∧ (t.chan 0).bring.leaving = some (.off, 2, 3)) := by
  refine ⟨by decide +kernel, ⟨_, ⟨by decide, by decide, by decide +kernel, rfl⟩, by decide, by decide, by decide,
    by decide, by decide +kernel⟩, by decide +kernel, ⟨_, ⟨by decide, by decide, by decide, rfl⟩, by decide, by decide,
    by decide⟩, ⟨_, ⟨by decide, by decide, by decide, rfl⟩, by decide⟩, by decide +kernel, by decide +kernel,
    ⟨_, ⟨by decide, by decide, by decide, rfl⟩, by decide, by decide⟩,
    ⟨_, ⟨by decide, by decide, by decide, rfl⟩, by decide, by decide⟩⟩

theorem witness_FastRetrainAdvances :
    (let s := later (chanIn .fast) 16
     (s.chan 0).stands .fast = true ∧ (s.chan 0).train.fast = .f1 ∧ s.atBoundary = true ∧
       s.passedSf (s.chan 0).train.phaseStart 16 = true) ∧
    (let s := later (chanIn .fast) 48
     s.runs = true ∧ s.passedSf (s.chan 0).train.phaseStart 48 = true) ∧
    (let s := later (trains .fast fun t => { t with silentSince := some 0 }) 1
     s.runs = true ∧ (s.chan 0).train.silentSince = some 0 ∧ s.passedSf 0 (s.elem 0x030B 0) = true) ∧
    (let s := later (trains .fast fun t => { t with fast := .f2 }) 16
     (s.chan 0).train.fast = .f2 ∧ s.atBoundary = true ∧ s.passedSf (s.chan 0).train.phaseStart 16 = true ∧
       lowMargins (s.marginM 0) (s.chan 0).load.rxTable ((s.chan 0).trainedSnr (List.replicate 59 5000)) ≤ 8) ∧
    (let s := chan0 (trains .fast fun t => { t with fast := .f2 }) fun x =>
        { x with load := { x.load with rxTable := List.replicate 59 (2, 12) } }
     8 < lowMargins (s.marginM 0) (s.chan 0).load.rxTable ((s.chan 0).trainedSnr (List.replicate 59 0))) ∧
    (let s := later (trains .fast fun t => { t with fast := .f3 }) 64
     (s.chan 0).train.fast = .f3 ∧ s.runs = true ∧ s.passedSf (s.chan 0).train.phaseStart 64 = true) := by
  decide +kernel

def quiets (l : LinkState) (f : QuietSt → QuietSt) : State :=
  chan0 (chanIn l) fun x => { x with quiet := f x.quiet }

theorem witness_QuietIsEnteredAndLeft :
    (let s := quiets .data fun q => { q with mode := true }
     s.runs = true ∧ (s.chan 0).stands .data = true ∧ (s.chan 0).quiet.mode = true ∧ (s.chan 0).quiet.requested = none ∧
       (s.chan 0).quiet.ending = false ∧ (s.chan 0).quiet.txEnded = false ∧ s.idleEnd 0 = true ∧
       (s.chan 0).quiet.idleSince + 256 * s.elem 0x0600 0 ≤ s.clock.symbols) ∧
    (let s := late (quiets .data fun q => { q with requested := some 0 }) 16384
     (s.chan 0).quiet.requested = some 0 ∧ (s.chan 0).quiet.ending = false ∧ (s.chan 0).quiet.txEnded = false ∧
       0 + 256 * 64 ≤ s.clock.symbols) ∧
    (let s := quiets .data fun q => { q with txEnded := true }
     (s.chan 0).quiet.txEnded = true ∧ (s.chan 0).quiet.alert = none) ∧
    (∃ t, Delivered (delivered (chanIn .data) [0x30, 80, 0]) 0 [0x30, 80, 0] 0x30 t ∧ (t.chan 0).stands .data = true ∧
      field [0x30, 80, 0] 1 1 ≤ 80 ∧ t.idleEnd 0 = true) ∧
    (∃ t, Delivered (delivered (quiets .data fun q => { q with requested := some 0 }) [0x31, 0, 0]) 0 [0x31, 0, 0] 0x31 t ∧
      (t.chan 0).quiet.requested.isSome = true ∧ (t.chan 0).quiet.ending = false ∧ field [0x31, 0, 0] 1 1 ≤ 80 ∧
      byteAt [0x31, 0, 0] 2 = 0 ∧ byteAt [0x31, 0, 1] 2 ≠ 0) ∧
    (let s := later (quiets .quiet fun q => { q with txEnded := true }) 81
     s.runs = true ∧ (s.chan 0).stands .quiet = true ∧ s.clock.slot = 0 ∧ (s.chan 0).quiet.txEnded = true ∧
       (s.chan 0).quiet.alert = none ∧ s.clock.sf.toNat % 81 = 0) ∧
    (∀ l ∈ [LinkState.quiet, .data], let s := quiets l fun q => { q with alert := some 73, rxEnded := true }
     s.runs = true ∧ ((s.chan 0).stands .quiet = true ∨ (s.chan 0).stands .data = true) ∧
       (s.chan 0).quiet.alert = some 73 ∧ (s.chan 0).quiet.heard = none ∧ 73 ≤ 73) ∧
    (let s := (quiets .quiet fun q => { q with txEnded := true }).modRetry 0 fun r => { r with lm := [[0]] }
     s.runs = true ∧ (s.chan 0).stands .quiet = true ∧ (s.chan 0).quiet.txEnded = true ∧ (s.chan 0).quiet.alert = none ∧
       s.hasWork 0 = true) ∧
    (let s := quiets .quiet fun q => { q with rxEnded := true, txEnded := true }
     s.runs = true ∧ (s.chan 0).stands .quiet = true ∧ (s.chan 0).quiet.txEnded = true ∧ (s.chan 0).quiet.heard = none ∧
       (s.chan 0).quiet.alert = none) ∧
    (((quiets .data fun q => { q with rxEnded := true }).chan 0).quiet.txEnded = false ∧
      ((quiets .data fun q => { q with rxEnded := true }).chan 0).quiet.heard = none) := by
  refine ⟨by decide +kernel, by decide +kernel, by decide, ⟨_, ⟨by decide, by decide, by decide, rfl⟩, by decide, by decide,
    by decide⟩, ⟨_, ⟨by decide, by decide, by decide, rfl⟩, by decide, by decide, by decide, by decide, by decide⟩,
    by decide, by decide, by decide, by decide, by decide⟩

def wakesWith (l : LinkState) (f : Wake → Wake) : State :=
  chan0 (chanIn l) fun x => { x with wake := f x.wake }

/-- An entry that matches every frame. -/
def anyFrame : WakeEntry := ⟨0, 0, true, zeros 32, zeros 32⟩

/-- The runs of a row of chips of 500 ns, in ps. -/
def runsOf : List Bool → List Nat
  | [] => []
  | x :: t =>
    match t, runsOf t with
    | y :: _, n :: r => if x == y then (n + 500000) :: r else 500000 :: n :: r
    | _, r => 500000 :: r

/-- The chips of a wake frame but for the last off run, as the decoder is given them. -/
def frameRuns : List Nat :=
  let r := runsOf (wakeChips 7 (zeros 32))
  if (wakeChips 7 (zeros 32)).getLast? = some false then r.dropLast else r

theorem test_wake_frame : wakeDecode frameRuns = some (7, zeros 32, wakeCheck 7 (zeros 32)) := by decide +kernel

theorem witness_SleepAndWakeAct :
    (∃ t, Delivered (delivered (chanIn .fast) [0x32]) 0 [0x32] 0x32 t ∧ (t.chan 0).stands .fast = true) ∧
    (let s := { wakesWith .sleep fun w => { w with armed := true } with
        image := { run.image with wake := [anyFrame] } }
     s.wakes = true ∧ (s.chan 0).link = .sleep ∧ (s.chan 0).wake.armed = true ∧ (s.chan 0).wake.sending = none ∧
       0 ≠ wakeCheck 7 (zeros 32) ∧ s.image.wake[(0 : ChanId).val]? = some anyFrame ∧
       anyFrame.matchesFrame 7 (zeros 32) = true ∧ frameRuns ≠ [] ∧ wakeDecode [1] = none ∧
       ({ anyFrame with mask := 0xFFFF } : WakeEntry).matchesFrame 7 (zeros 32) = false) ∧
    (let s := wakesWith .sleep fun w => { w with restoring := true }
     s.atBoundary = true ∧ (s.chan 0).wake.restoring = true ∧ (s.chan 0).stands .sleep = true) ∧
    ((wakesWith .search fun w => { w with restoring := true }).chan 0).stands .sleep = false ∧
    (let s := wakesWith .sleep fun w => { w with sending := some (7, [], .a, 0, 0), fromSleep := true }
     s.runs = true ∧ (s.chan 0).wake.sending = some (7, [], .a, 0, 0)) ∧
    (let s := later (trains .fast fun t => { t with answer := some 0 }) 100
     s.runs = true ∧ (s.chan 0).stands .fast = true ∧ (s.chan 0).train.fast = .f1 ∧ (s.chan 0).train.answer = some 0 ∧
       s.passedSf 0 (s.elem 0x0602 0) = true) ∧
    (let s := wakesWith .data fun w => { w with falseSince := some 0 }
     s.runs = true ∧ (s.chan 0).link.awake = true ∧ (s.chan 0).wake.falseSince = some 0 ∧
       0 + 256 * s.elem 0x0603 0 ≤ s.clock.symbols ∧ (s.chan 0).stands .data = true) ∧
    (let s := wakesWith .sleep fun w => { w with falseSince := some 0, restoring := true }
     (s.chan 0).link = .sleep ∧ (s.chan 0).wake.restoring = true ∧ (s.chan 0).wake.falseSince = some 0) := by
  refine ⟨⟨_, ⟨by decide, by decide, by decide, rfl⟩, by decide⟩, by decide +kernel, by decide, by decide, by decide,
    by decide, by decide, by decide⟩

/-! Witnesses of the transport, calibration, tasks and faults -/

def word (seq : BitVec 12) : Codeword := ⟨seq, 1, 255, [], some 0, some 0, [⟨0, .single⟩]⟩

def retries (l : LinkState) (f : Retry → Retry) : State :=
  chan0 (chanIn l) fun x => { x with retry := f x.retry }

/-- A resume message: byte 1 bit 0 says that its number is valid, bytes 2 and 3 hold the number. -/
def resumeMsg (valid n : Byte) : Bytes := [0x41, valid, n, 0]

theorem witness_RetryMessagesAct :
    (∃ t, Delivered (delivered (chanIn .data) [0x40]) 0 [0x40] 0x40 t) ∧
    (∃ t, Delivered (delivered (retries .data fun r => { r with
        resumption := .running false false, kept := [word 4095, word 0], oldNext := 1 }) (resumeMsg 1 0)) 0
        (resumeMsg 1 0) 0x41 t ∧ (t.chan 0).retry.resumption = .running false false ∧
      (t.chan 0).retry.kept = word 4095 :: [word 0] ∧ (field (resumeMsg 1 0) 1 1).testBit 0 = true ∧
      (BitVec.ofNat 12 (field (resumeMsg 1 0) 2 2) - (word 4095).seq).toNat ≤
        ((t.chan 0).retry.oldNext - (word 4095).seq).toNat) ∧
    (field (resumeMsg 0 0) 1 1).testBit 0 = false ∧
    (∃ t, Delivered (delivered (chanIn .data) (resumeMsg 1 0)) 0 (resumeMsg 1 0) 0x41 t ∧
      (t.chan 0).retry.resumption = .complete) ∧
    (∃ t, Delivered (delivered (chanIn .data) [0x42, 0, 0, 0, 0, 0, 1, 0]) 0 [0x42, 0, 0, 0, 0, 0, 1, 0] 0x42 t) ∧
    (∃ t, Delivered (delivered (chanIn .data) [0x43]) 0 [0x43] 0x43 t) ∧
    (let s := retries .data fun r => { r with retain := [word 0], clock := 1000 }
     s.runs = true ∧ (s.chan 0).txData = true ∧ (s.chan 0).retry.retain = word 0 :: [] ∧ (word 0).latest = some 0 ∧
       0 + s.retransmitTime 0 < (s.chan 0).retry.clock ∧ (s.chan 0).retry.resend = [] ∧ word 0 ∈ (s.chan 0).retry.retain ∧
       (word 0).first = some 0 ∧ 0 + s.elem 0x0705 0 ≤ (s.chan 0).retry.clock) ∧
    (let s := retries .data fun r => { r with bad := [zeros 32] }
     s.runs = true ∧ (s.chan (s.owner 0)).retry.bad.contains (zeros 32) = true) := by
  refine ⟨⟨_, ⟨by decide, by decide, by decide, rfl⟩⟩, ⟨_, ⟨by decide, by decide, by decide, rfl⟩, by decide, by decide,
    by decide, by decide⟩, by decide, ⟨_, ⟨by decide, by decide, by decide, rfl⟩, by decide⟩,
    ⟨_, ⟨by decide, by decide, by decide, rfl⟩⟩, ⟨_, ⟨by decide, by decide, by decide, rfl⟩⟩, by decide +kernel,
    by decide +kernel⟩

/-- A packet of a kind to node 0 from a node, with some flags. -/
def pkt (kind flags : Nat) (source : BitVec 16) (length : Nat) : Packet :=
  ⟨Head.bytes ⟨kind, flags, source, 0, 0, 0, 0, length, 0, 0, 0⟩, [], 0⟩

def fromPartner (kind length : Nat) : State := arrived (chanIn .data) (pkt kind 0 0 length)

/-- A packet that passes every check of its header. -/
theorem passes (s : State) (c : ChanId) (p : Packet) (k : Nat) (h : s.runs = true ∧ (readHead p.header).kind = k ∧
      (s.chan (s.owner c)).retry.arrived.contains p = true ∧ (readHead p.header).source = (s.chan c).partner.node ∧
      headFieldsOk (readHead p.header) = true ∧ (readHead p.header).dest.toNat = s.node ∧ s.faults.quiesced = false) :
    ∃ t, Passed s c p k (readHead p.header) t :=
  ⟨_, ⟨⟨h.1, rfl, h.2.1, h.2.2.1, h.2.2.2.1, rfl⟩, h.2.2.2.2.1, h.2.2.2.2.2.1, h.2.2.2.2.2.2⟩⟩

/-- A response or status that arrives at a state whose operations are as given. -/
theorem arrives (s : State) (c : ChanId) (p : Packet) (k : Nat) (o : Option Op) (h : s.runs = true ∧
      (readHead p.header).kind = k ∧ (s.chan (s.owner c)).retry.arrived.contains p = true ∧
      (readHead p.header).source = (s.chan c).partner.node ∧ s.op (readHead p.header).txn = o) :
    ∃ t, Arrived s c p k (readHead p.header) t ∧ t.op (readHead p.header).txn = o :=
  ⟨_, ⟨h.1, rfl, h.2.1, h.2.2.1, h.2.2.2.1, rfl⟩, h.2.2.2.2⟩

/-- A packet of a kind with a status and payload from the partner, for an operation of queue 0. -/
def answered (kind status : Nat) (payload : Bytes) (o : Op) : State × Packet :=
  let p : Packet := ⟨Head.bytes ⟨kind, 0, 0, 0, 0, 0, status, payload.length, 0, 0, 0⟩, payload, 0⟩
  ({ arrived (chanIn .data) p with transport := { Transport.reset with ops := [o] } }, p)

/-- An operation of queue 0 of a kind that has put its first chunk on its way. -/
def opOut (k : OpKind) : Op :=
  { opOf .a 0 (item0 []) { bodyOf [] k 0 0 with length := 1 } with next := 1, out := [(0, none)] }

def flushing : Op := { opOut .flush with flushing := true }

theorem witness_PacketsAreChecked :
    (let s := arrived (chanIn .data) (pkt 1 0 9 1)
     s.runs = true ∧ (readHead (pkt 1 0 9 1).header).kind = 1 ∧
       (s.chan (s.owner 0)).retry.arrived.contains (pkt 1 0 9 1) = true ∧
       (readHead (pkt 1 0 9 1).header).source ≠ (s.chan 0).partner.node) ∧
    (∃ t, Arrived (fromPartner 1 1) 0 (pkt 1 0 0 1) 1 (readHead (pkt 1 0 0 1).header) t ∧
      headFieldsOk (readHead (pkt 1 0 0 1).header) = true ∧ headFieldsOk (readHead (pkt 1 1 0 1).header) = false ∧
      headFieldsOk (readHead (pkt 1 0 0 4096).header) = true ∧ headFieldsOk (readHead (pkt 1 0 0 4097).header) = false ∧
      (readHead (pkt 1 0 0 1).header).dest.toNat = t.node ∧ t.faults.quiesced = false) ∧
    (∀ e ∈ [(1, 1), (2, 4096), (5, 24), (7, 0)], ∃ t, Passed (fromPartner e.1 e.2) 0 (pkt e.1 0 0 e.2) e.1
      (readHead (pkt e.1 0 0 e.2).header) t) ∧
    (∃ t, Passed (arrived (chanIn .data) (pkt 4 1 0 1)) 0 (pkt 4 1 0 1) 4 (readHead (pkt 4 1 0 1).header) t) ∧
    (readHead (pkt 4 1 0 1).header).flags.testBit 0 = true ∧ (readHead (pkt 4 2 0 1).header).flags.testBit 0 = false ∧
    (∃ t, Passed (arrived (chanIn .data) (pkt 4 2 0 1)) 0 (pkt 4 2 0 1) 4 (readHead (pkt 4 2 0 1).header) t) ∧
    (∃ t, Arrived (fromPartner 6 8) 0 (pkt 6 0 0 8) 6 (readHead (pkt 6 0 0 8).header) t ∧
      t.op (readHead (pkt 6 0 0 8).header).txn = none) ∧
    (∃ t, Arrived (fromPartner 9 0) 0 (pkt 9 0 0 0) 9 (readHead (pkt 9 0 0 0).header) t ∧
      t.op (readHead (pkt 9 0 0 0).header).txn = none) := by
  refine ⟨by decide +kernel, ⟨_, ⟨by decide, rfl, by decide +kernel, by decide +kernel, by decide +kernel, rfl⟩,
    by decide +kernel, by decide +kernel, by decide +kernel, by decide +kernel, by decide +kernel, by decide⟩, ?_,
    passes _ _ _ _ (by decide +kernel), by decide +kernel, by decide +kernel, passes _ _ _ _ (by decide +kernel),
    arrives _ _ _ _ none (by decide +kernel), arrives _ _ _ _ none (by decide +kernel)⟩
  intro e he
  apply passes
  revert e
  decide +kernel

/-- A read response with its chunk's bytes, one with a status, an atomic response, a flush response, and a status packet for each kind
of operation that one can name. -/
theorem witness_PacketsAreChecked_answers :
    (∀ e ∈ [(OpKind.read, 3, 0, [(7 : Byte)]), (.relay, 3, 0, [7]), (.read, 3, 0xB, []), (.atomic, 6, 0, zeros 8),
        (.atomic, 6, 0xB, []), (.write, 9, 6, []), (.relay, 9, 6, []), (.send, 9, 6, [])],
      ∃ t, Arrived (answered e.2.1 e.2.2.1 e.2.2.2 (opOut e.1)).1 0 (answered e.2.1 e.2.2.1 e.2.2.2 (opOut e.1)).2 e.2.1
        (readHead (answered e.2.1 e.2.2.1 e.2.2.2 (opOut e.1)).2.header) t ∧
        t.op (readHead (answered e.2.1 e.2.2.1 e.2.2.2 (opOut e.1)).2.header).txn = some (opOut e.1)) ∧
    (∃ t, Arrived (answered 8 0 [] flushing).1 0 (answered 8 0 [] flushing).2 8
      (readHead (answered 8 0 [] flushing).2.header) t ∧
      t.op (readHead (answered 8 0 [] flushing).2.header).txn = some flushing) ∧
    ((opOut .read).kind = .read ∧ (0 - (opOut .read).offset).toNat / 4096 = 0 ∧
      ((opOut .read).out.any fun e => e.1 == 0) = true ∧ ([7] : Bytes).length = (opOut .read).chunkLen 0) ∧
    ((opOut .atomic).kind = .atomic ∧ (opOut .atomic).next = 1) ∧
    (flushing.kind = .flush ∧ flushing.flushing = true ∧ flushing.failed = none ∧
      ((answered 8 0 [] flushing).1.takeFailure flushing.port flushing.queue flushing.chan).1 = none) := by
  refine ⟨?_, arrives _ _ _ _ _ (by decide +kernel), by decide +kernel, by decide +kernel, by decide +kernel⟩
  intro e he
  apply arrives
  revert e
  decide +kernel

def closedWin : Win := ⟨true, true, true, true, true, 0, 0, 0, 1, 4096, 0, true, true⟩

def heldReq : Req :=
  { ident := 3, chan := 0, port := .a, pkt := pkt 1 0 0 1, stage := .held 0 0, pages := [], win := some closedWin,
    stale := false, heldSince := some (0, 0), parts := [], prior := 0 }

def oneOp (f : Op → Op) : State :=
  { run with transport := { Transport.reset with ops := [f (opOf .a 0 (item0 []) (bodyOf [] .read 0 0))] } }

/-- Limits of 0 superframes, which have passed at once; a deduplication table of one entry and one of two. -/
theorem witness_TransportTimersExpire :
    (let s := { run with transport := { Transport.reset with reqs := [heldReq] } }
     s.runs = true ∧ s.req 3 = some heldReq ∧ heldReq.stage = .held 0 0 ∧ s.passedFrom 0 (s.par 0x0800) = true) ∧
    (let s := oneOp fun o => { o with resends := [(0, 1, some 0)] }
     s.runs = true ∧ (s.op 0).isSome = true ∧ (s.op 0).map (·.prep) = some none ∧ 0 ≤ s.clock.symbols) ∧
    (let s := oneOp fun o => { o with out := [(0, some 0)] }
     (s.op 0).map (·.kind) = some .read ∧ (s.passedFrom 0 (s.responseLimit 0)) = true) ∧
    (let x : CacheEntry := ⟨.a, 0, 1, 0, 0, closedWin, 4⟩
     (4095, x) ∈ ({ run with transport := { Transport.reset with cache := [(4095, x)] } } : State).transport.cache ∧
       x.age = 4) ∧
    (let d : Dedup := ⟨0, 9, 0, 0, some 0, 0⟩
     let e : Dedup := ⟨0, 8, 0, 0, some 0, 0⟩
     let s := { run with transport := { Transport.reset with dedup := [(1022, [d]), (1023, [e, d])] } }
     s.runs = true ∧ d ∈ Tab.get [] s.transport.dedup 1022 ∧ d ∈ Tab.get [] s.transport.dedup 1023 ∧ d.nonce = 9 ∧
       d.prior.isSome = true ∧ s.passedFrom d.since (s.par 0x0708) = true) := by decide +kernel

def calTask : Task := { newTask (.calibration 1 true 0 0) ⟨none, .a⟩ 0 with started := some 0 }

def calibratingNow : State :=
  { run with tasks := [calTask], calib := { Calib.reset with t := 200 }, tap := { run.tap with factory := 0x1400 } }

/-- R463: 20.000 pF times the ratio of the counts. -/
theorem test_timing_cap : calibratingNow.timingCap 5632 = 22000 := by decide +kernel

def noCal : CalMeasured := ⟨zeros 36, 0, [], 0, 0⟩

def storeAt (step : StoreStep) : Store :=
  { dev := .primary, point := 1, copyA := 0, copyB := 0, seq := 1, bytes := [], step := step, okA := false, okB := false,
    entry := 1, position := 0 }

def storing (step : StoreStep) : State :=
  { run with calib := { Calib.reset with store := some (storeAt step) } }


/-! A payload with nothing measured keeps R460 -/

/-- A block of a list of equal blocks. -/
theorem slice_blocks (f : Nat → Bytes) (k : Nat) : ∀ (l : List Nat) (i : Nat) (v : Nat), (∀ x ∈ l, (f x).length = k) →
    l[i]? = some v → ((l.flatMap f).drop (k * i)).take k = f v
  | x :: l, 0, v, h, e => by
    have hx := h x (by simp)
    simp only [List.getElem?_cons_zero, Option.some.injEq] at e
    simp [List.flatMap_cons, ← hx, e]
  | x :: l, i + 1, v, h, e => by
    have hx := h x (by simp)
    simp only [List.getElem?_cons_succ] at e
    have hd : k * (i + 1) = (f x).length + k * i := by rw [hx, Nat.mul_succ, Nat.add_comm]
    rw [List.flatMap_cons, hd, List.drop_length_add_append]
    exact slice_blocks f k l i v (fun y hy => h y (by simp [hy])) e

theorem length_blocks (f : Nat → Bytes) (k : Nat) : ∀ (l : List Nat), (∀ x ∈ l, (f x).length = k) →
    (l.flatMap f).length = k * l.length
  | [], _ => by simp
  | x :: l, h => by
    rw [List.flatMap_cons, List.length_append, h x (by simp), length_blocks f k l (fun y hy => h y (by simp [hy])),
      List.length_cons, Nat.mul_succ, Nat.add_comm]

def nomHead : Bytes :=
  le 1 1 ++ le 1 1 ++ le 2 Config.stepping ++ le 8 0 ++ le 4 0 ++ le 1 2 ++ zeros 15 ++ zeros 4 ++ zeros 4 ++ zeros 64 ++
    zeros 216

def nomLane (i : Nat) : Bytes := mixLane i false (nominalLane i) (laneBlock (zeros 36) i)

def nomChan (c : Nat) : Bytes := mixChan c false false false (nominalChan c) (chanBlock (zeros 36) c)

theorem nom_lengths : nomHead.length = 320 ∧ (∀ i ∈ List.range 32, (nomLane i).length = 40) ∧
    (∀ c ∈ List.range 64, (nomChan c).length = 600) := by decide +kernel

theorem nom_blocks : (∀ i ∈ List.range 32, laneBlockOk (nomLane i) i = true) ∧
    (∀ c : ChanId, calibratingNow.chanBlockOk (nomChan c.val) c = true) := by decide +kernel

def nominal : Bytes := nomHead ++ (List.range 32).flatMap nomLane ++ (List.range 64).flatMap nomChan

theorem mix_nominal : mixPayload 1 2 0 (calibratingNow.laneMask 0) none noCal = nominal := by
  have h : calibratingNow.laneMask 0 = 0 := by decide
  rw [h]
  unfold mixPayload nominal nomHead nomLane nomChan noCal
  simp
  rfl

theorem nominal_length : nominal.length = 40000 := by
  unfold nominal
  rw [List.length_append, List.length_append, length_blocks nomLane 40 _ nom_lengths.2.1,
    length_blocks nomChan 600 _ nom_lengths.2.2, nom_lengths.1]
  rfl

theorem nominal_lane (i : Nat) (h : i < 32) : laneBlock nominal i = nomLane i := by
  have hl := length_blocks nomLane 40 _ nom_lengths.2.1
  have e : 0x140 + 40 * i = nomHead.length + 40 * i := by rw [nom_lengths.1]
  unfold laneBlock slice nominal
  rw [List.append_assoc, e, List.drop_length_add_append, List.drop_append_of_le_length (by rw [hl]; simp; omega),
    List.take_append_of_le_length (by rw [List.length_drop, hl]; simp; omega)]
  exact slice_blocks nomLane 40 _ i i nom_lengths.2.1 (by simp [h])

theorem nominal_chan (c : Nat) (h : c < 64) : chanBlock nominal c = nomChan c := by
  have hl := length_blocks nomLane 40 _ nom_lengths.2.1
  have e : 0x640 + 600 * c = (nomHead ++ (List.range 32).flatMap nomLane).length + 600 * c := by
    rw [List.length_append, nom_lengths.1, hl]
    rfl
  unfold chanBlock slice nominal
  rw [e, List.drop_length_add_append]
  exact slice_blocks nomChan 600 _ c c nom_lengths.2.2 (by simp [h])

/-- The first 320 bytes and their fields. -/
theorem nominal_head : field nominal 0 1 = 1 ∧ field nominal 1 1 = 1 ∧ field nominal 2 2 = 0xB1 ∧
    field nominal 0x10 1 = 2 ∧ zeroAt nominal 0x11 15 = true ∧ zeroAt nominal 0x24 4 = true ∧
    zeroAt nominal 0x68 216 = true := by decide +kernel

theorem witness_nominal_payload : calibratingNow.payloadOk 1
    (mixPayload 1 2 0 (calibratingNow.laneMask 0) none noCal) = true := by
  obtain ⟨h1, h2, h3, h4, h5, h6, h7⟩ := nominal_head
  have hl : ((List.range 32).all fun i => laneBlockOk (laneBlock nominal i) i) = true := by
    simp only [List.all_eq_true]
    intro i hi
    rw [nominal_lane i (by simpa using hi)]
    exact nom_blocks.1 i hi
  have hc : (allChans.all fun c => calibratingNow.chanBlockOk (chanBlock nominal c.val) c) = true := by
    simp only [List.all_eq_true]
    intro c _
    rw [nominal_chan c.val c.isLt]
    exact nom_blocks.2 c
  rw [mix_nominal]
  unfold State.payloadOk
  rw [nominal_length, h1, h2, h3, h4, h5, h6, h7, hl, hc]
  rfl

theorem witness_CalibrationActs :
    (let s := late { run with pins := { run.pins with calN := true }, calib := { Calib.reset with highSince := some 0 } }
        (814 * 256)
     s.runs = true ∧ s.calib.highSince = some 0 ∧ s.pins.calN = true ∧ s.passedFrom 0 814 = true) ∧
    (let s := { run with pins := { run.pins with calN := false } }
     s.pins.calN = false ∧ s.watchesCal = true) ∧
    (let s := { run with calib := { Calib.reset with armed := true } }
     s.pins.calN = true ∧ s.watchesCal = true ∧ s.calib.armed = true ∧ s.pinTask = false) ∧
    (calibratingNow.runs = true ∧ calibratingNow.mayRun 84 1 = true ∧ noCal = calibratingNow.allowedOf noCal ∧
      calibratingNow.calibrating = some calTask ∧ calTask.started = some 0 ∧
      calibratingNow.calib.adopted = none ∧ calibratingNow.passedSf 0 (calibratingNow.par 0x0B01) = true ∧
      calTask.kind = .calibration 1 true 0 0 ∧ (0 : BitVec 64) &&& ~~~noCal.noSpare = 0 ∧
      calTask.origin.item.isSome = false ∧ calibratingNow.nearPoint 1 = true ∧
      (calibratingNow.calib.sets.find? fun e => e.1 == 1).map (·.2) = none) ∧
    (∀ k ∈ [StoreStep.erase 15, .program 0, .lastErase 15 true, .lastProgram, .readback, .lastRead],
      (storing k).runs = true ∧ (storing k).calib.store.isSome = true) ∧
    ((storing .readback).armedFor 6 0).isSome = false := by decide +kernel

def expiring : Reaction := ⟨.device, some 100, 5, []⟩

def soundTask (mode : Nat) : Task :=
  { newTask (.sounding 0 mode) (itemOrigin .a 0 (item0 [])) 0 with started := some 0 }

def tasked (t : Task) (sf : Nat) : State := later { run with tasks := [t] } sf

theorem witness_BackgroundTasksAct :
    (let s := later (chan0 (running [(0x500, [16])]) fun x =>
        { x with quality := { x.quality with counted := 1 } }) 32
     s.runs = true ∧ s.mayRun 87 4 = true ∧ s.period 0 ≠ 0 ∧ s.clock.sf.toNat % s.period 0 = 0 ∧ 0 < (s.chan 0).quality.counted) ∧
    (run.atBoundary = true ∧ run.startsTasks = true ∧ run.sched.scrub = none ∧
      ({ run with sched := { run.sched with scrub := some 0 } } : State).sched.scrub.isSome = true ∧
      (tasked (newTask (.sounding 0 3) ⟨none, .a⟩ 0) 1).nextTask false = some (newTask (.sounding 0 3) ⟨none, .a⟩ 0) ∧
      (tasked (newTask (.calibration 1 true 0 0) ⟨none, .a⟩ 0) 1).nextTask true =
        some (newTask (.calibration 1 true 0 0) ⟨none, .a⟩ 0)) ∧
    ((tasked (soundTask 1) 9).sounding [1, 2] = some (soundTask 1, 0, 1) ∧
      (tasked (soundTask 1) 9).runs = true ∧ (tasked (soundTask 1) 9).mayRun 85 2 = true ∧
      (soundTask 1).started = some 0 ∧ (tasked (soundTask 1) 9).passedSf 0 (measureTime 1) = true ∧
      ({ soundTask 1 with broken := 3 } : Task).broken ≠ 0) ∧
    ((tasked (soundTask 3) 64).sounding [3] = some (soundTask 3, 0, 3) ∧
      (tasked (soundTask 3) 64).runs = true ∧ (tasked (soundTask 3) 64).mayRun 85 2 = true ∧
      (soundTask 3).started = some 0 ∧ (tasked (soundTask 3) 64).passedSf 0 (measureTime 3) = true) ∧
    (let s := late { run with faults := { Faults.reset with reactions := [expiring] } } 100
     s.runs = true ∧ s.reaction .device = some expiring ∧ expiring.expires = some 100 ∧ 100 ≤ s.clock.symbols) ∧
    (let s := later { run with faults := { Faults.reset with armed := [(7, 0, .a, 0, 0, 0)] } } 65536
     s.runs = true ∧ (s.faults.armed.find? fun a => a.1 == (7 : Fin 8).val) = some (7, 0, .a, 0, 0, 0) ∧
       s.passedSf 0 65536 = true) := by
  refine ⟨?_, ?_, ?_, ?_, ?_, ?_⟩ <;> decide +kernel

/-- Item 1 is done and waits for item 0, which completes now; and an item that has completed, or is not held. -/
theorem witness_CompletionsInOrder :
    (let s := anchored.modQueue .a 0 fun x => { x with
        items := [⟨0, zeros 64, .started⟩, ⟨1, zeros 64, .done 0 0⟩] }
     s.findItem .a 0 0 = some ⟨0, zeros 64, .started⟩ ∧ Item.isDone ⟨0, zeros 64, .started⟩ = false ∧
       (s.rings .a).anchor = some anchor1 ∧ (∃ i, s.findItem .a 0 1 = some i ∧ i.isDone = true) ∧
       s.findItem .a 0 2 = none) :=
  ⟨by decide, by decide, by decide, ⟨⟨1, zeros 64, .done 0 0⟩, by decide, by decide⟩, by decide⟩

/-- The last threshold of a window, its first superframe after the end, a total at its limit, and a source that is severe. -/
theorem witness_OccurrencesAreCounted :
    (let s := { later (running [(0xA00, [3, 0]), (0xA01, [100])]) 100 with
        faults := { Faults.reset with sources := [(5, { Source.reset with count := 2, total := 2 ^ 32 - 1 }),
          (6, { Source.reset with severe := true })] } }
     (5 ≠ 0x394 ∧ 5 ≠ 0x395) ∧ s.threshold 0 = 3 ∧ s.window 0 = 100 ∧ (s.source 5).count = 2 ∧
       (s.source 5).severe = false ∧ min ((s.source 5).total + 1) (2 ^ 32 - 1) = 2 ^ 32 - 1 ∧
       100 ≤ (s.clock.sf - (s.source 5).start).toNat ∧ (s.source 6).severe = true) := by decide +kernel

/-! An anchor block that passes every check -/

/-- A function applied n times; the match makes each value a number before the next step. -/
def iter (f : Nat → Nat) : Nat → Nat → Nat
  | 0, c => c
  | n + 1, c =>
    match f c with
    | 0 => iter f n 0
    | m + 1 => iter f n (m + 1)

theorem iter_succ (f : Nat → Nat) (n c : Nat) : iter f (n + 1) c = iter f n (f c) := by
  rw [iter]
  generalize f c = d
  cases d <;> rfl

theorem foldl_zeros (f : Nat → Nat) : ∀ (n c : Nat), (zeros n).foldl (fun c x => f (c ^^^ x.toNat)) c = iter f n c
  | 0, _ => rfl
  | n + 1, c => by
    have z : zeros (n + 1) = (0 : Byte) :: zeros n := rfl
    have x : c ^^^ (0 : Byte).toNat = c := Nat.xor_zero c
    rw [z, List.foldl_cons, x, foldl_zeros f n, iter_succ]

/-- One byte of the checksum's shifts. -/
def crcStep (c : Nat) : Nat := crcShift 0x82F63B78 8 c

theorem crc_steps (b : Bytes) : crc32c b = (b.foldl (fun c x => crcStep (c ^^^ x.toNat)) 0xFFFFFFFF) ^^^ 0xFFFFFFFF := rfl

/-- Port A, the index block at 0x2000, one record ring and one completion ring of the least sizes at address 0, routing to ring 0, and
no queue enabled. -/
def anchorHead : Bytes :=
  [0x41, 0x51, 0x41, 0x4E, 1, 0, 0, 0, 0, 0x20] ++ zeros 30 ++ [1, 1]

def anchorRest : Bytes := zeros 4050 ++ le 4 3535093809

def anchorBlock : Bytes := anchorHead ++ anchorRest

theorem anchor_crc : crc32c (slice anchorBlock 0 0xFFC) = 3535093809 := by
  have h : slice anchorBlock 0 0xFFC = anchorHead ++ zeros 4050 := by
    unfold slice anchorBlock anchorRest
    rw [List.drop_zero, ← List.append_assoc]
    exact List.take_left' (by rw [List.length_append, zeros, List.length_replicate]; decide)
  have e : iter crcStep 4050 (anchorHead.foldl (fun c x => crcStep (c ^^^ x.toNat)) 0xFFFFFFFF) ^^^ 0xFFFFFFFF =
      3535093809 := by decide +kernel
  rw [h, crc_steps, List.foldl_append, foldl_zeros]
  exact e

/-- Past its head the block is zero up to the checksum. -/
theorem anchor_zero (off k : Nat) (h1 : 42 ≤ off) (h2 : off + k ≤ 4092) : slice anchorBlock off k = zeros k := by
  have l : anchorHead.length = 42 := by decide
  have e : off = anchorHead.length + (off - 42) := by omega
  have d : (zeros 4050).drop (off - 42) = zeros (4050 - (off - 42)) := List.drop_replicate ..
  have m : min k (4050 - (off - 42)) = k := by omega
  unfold slice anchorBlock anchorRest
  rw [e, List.drop_length_add_append, List.drop_append_of_le_length (by rw [zeros, List.length_replicate]; omega), d,
    List.take_append_of_le_length (by rw [zeros, List.length_replicate]; omega), zeros, List.take_replicate, m]
  rfl

theorem unLe_zeros : ∀ k, unLe (zeros k) = 0
  | 0 => rfl
  | k + 1 => by
    show (0 : Byte).toNat + 256 * unLe (zeros k) = 0
    rw [unLe_zeros k]
    rfl

theorem anchor_field (off k : Nat) (h1 : 42 ≤ off) (h2 : off + k ≤ 4092) : field anchorBlock off k = 0 := by
  have h := anchor_zero off k h1 h2
  unfold slice at h
  rw [field, h, unLe_zeros]

theorem anchor_zeroAt (off k : Nat) (h1 : 42 ≤ off) (h2 : off + k ≤ 4092) : zeroAt anchorBlock off k = true := by
  rw [zeroAt, anchor_zero off k h1 h2]
  simp [zeros]

theorem anchor_ring (off : Nat) (h1 : 42 ≤ off) (h2 : off + 16 ≤ 4092) : ringDesc anchorBlock off = (0, 0, false) := by
  simp [ringDesc, anchor_field off 8 h1 (by omega), anchor_field (off + 8) 1 (by omega) (by omega),
    anchor_field (off + 9) 1 (by omega) (by omega)]

/-- What the block says. -/
def anchorSaid : Anchor :=
  { addr := 0, indexBlock := 0x2000, windowBase := 0, windowSlots := 0, queueBase := 0, recordRings := 1,
    completionRings := 1, routing := List.replicate 16 0, records := List.replicate 8 (0, 0, false),
    completions := List.replicate 64 (0, 0, false), queues := List.replicate 512 0 }

theorem map_const {α : Type} (n : Nat) (f : Nat → α) (x : α) (h : ∀ i < n, f i = x) :
    (List.range n).map f = List.replicate n x := by
  rw [List.eq_replicate_iff]
  refine ⟨by simp, ?_⟩
  intro y hy
  obtain ⟨i, hi, rfl⟩ := List.mem_map.1 hy
  exact h i (List.mem_range.1 hi)

theorem anchor_read : readAnchor 0 anchorBlock = anchorSaid := by
  unfold readAnchor anchorSaid
  rw [anchor_zero 0x30 16 (by decide) (by decide),
    map_const 8 _ (0, 0, false) fun i _ => anchor_ring _ (by omega) (by omega),
    map_const 64 _ (0, 0, false) fun i _ => anchor_ring _ (by omega) (by omega),
    map_const 512 _ 0 fun i _ => by rw [anchor_field _ 4 (by omega) (by omega)]; rfl]
  rfl

theorem anchor_reserved : anchorReservedOk anchorBlock anchorSaid = true := by
  have z : zeroAt anchorBlock 6 2 = true ∧ zeroAt anchorBlock 0x1C 4 = true := by decide
  have r : ∀ off u, 42 ≤ off → off + 16 ≤ 4092 → ringReserved anchorBlock off u = true := by
    intro off u h1 h2
    unfold ringReserved
    rw [anchor_field (off + 9) 1 (by omega) (by omega), anchor_zeroAt (off + 0xA) 6 (by omega) (by omega),
      anchor_zeroAt off 16 h1 h2]
    cases u <;> rfl
  have q : (anchorSaid.queues.all fun d => if descEnabled d then !d.getLsbD 31 else d == 0) = true := by
    rw [List.all_eq_true]
    intro d hd
    rw [List.eq_of_mem_replicate hd]
    decide
  unfold anchorReservedOk
  rw [z.1, z.2, anchor_zeroAt 0x2A 6 (by decide) (by decide), anchor_zeroAt 0xCC0 828 (by decide) (by decide), q]
  simp only [Bool.and_eq_true, List.all_eq_true, List.mem_range, and_true, true_and]
  exact ⟨fun i _ => r _ _ (by omega) (by omega), fun i _ => r _ _ (by omega) (by omega)⟩

theorem anchor_checks : (slice anchorBlock 0 4 == [0x41, 0x51, 0x41, 0x4E] && field anchorBlock 4 1 == 1 &&
      field anchorBlock 5 1 == Port.a.num) = true ∧ anchorAlignedOk anchorSaid = true ∧
    anchorCountsOk anchorSaid = true ∧ anchorSizesOk anchorSaid = true ∧ anchorRoutingOk anchorSaid = true ∧
    anchorQueuesOk anchorSaid = true := by
  decide +kernel

theorem anchor_last : field anchorBlock 0xFFC 4 = 3535093809 := by
  have e : (0xFFC : Nat) = (anchorHead ++ zeros 4050).length := by
    rw [List.length_append, zeros, List.length_replicate]
    decide
  have h : anchorBlock = (anchorHead ++ zeros 4050) ++ le 4 3535093809 := (List.append_assoc ..).symm
  rw [field, h, e, List.drop_left']
  · rfl
  · rfl

/-- The anchor of the test states above is no block that passes; this one does. -/
theorem witness_anchor_accepted : anchorCode .a anchorBlock = 0 ∧ (up.rings .a).anchor = none := by
  obtain ⟨h1, h2, h3, h4, h5, h6⟩ := anchor_checks
  refine ⟨?_, by decide⟩
  unfold anchorCode
  rw [h1, anchor_crc, anchor_last, anchor_read]
  simp only [anchor_reserved, h2, h3, h4, h5, h6]
  decide

/-! ### Small facts with expected values from the spec's check values and worked cases -/

/-- The nine ASCII bytes "123456789" (R135, R342). -/
def nine : Bytes := [0x31, 0x32, 0x33, 0x34, 0x35, 0x36, 0x37, 0x38, 0x39]

theorem test_crc32c_check : crc32c nine = 0xE3069283 := by decide +kernel

theorem test_crc64_check : crc64 nine = 0x6C40DF5F0B497347 := by decide +kernel

/-- Table 8.2. -/
theorem test_pilot_points : pilotPoints 4 = [(-1, -1), (-1, -1), (-1, 1), (1, 1)] := by decide +kernel

/-- The check value after R162. -/
theorem test_sync_points : (syncPoints false).take 5 = [(-1, -1), (-1, -1), (-1, -1), (-1, -1), (-1, 1)] := by decide +kernel

/-- The check value after R170. -/
theorem test_scrambler : (scramble (List.replicate 19 false) 0x7FFFFF).1 = List.replicate 18 false ++ [true] := by
  decide +kernel

/-- The five carriers of the worked case of chapter 9, at M = 6.0 dB: bits, and gain codes for +1.0, −1.0, −5.0, −1.0 and 0 dB. -/
theorem test_loading : [4620, 4500, 5200, 3000, 900].map (loadCarrier 12 60 false) =
    [(12, 14), (11, 10), (12, 2), (6, 10), (0, 12)] := by decide +kernel

/-- The stand-end board of chapter 2's worked case. -/
theorem test_identity :
    ({ run with start := { run.start with codes := [15, 7, 10, 2, 5, 1, 0] } } : State).node = 0x2A7F ∧
    ({ run with start := { run.start with codes := [15, 7, 10, 2, 5, 1, 0] } } : State).partition = 0x015 := by decide

/-- R384's times at B = 708 and at B = 24 in both directions. -/
theorem test_retransmit_time :
    (inData fun x => { x with load := { x.load with
      txTable := List.replicate 59 (12, 12), rxTable := List.replicate 59 (12, 12) } }).retransmitTime 0 = 64 ∧
    (inData fun x => { x with load := { x.load with
      txTable := [(12, 12), (12, 12)], rxTable := [(12, 12), (12, 12)] } }).retransmitTime 0 = 432 := by decide +kernel

/-- The due superframes of slots 1,000 to 1,002 in chapter 17's worked case. -/
theorem test_stream_due :
    (let s := (running [(0x901, [262144]), (0x902, [4916])]).modQueue .a 0 fun x => { x with
        stream := { x.stream with start := 65536, lead := 814 } }
     s.due .a 0 1000 = 119674 ∧ s.due .a 0 1001 = 119727 ∧ s.due .a 0 1002 = 119781) := by decide +kernel

/-- IDSEL1 of the same case, at 11.2 kΩ and at 13.9 kΩ, and an open pin. -/
theorem test_resistor_bands : resistorCode (some 11200) = (7, true) ∧ resistorCode (some 13900) = (8, false) ∧
    resistorCode none = (15, false) := by decide

/-- An override below CH.008 leaves M, and its item is done (R470). -/
theorem test_margin_refused : ∃ t, exec (.marginOverride .a 0) (queued (running [(0x308, [100]), (0x309, [900])])
    [11, 0, 0, 0, 0, 0, 0, 0, 0, 0, 99, 0]) = .next t ∧ (t.chan 0).load.override = none ∧ (t.queue .a 0).items = [] :=
  ⟨_, rfl, by decide +kernel, by decide +kernel⟩
end Sys2Proof.Tests
end

section
/-! SUPPORT. What the commands do to the time base (R17): the slot tick moves it on, every other command keeps the superframe
count or puts the device into the reset state. -/

namespace Sys2Proof.Machine

/-! ### The slot tick -/

/-- The work of a slot counts one symbol and leaves the rest of the time base as the tick has set it. -/
theorem within_slotWork (s : State) :
    Within { s with clock := { s.clock with symbols := s.clock.symbols + 1 } } s.slotWork := by
  unfold State.slotWork
  dsimp only
  generalize { s with clock := { s.clock with symbols := s.clock.symbols + 1 } } = u
  have w : Within u (eachChan (fun t c => t.modChan c Chan.freshSymbol)
      ((u.actAllHeld .a).actAllHeld .b).decideAll.liveChans ((u.actAllHeld .a).actAllHeld .b).decideAll) :=
    within_eachChan (within_decideAll (within_actAllHeld (within_actAllHeld (Within.refl u)))) fun _ _ k => within_modChan k
  exact within_background (within_owedStart (within_owedStart
    (within_eachChan (within_ite (within_boundary w) w) fun _ _ k => within_chanSymbol k)))

theorem slotWork_clock (s : State) : s.slotWork.clock = { s.clock with symbols := s.clock.symbols + 1 } :=
  (within_slotWork s).clock

theorem slotWork_stage (s : State) : s.slotWork.start.stage = s.start.stage :=
  (within_slotWork s).stage

/-- The time base goes on by one slot, and after slot 255 by one superframe. -/
theorem nextSlot_clock (s : State) : s.nextSlot.clock = { s.clock with
    slot := s.clock.slot + 1, sf := if s.clock.slot = 255 then s.clock.sf + 1 else s.clock.sf } := by
  unfold State.nextSlot
  split
  · next h =>
    have w : Within s (eachChan State.countSuperframe s.liveChans s) :=
      within_eachChan (Within.refl s) fun _ _ k => within_countSuperframe k
    simp [w.clock, h]
  · rfl

/-- At the first tick after a reset the channels' start states and CAL_N's count leave the time base. -/
theorem within_starting (s : State) : Within s (eachChan State.startChan allChans s).beginCalCount :=
  within_beginCalCount (within_eachChan (Within.refl s) fun _ _ k => within_startChan k)

/-- The schedule starts at slot 0: of superframe 0 after a reset, of the next superframe after a dormant state (R274). -/
theorem firstTick_clock (s : State) : s.firstTick.clock = { s.clock with
    slot := 0, sf := if s.start.kind = 0 then 0 else s.clock.sf + 1 } := by
  unfold State.firstTick
  split
  · exact (within_starting _).clock
  · rfl

theorem firstTick_stage (s : State) : s.firstTick.start.stage = .running := by
  unfold State.firstTick
  split
  · rw [(within_starting _).stage]
  · rfl

section
variable (slack : List (Nat × Int)) (late : List Nat) (rx : List (ChanId × Reception)) (errors : List SramError)

/-- A tick of the running schedule moves the time base by one slot and one symbol. -/
theorem slotTick_running {s : State} (h : s.runs = true) : ∃ t, exec (.slotTick slack late rx errors) s = .next t ∧
    t.clock = { s.clock with
      slot := s.clock.slot + 1
      sf := if s.clock.slot = 255 then s.clock.sf + 1 else s.clock.sf
      symbols := s.clock.symbols + 1 } := by
  obtain ⟨hr, hi⟩ : s.start.stage = .running ∧ s.clock.interrupted = false := by simpa [State.runs] using h
  have before : Within s ((s.endSlot rx).endLists slack late) := within_endLists (within_endSlot (Within.refl s))
  have after (u : State) : Within u (sramErrors errors u).injectedScrub :=
    within_injectedScrub (within_sramErrors (Within.refl u))
  refine ⟨(sramErrors errors ((s.endSlot rx).endLists slack late).nextSlot.slotWork).injectedScrub, ?_, ?_⟩
  · simp [exec, execSlotTick, hr, hi]
  · rw [(after _).clock, slotWork_clock, nextSlot_clock, before.clock]

/-- The first tick sets the schedule running at slot 0. -/
theorem slotTick_ready {s : State} (h : s.start.stage = .ready) (hc : s.start.recount = none)
    (hi : s.clock.interrupted = false) : ∃ t, exec (.slotTick slack late rx errors) s = .next t ∧
    t.start.stage = .running ∧ t.clock = { s.clock with
      slot := 0, sf := if s.start.kind = 0 then 0 else s.clock.sf + 1, symbols := s.clock.symbols + 1 } := by
  refine ⟨s.firstTick.slotWork, ?_, ?_, ?_⟩
  · simp [exec, execSlotTick, h, hc, hi]
  · rw [slotWork_stage, firstTick_stage]
  · rw [slotWork_clock, firstTick_clock]

end

/-! ### Operations that keep the superframe count -/

theorem Within.sf {o t : State} (h : Within o t) : t.clock.sf = o.clock.sf := by rw [h.clock]

@[simp] theorem takeSource_sf (s : State) (level : Bool) : (s.takeSource level).clock.sf = s.clock.sf := rfl

@[simp] theorem beginSwitch_sf (s : State) (level : Bool) : (s.beginSwitch level).clock.sf = s.clock.sf := by
  unfold State.beginSwitch
  dsimp only [takeSource_sf]
  exact (within_beforeSwitch s).sf

@[simp] theorem deselect_sf (s : State) : s.deselect.clock.sf = s.clock.sf := (within_deselect (Within.refl s)).sf

@[simp] theorem countSwitch_sf (s : State) (r : Option Stage) : (s.countSwitch r).clock.sf = s.clock.sf := rfl

@[simp] theorem tselChanged_sf (s : State) (level : Bool) : (s.tselChanged level).clock.sf = s.clock.sf := by
  unfold State.tselChanged
  split
  case h_12 =>
    split
    · rfl
    · exact beginSwitch_sf s level
  all_goals simp

@[simp] theorem endSwitch_sf (s : State) : s.endSwitch.clock.sf = s.clock.sf :=
  (within_reissueStore (Within.refl _)).sf

@[simp] theorem lineStop_sf (s : State) (e : Entry) : (s.lineStop e).clock.sf = s.clock.sf := by
  simp [State.lineStop, (within_holdLinks (Within.refl s)).sf]

@[simp] theorem forgetHost_sf (s : State) : s.forgetHost.clock.sf = s.clock.sf := by
  have w : Within s (eachChan State.forgetChan allChans s.forgetFaults) :=
    within_eachChan (within_forgetFaults (Within.refl s)) fun _ _ k => within_modRetry (within_modWake k)
  exact w.sf

@[simp] theorem exitBegin_sf (s : State) (k : DormantKind) : (s.exitBegin k).clock.sf = s.clock.sf := by
  cases k <;> simp [State.exitBegin]

@[simp] theorem beginLoad_sf (s : State) (d : FlashDev) : (s.beginLoad d).clock.sf = s.clock.sf :=
  (within_loadCommands (Within.refl _)).sf

@[simp] theorem warmRun_sf (s : State) (n : Nat) : (s.warmRun n).clock.sf = s.clock.sf := by
  simp [State.warmRun]

@[simp] theorem sampleStraps_sf (s : State) (l : StrapLevels) (c : Bool) : (s.sampleStraps l c).clock.sf = s.clock.sf := by
  unfold State.sampleStraps
  dsimp only
  split <;> rfl

@[simp] theorem copyFailed_sf (s : State) (d : FlashDev) (code : Nat) : (s.copyFailed d code).clock.sf = s.clock.sf := by
  cases d
  · exact beginLoad_sf _ _
  · rfl

@[simp] theorem acceptImage_sf (s : State) (d : FlashDev) : (s.acceptImage d).clock.sf = s.clock.sf := by
  cases d <;> rfl

@[simp] theorem loadCoefficients_sf (s : State) (p m : CoeffRead) (t : Int) :
    (s.loadCoefficients p m t).clock.sf = s.clock.sf :=
  (within_applyTrims (within_newTemp (Within.refl _))).sf

@[simp] theorem setReset_sf (s : State) (pin : ResetPin) (level : Bool) : (s.setReset pin level).clock.sf = s.clock.sf := by
  cases pin <;> rfl

@[simp] theorem leaveReset_sf (s : State) : s.leaveReset.clock.sf = s.clock.sf := rfl

@[simp] theorem edgesSeen_sf (s : State) (w : KeyWait) : (s.edgesSeen w).clock.sf = s.clock.sf := by
  cases w <;> simp [State.edgesSeen]

/-! ### Commands that keep the superframe count -/

/-- A meaning answers a next state of the same superframe count. -/
def KeepsSf (s : State) : Host.Outcome State Fault Refusal → Prop
  | .next t => t.clock.sf = s.clock.sf
  | _ => False

theorem KeepsSf.ite {s a b : State} {c : Prop} [Decidable c] (h : a.clock.sf = s.clock.sf)
    (k : b.clock.sf = s.clock.sf) : KeepsSf s (if c then .next a else .next b) := by
  split <;> assumption

theorem WithinR.keepsSf {s : State} {r : Host.Outcome State Fault Refusal} (h : WithinR s r) : KeepsSf s r := by
  cases r with
  | next => exact Within.sf h
  | fault => exact h
  | refused => exact h

theorem keepsSf_execTselChange (level : Bool) (s : State) : KeepsSf s (execTselChange level s) :=
  .ite rfl (tselChanged_sf _ level)

theorem keepsSf_execSourceSwitchDone (s : State) : KeepsSf s (execSourceSwitchDone s) :=
  .ite (endSwitch_sf s) rfl

theorem keepsSf_execStartupSwitchCountDone (k : Fin 20) (d : Nat) (s : State) :
    KeepsSf s (execStartupSwitchCountDone k d s) := by
  unfold execStartupSwitchCountDone
  split
  · dsimp only
    split
    · exact (within_loadCommand (Within.refl _)).sf
    · exact (within_say (Within.refl _)).sf
    · exact rfl
    · exact rfl
  · exact rfl

theorem keepsSf_execHckInterruption (s : State) : KeepsSf s (execHckInterruption s) := by
  have stopped := (within_modLink (Within.refl s) (x2 := s.sourcePort) (x3 := fun l => { l with clockStopped := true })).sf
  unfold execHckInterruption
  dsimp only
  split
  · exact stopped
  · exact (within_breakAll (Within.refl _)).sf.trans stopped

theorem keepsSf_execHckReturn (s : State) : KeepsSf s (execHckReturn s) := by
  unfold execHckReturn
  dsimp only
  split
  · have back := (within_portClockBack (Within.refl { s with
      clock := { s.clock with interrupted := false, pendingTsel := false } }) (x2 := s.sourcePort)).sf
    exact .ite ((beginSwitch_sf _ _).trans back) back
  · exact rfl

theorem keepsSf_execDormantLineStop (s : State) : KeepsSf s (execDormantLineStop s) := by
  unfold execDormantLineStop
  split
  · exact .ite (lineStop_sf s _) rfl
  · exact rfl

theorem keepsSf_execDormantExitBegin (s : State) : KeepsSf s (execDormantExitBegin s) := by
  unfold execDormantExitBegin
  split
  · exact .ite (exitBegin_sf s _) rfl
  · exact rfl

theorem keepsSf_execWarmCountDone (n : Nat) (s : State) : KeepsSf s (execWarmCountDone n s) := by
  unfold execWarmCountDone
  split
  · next k _ =>
    split
    · exact rfl
    · cases k
      · exact warmRun_sf s n
      · exact beginLoad_sf s .primary
  · exact rfl

theorem keepsSf_execResetRelease (pin : ResetPin) (s : State) : KeepsSf s (execResetRelease pin s) :=
  .ite ((leaveReset_sf _).trans (setReset_sf s pin true)) (setReset_sf s pin true)

theorem keepsSf_execStabilityCountDone (l : StrapLevels) (c : Bool) (s : State) :
    KeepsSf s (execStabilityCountDone l c s) :=
  .ite (sampleStraps_sf s l c) rfl

theorem keepsSf_execStrapResistorStepEnd (rm : List (Option Nat)) (s : State) :
    KeepsSf s (execStrapResistorStepEnd rm s) :=
  .ite (beginLoad_sf _ .primary) rfl

theorem keepsSf_execImageLoaded (sfdp b : Bytes) (s : State) : KeepsSf s (execImageLoaded sfdp b s) := by
  unfold execImageLoaded
  split
  · exact rfl
  · next d _ =>
    have read : ((s.loadReads d sfdp b).select d false).clock.sf = s.clock.sf :=
      (within_select (within_loadReads (Within.refl s))).sf
    exact .ite read ((copyFailed_sf _ d _).trans read)

theorem keepsSf_execImageChecked (s : State) : KeepsSf s (execImageChecked s) := by
  unfold execImageChecked
  split
  · exact rfl
  · exact .ite (acceptImage_sf s _) (copyFailed_sf s _ _)

theorem keepsSf_execCoefficientsLoaded (p m : CoeffRead) (t : Int) (n : Nat) (s : State) :
    KeepsSf s (execCoefficientsLoaded p m t n s) :=
  .ite ((loadCoefficients_sf _ p m t).trans (within_coefficientCommands (Within.refl s)).sf) rfl

theorem keepsSf_execCalNFalling (s : State) : KeepsSf s (execCalNFalling s) := by
  unfold execCalNFalling
  dsimp only
  split
  · exact .ite (within_commandByPin (within_modCalib (Within.refl _))).sf (within_modCalib (Within.refl _)).sf
  · exact rfl

theorem keepsSf_execCalNRising (s : State) : KeepsSf s (execCalNRising s) :=
  .ite (within_modCalib (Within.refl _)).sf rfl

theorem keepsSf_execKeyProgram (bits : BitVec 288) (w : KeyWait) (s : State) : KeepsSf s (execKeyProgram bits w s) :=
  .ite (edgesSeen_sf _ w) rfl

theorem keepsSf_execBypass (opcode : Byte) (s : State) : KeepsSf s (execBypass opcode s) :=
  .ite rfl rfl

/-- Every command but the slot tick keeps the superframe count or puts the device into the reset state, as a reset input and
the test access port's instructions that act on pins do (R495). -/
theorem exec_keepsSf_or_resets (c : Instr) (s : State)
    (hc : ∀ slack late rx errors, c ≠ .slotTick slack late rx errors) :
    KeepsSf s (exec c s) ∨ ∃ t, exec c s = .next t ∧ t.clock = Clock.reset ∧ t.start.stage = .reset := by
  by_cases h : inStage c = true
  · exact .inl (exec_within c s h).keepsSf
  cases c with
  | slotTick slack late rx errors => exact absurd rfl (hc slack late rx errors)
  | resetAssert => exact .inr ⟨_, rfl, rfl, rfl⟩
  | extest => exact .inr ⟨_, rfl, rfl, rfl⟩
  | extestPulse => exact .inr ⟨_, rfl, rfl, rfl⟩
  | extestTrain => exact .inr ⟨_, rfl, rfl, rfl⟩
  | clamp => exact .inr ⟨_, rfl, rfl, rfl⟩
  | highz => exact .inr ⟨_, rfl, rfl, rfl⟩
  | resetRelease pin => exact .inl (keepsSf_execResetRelease pin s)
  | stabilityCountDone l calN => exact .inl (keepsSf_execStabilityCountDone l calN s)
  | strapResistorStepEnd rm => exact .inl (keepsSf_execStrapResistorStepEnd rm s)
  | imageLoaded sfdp b => exact .inl (keepsSf_execImageLoaded sfdp b s)
  | imageChecked => exact .inl (keepsSf_execImageChecked s)
  | coefficientsLoaded p m t n => exact .inl (keepsSf_execCoefficientsLoaded p m t n s)
  | tselChange level => exact .inl (keepsSf_execTselChange level s)
  | sourceSwitchDone => exact .inl (keepsSf_execSourceSwitchDone s)
  | startupSwitchCountDone k n => exact .inl (keepsSf_execStartupSwitchCountDone k n s)
  | hckInterruption => exact .inl (keepsSf_execHckInterruption s)
  | hckReturn => exact .inl (keepsSf_execHckReturn s)
  | dormantLineStop => exact .inl (keepsSf_execDormantLineStop s)
  | dormantExitBegin => exact .inl (keepsSf_execDormantExitBegin s)
  | warmCountDone n => exact .inl (keepsSf_execWarmCountDone n s)
  | calNFalling => exact .inl (keepsSf_execCalNFalling s)
  | calNRising => exact .inl (keepsSf_execCalNRising s)
  | keyProgram bits w => exact .inl (keepsSf_execKeyProgram bits w s)
  | bypass opcode => exact .inl (keepsSf_execBypass opcode s)
  | tapReset => exact .inl rfl
  | idcode => exact .inl rfl
  | samplePreload => exact .inl rfl
  | startStatus => exact .inl rfl
  | keyRead => exact .inl rfl
  | factoryRef => exact .inl rfl
  | dieId => exact .inl rfl
  | _ => exact absurd rfl h

/-- Settles O7: the two ticks by what they set, every other command by `exec_keepsSf_or_resets`. -/
theorem timeBaseMovesAtTicks : Obligations.TimeBaseMovesAtTicks := by
  refine ⟨fun slack late rx errors s h => ?_, fun slack late rx errors s h hc hi => ?_, fun c s t e => ?_⟩
  · obtain ⟨t, e, k⟩ := slotTick_running slack late rx errors h
    exact ⟨t, e, by simp [k]⟩
  · obtain ⟨t, e, r, k⟩ := slotTick_ready slack late rx errors h hc hi
    exact ⟨t, e, r, by simp [k]⟩
  · by_cases hc : ∃ slack late rx errors, c = .slotTick slack late rx errors
    · exact .inr (.inl hc)
    · have other : ∀ slack late rx errors, c ≠ .slotTick slack late rx errors := fun _ _ _ _ h => hc ⟨_, _, _, _, h⟩
      rcases exec_keepsSf_or_resets c s other with k | ⟨u, k, hu⟩
      · rw [e] at k
        exact .inl k
      · obtain rfl : t = u := by simpa [e] using k
        exact .inr (.inr hu)

end Sys2Proof.Machine
end

section
/-! SUPPORT. The frame of the commands inside a stage: image, time base, clocks, start, input levels and anchors stand. -/

namespace Sys2Proof.Machine

/-- Settles O6: the commands that the statement does not name are those of `inStage`, and each stays inside a stage. -/
theorem stageFrame : Obligations.StageFrame := by
  intro c s t e h
  have inside : WithinR s (exec c s) := exec_within c s h
  rw [e] at inside
  exact inside

end Sys2Proof.Machine
end

section
/-! SUPPORT. The sampled straps (R36): one strap sample takes all eight levels, and every other command keeps them or puts the
device into the reset state. -/

namespace Sys2Proof.Machine

/-! ### Operations that keep the straps -/

@[simp] theorem takeSource_straps (s : State) (level : Bool) : (s.takeSource level).start.straps = s.start.straps := rfl

@[simp] theorem countSwitch_straps (s : State) (r : Option Stage) : (s.countSwitch r).start.straps = s.start.straps := rfl

@[simp] theorem deselect_straps (s : State) : s.deselect.start.straps = s.start.straps :=
  (within_deselect (Within.refl s)).straps

@[simp] theorem beginSwitch_straps (s : State) (level : Bool) : (s.beginSwitch level).start.straps = s.start.straps := by
  unfold State.beginSwitch
  dsimp only [takeSource_straps]
  exact (within_beforeSwitch s).straps

@[simp] theorem tselChanged_straps (s : State) (level : Bool) : (s.tselChanged level).start.straps = s.start.straps := by
  unfold State.tselChanged
  split
  case h_12 => split <;> simp
  all_goals simp

@[simp] theorem endSwitch_straps (s : State) : s.endSwitch.start.straps = s.start.straps :=
  (within_reissueStore (Within.refl _)).straps

@[simp] theorem lineStop_straps (s : State) (e : Entry) : (s.lineStop e).start.straps = s.start.straps := by
  simp [State.lineStop, (within_holdLinks (Within.refl s)).straps]

@[simp] theorem forgetHost_straps (s : State) : s.forgetHost.start.straps = s.start.straps := by
  have w : Within s (eachChan State.forgetChan allChans s.forgetFaults) :=
    within_eachChan (within_forgetFaults (Within.refl s)) fun _ _ k => within_modRetry (within_modWake k)
  exact w.straps

@[simp] theorem exitBegin_straps (s : State) (k : DormantKind) : (s.exitBegin k).start.straps = s.start.straps := by
  cases k <;> simp [State.exitBegin]

@[simp] theorem beginLoad_straps (s : State) (d : FlashDev) : (s.beginLoad d).start.straps = s.start.straps :=
  (within_loadCommands (Within.refl _)).straps

@[simp] theorem warmRun_straps (s : State) (n : Nat) : (s.warmRun n).start.straps = s.start.straps := by
  simp [State.warmRun]

@[simp] theorem copyFailed_straps (s : State) (d : FlashDev) (code : Nat) :
    (s.copyFailed d code).start.straps = s.start.straps := by
  cases d
  · exact beginLoad_straps _ _
  · rfl

@[simp] theorem acceptImage_straps (s : State) (d : FlashDev) : (s.acceptImage d).start.straps = s.start.straps := by
  cases d <;> rfl

@[simp] theorem loadCoefficients_straps (s : State) (p m : CoeffRead) (t : Int) :
    (s.loadCoefficients p m t).start.straps = s.start.straps :=
  (within_applyTrims (within_newTemp (Within.refl _))).straps

@[simp] theorem setReset_straps (s : State) (pin : ResetPin) (level : Bool) :
    (s.setReset pin level).start.straps = s.start.straps := by
  cases pin <;> rfl

@[simp] theorem edgesSeen_straps (s : State) (w : KeyWait) : (s.edgesSeen w).start.straps = s.start.straps := by
  cases w <;> simp [State.edgesSeen]

@[simp] theorem slotWork_straps (s : State) : s.slotWork.start.straps = s.start.straps :=
  (within_slotWork s).straps

@[simp] theorem nextSlot_straps (s : State) : s.nextSlot.start.straps = s.start.straps := by
  unfold State.nextSlot
  split
  · have w : Within s (eachChan State.countSuperframe s.liveChans s) :=
      within_eachChan (Within.refl s) fun _ _ k => within_countSuperframe k
    exact w.straps
  · rfl

@[simp] theorem firstTick_straps (s : State) : s.firstTick.start.straps = s.start.straps := by
  unfold State.firstTick
  split
  · rw [(within_starting _).straps]
  · rfl

/-! ### Commands that keep the straps -/

/-- A meaning answers a next state of the same straps. -/
def KeepsStraps (s : State) : Host.Outcome State Fault Refusal → Prop
  | .next t => t.start.straps = s.start.straps
  | _ => False

theorem KeepsStraps.ite {s a b : State} {c : Prop} [Decidable c] (h : a.start.straps = s.start.straps)
    (k : b.start.straps = s.start.straps) : KeepsStraps s (if c then .next a else .next b) := by
  split <;> assumption

theorem WithinR.keepsStraps {s : State} {r : Host.Outcome State Fault Refusal} (h : WithinR s r) : KeepsStraps s r := by
  cases r with
  | next => exact Within.straps h
  | fault => exact h
  | refused => exact h

theorem keepsStraps_execTselChange (level : Bool) (s : State) : KeepsStraps s (execTselChange level s) :=
  .ite rfl (tselChanged_straps _ level)

theorem keepsStraps_execSourceSwitchDone (s : State) : KeepsStraps s (execSourceSwitchDone s) :=
  .ite (endSwitch_straps s) rfl

theorem keepsStraps_execStartupSwitchCountDone (k : Fin 20) (d : Nat) (s : State) :
    KeepsStraps s (execStartupSwitchCountDone k d s) := by
  unfold execStartupSwitchCountDone
  split
  · dsimp only
    split
    · exact (within_loadCommand (Within.refl _)).straps
    · exact (within_say (Within.refl _)).straps
    · exact rfl
    · exact rfl
  · exact rfl

theorem keepsStraps_execHckInterruption (s : State) : KeepsStraps s (execHckInterruption s) := by
  have stopped :=
    (within_modLink (Within.refl s) (x2 := s.sourcePort) (x3 := fun l => { l with clockStopped := true })).straps
  unfold execHckInterruption
  dsimp only
  split
  · exact stopped
  · exact (within_breakAll (Within.refl _)).straps.trans stopped

theorem keepsStraps_execHckReturn (s : State) : KeepsStraps s (execHckReturn s) := by
  unfold execHckReturn
  dsimp only
  split
  · have back := (within_portClockBack (Within.refl { s with
      clock := { s.clock with interrupted := false, pendingTsel := false } }) (x2 := s.sourcePort)).straps
    exact .ite ((beginSwitch_straps _ _).trans back) back
  · exact rfl

theorem keepsStraps_execDormantLineStop (s : State) : KeepsStraps s (execDormantLineStop s) := by
  unfold execDormantLineStop
  split
  · exact .ite (lineStop_straps s _) rfl
  · exact rfl

theorem keepsStraps_execDormantExitBegin (s : State) : KeepsStraps s (execDormantExitBegin s) := by
  unfold execDormantExitBegin
  split
  · exact .ite (exitBegin_straps s _) rfl
  · exact rfl

theorem keepsStraps_execWarmCountDone (n : Nat) (s : State) : KeepsStraps s (execWarmCountDone n s) := by
  unfold execWarmCountDone
  split
  · next k _ =>
    split
    · exact rfl
    · cases k
      · exact warmRun_straps s n
      · exact beginLoad_straps s .primary
  · exact rfl

theorem keepsStraps_execResetRelease (pin : ResetPin) (s : State) : KeepsStraps s (execResetRelease pin s) :=
  .ite (setReset_straps s pin true) (setReset_straps s pin true)

theorem keepsStraps_execStrapResistorStepEnd (rm : List (Option Nat)) (s : State) :
    KeepsStraps s (execStrapResistorStepEnd rm s) :=
  .ite (beginLoad_straps _ .primary) rfl

theorem keepsStraps_execImageLoaded (sfdp b : Bytes) (s : State) : KeepsStraps s (execImageLoaded sfdp b s) := by
  unfold execImageLoaded
  split
  · exact rfl
  · next d _ =>
    have read : ((s.loadReads d sfdp b).select d false).start.straps = s.start.straps :=
      (within_select (within_loadReads (Within.refl s))).straps
    exact .ite read ((copyFailed_straps _ d _).trans read)

theorem keepsStraps_execImageChecked (s : State) : KeepsStraps s (execImageChecked s) := by
  unfold execImageChecked
  split
  · exact rfl
  · exact .ite (acceptImage_straps s _) (copyFailed_straps s _ _)

theorem keepsStraps_execCoefficientsLoaded (p m : CoeffRead) (t : Int) (n : Nat) (s : State) :
    KeepsStraps s (execCoefficientsLoaded p m t n s) :=
  .ite ((loadCoefficients_straps _ p m t).trans (within_coefficientCommands (Within.refl s)).straps) rfl

theorem keepsStraps_execSlotTick (slack : List (Nat × Int)) (late : List Nat) (rx : List (ChanId × Reception))
    (errors : List SramError) (s : State) : KeepsStraps s (execSlotTick slack late rx errors s) := by
  have first : s.firstTick.slotWork.start.straps = s.start.straps := by simp
  have before : Within s ((s.endSlot rx).endLists slack late) := within_endLists (within_endSlot (Within.refl s))
  have after (u : State) : Within u (sramErrors errors u).injectedScrub :=
    within_injectedScrub (within_sramErrors (Within.refl u))
  unfold execSlotTick
  split
  · exact rfl
  · split
    · exact first
    · refine .ite ?_ rfl
      rw [(after _).straps, slotWork_straps, nextSlot_straps, before.straps]

theorem keepsStraps_execCalNFalling (s : State) : KeepsStraps s (execCalNFalling s) := by
  unfold execCalNFalling
  dsimp only
  split
  · exact .ite (within_commandByPin (within_modCalib (Within.refl _))).straps (within_modCalib (Within.refl _)).straps
  · exact rfl

theorem keepsStraps_execCalNRising (s : State) : KeepsStraps s (execCalNRising s) :=
  .ite (within_modCalib (Within.refl _)).straps rfl

theorem keepsStraps_execKeyProgram (bits : BitVec 288) (w : KeyWait) (s : State) :
    KeepsStraps s (execKeyProgram bits w s) :=
  .ite (edgesSeen_straps _ w) rfl

theorem keepsStraps_execBypass (opcode : Byte) (s : State) : KeepsStraps s (execBypass opcode s) :=
  .ite rfl rfl

/-- Every command but the strap sample keeps the straps or puts the device into the reset state, which forgets them: a reset
input does so, and the test access port's instructions that act on pins (R51, R495). -/
theorem exec_keepsStraps_or_resets (c : Instr) (s : State) (hc : ∀ l calN, c ≠ .stabilityCountDone l calN) :
    KeepsStraps s (exec c s) ∨ ∃ t, exec c s = .next t ∧ t.start.stage = .reset ∧ t.start.straps = 0 := by
  by_cases h : inStage c = true
  · exact .inl (exec_within c s h).keepsStraps
  cases c with
  | stabilityCountDone l calN => exact absurd rfl (hc l calN)
  | resetAssert => exact .inr ⟨_, rfl, rfl, rfl⟩
  | extest => exact .inr ⟨_, rfl, rfl, rfl⟩
  | extestPulse => exact .inr ⟨_, rfl, rfl, rfl⟩
  | extestTrain => exact .inr ⟨_, rfl, rfl, rfl⟩
  | clamp => exact .inr ⟨_, rfl, rfl, rfl⟩
  | highz => exact .inr ⟨_, rfl, rfl, rfl⟩
  | resetRelease pin => exact .inl (keepsStraps_execResetRelease pin s)
  | strapResistorStepEnd rm => exact .inl (keepsStraps_execStrapResistorStepEnd rm s)
  | imageLoaded sfdp b => exact .inl (keepsStraps_execImageLoaded sfdp b s)
  | imageChecked => exact .inl (keepsStraps_execImageChecked s)
  | coefficientsLoaded p m t n => exact .inl (keepsStraps_execCoefficientsLoaded p m t n s)
  | slotTick slack late rx errors => exact .inl (keepsStraps_execSlotTick slack late rx errors s)
  | tselChange level => exact .inl (keepsStraps_execTselChange level s)
  | sourceSwitchDone => exact .inl (keepsStraps_execSourceSwitchDone s)
  | startupSwitchCountDone k n => exact .inl (keepsStraps_execStartupSwitchCountDone k n s)
  | hckInterruption => exact .inl (keepsStraps_execHckInterruption s)
  | hckReturn => exact .inl (keepsStraps_execHckReturn s)
  | dormantLineStop => exact .inl (keepsStraps_execDormantLineStop s)
  | dormantExitBegin => exact .inl (keepsStraps_execDormantExitBegin s)
  | warmCountDone n => exact .inl (keepsStraps_execWarmCountDone n s)
  | calNFalling => exact .inl (keepsStraps_execCalNFalling s)
  | calNRising => exact .inl (keepsStraps_execCalNRising s)
  | keyProgram bits w => exact .inl (keepsStraps_execKeyProgram bits w s)
  | bypass opcode => exact .inl (keepsStraps_execBypass opcode s)
  | tapReset => exact .inl rfl
  | idcode => exact .inl rfl
  | samplePreload => exact .inl rfl
  | startStatus => exact .inl rfl
  | keyRead => exact .inl rfl
  | factoryRef => exact .inl rfl
  | dieId => exact .inl rfl
  | _ => exact absurd rfl h

/-! ### The strap sample -/

/-- In every stage but that of the stability count, STABILITY_COUNT_DONE changes nothing. -/
theorem stabilityCountDone_idle {s : State} (l : StrapLevels) (calN : Bool) (h : s.start.stage ≠ .stability) :
    exec (.stabilityCountDone l calN) s = .next s :=
  if_neg fun k => h (stageRuns_stage k)

/-- Settles O10: the strap sample acts in its stage alone, every other command by `exec_keepsStraps_or_resets`. -/
theorem strapsHold : Obligations.StrapsHold := by
  intro c s t e
  by_cases hc : ∃ l calN, c = .stabilityCountDone l calN
  · obtain ⟨l, calN, rfl⟩ := hc
    by_cases h : s.start.stage = .stability
    · exact .inr (.inl ⟨h, l, calN, rfl⟩)
    · obtain rfl : s = t := by simpa [stabilityCountDone_idle l calN h] using e
      exact .inl rfl
  · have other : ∀ l calN, c ≠ .stabilityCountDone l calN := fun _ _ h => hc ⟨_, _, h⟩
    rcases exec_keepsStraps_or_resets c s other with k | ⟨u, k, hu⟩
    · rw [e] at k
      exact .inl k
    · obtain rfl : t = u := by simpa [e] using k
      exact .inr (.inr hu)

/-- A stage runs that has been reached, with no switch count before it and edges of its clock. -/
theorem stageRuns_of {s : State} {x : Stage} (h : s.start.stage = x) (hc : s.start.recount = none)
    (hi : s.clock.interrupted = false) : s.stageRuns x = true := by
  simp [State.stageRuns, h, hc, hi]

/-- A number made from bits holds bit i at place i. -/
theorem testBit_ofBits (l : List Bool) (i : Nat) : (ofBits l).testBit i = l.getD i false := by
  induction l generalizing i with
  | nil => simp [ofBits]
  | cons b l ih =>
    have parts : ofBits (b :: l) = bit b + 2 * ofBits l := rfl
    have small : bit b ≤ 1 := by cases b <;> decide
    have low : ofBits (b :: l) % 2 = bit b := by omega
    have rest : ofBits (b :: l) / 2 = ofBits l := by omega
    cases i with
    | zero =>
      rw [Nat.testBit_zero, low]
      cases b <;> rfl
    | succ i =>
      rw [Nat.testBit_succ, rest, ih]
      rfl

/-- The strap sample is taken, and with it CAL_N. -/
theorem sampleStraps_taken (s : State) (l : StrapLevels) (calN : Bool) :
    s.sampleStraps l calN = { s with
      start := (s.sampleStraps l calN).start, pins := (s.sampleStraps l calN).pins } ∧
    (s.sampleStraps l calN).start = { s.start with
      stage := (s.sampleStraps l calN).start.stage, sampled := true, straps := strapBits l, calHeld := !calN } := by
  unfold State.sampleStraps
  dsimp only
  split <;> exact ⟨rfl, rfl⟩

/-- Each strap of Table 5.4 is the level sampled at its pin. -/
theorem sampleStraps_strap (s : State) (l : StrapLevels) (calN : Bool) (i : Nat) (h : i < 8) :
    (s.sampleStraps l calN).strap i =
      [l.imgsel0, l.imgsel1, l.hlwA, l.hlwB, l.hrate, l.portenA, l.portenB, l.testmode].getD i false := by
  obtain ⟨-, taken⟩ := sampleStraps_taken s l calN
  rw [State.strap, taken]
  simp only [strapBits, BitVec.getLsbD_ofNat, testBit_ofBits, h, decide_true, Bool.true_and]

/-- A device in test mode, or with no port, refuses to start (Table 5.3). -/
theorem sampleStraps_refused (s : State) (l : StrapLevels) (calN : Bool)
    (h : l.testmode = true ∨ (l.portenA = false ∧ l.portenB = false)) :
    (s.sampleStraps l calN).start.stage = .strapRefusal ∧ (s.sampleStraps l calN).pins = { s.pins with
      calN := calN, errLow := true, wakeLow := false, flWp := false, flSelA := false, flSelB := false } := by
  have refused : (l.testmode || (!l.portenA && !l.portenB)) = true := by simpa using h
  simp [State.sampleStraps, State.refuseStart, refused]

/-- Any other device goes on with the strap and resistor step. -/
theorem sampleStraps_goesOn (s : State) (l : StrapLevels) (calN : Bool) (ht : l.testmode = false)
    (hp : l.portenA = true ∨ l.portenB = true) :
    (s.sampleStraps l calN).start.stage = .strapStep ∧ (s.sampleStraps l calN).pins = { s.pins with calN := calN } := by
  have goesOn : (l.testmode || (!l.portenA && !l.portenB)) = false := by
    rcases hp with hp | hp <;> simp [ht, hp]
  simp [State.sampleStraps, goesOn]

/-- Settles O18: in its stage the command is `State.sampleStraps`. -/
theorem strapsSampledOnce : Obligations.StrapsSampledOnce := by
  intro l calN s h hc hi
  obtain ⟨frame, taken⟩ := sampleStraps_taken s l calN
  have strap := sampleStraps_strap s l calN
  refine ⟨s.sampleStraps l calN, if_pos (stageRuns_of h hc hi), frame, ?_,
    ⟨strap 0 (by decide), strap 1 (by decide), strap 2 (by decide), strap 3 (by decide), strap 4 (by decide),
      strap 5 (by decide), strap 6 (by decide), strap 7 (by decide)⟩,
    sampleStraps_refused s l calN, sampleStraps_goesOn s l calN⟩
  rw [taken]

end Sys2Proof.Machine
end

section
/-! SUPPORT. The resistor codes (R41, Table 2.7) and what they give: the node identity and the default partition (R42). -/

namespace Sys2Proof.Machine

/-! ### The bands -/

/-- A band with its code, its lower and upper edge, and where the next code begins, in Ω. -/
structure BandRow where
  code : Nat
  lo : Nat
  hi : Nat
  next : Nat

/-- The rows from a band of code k on; after the last of them comes 500 kΩ. -/
def bandRows (k : Nat) (cur : Nat × Nat) : List (Nat × Nat) → List BandRow
  | [] => [⟨k, cur.1, cur.2, 500000⟩]
  | b :: t => ⟨k, cur.1, cur.2, b.1⟩ :: bandRows (k + 1) b t

/-- Where bands begin in rising order, every row begins at the first band or above it. -/
theorem bandRows_lo_le {k : Nat} {cur : Nat × Nat} {t : List (Nat × Nat)} (rise : (cur :: t).Pairwise (·.1 ≤ ·.1))
    {e : BandRow} (h : e ∈ bandRows k cur t) : cur.1 ≤ e.lo := by
  induction t generalizing k cur with
  | nil =>
    obtain rfl := List.mem_singleton.mp h
    exact Nat.le_refl _
  | cons b t ih =>
    obtain ⟨first, rest⟩ := List.pairwise_cons.mp rise
    rcases List.mem_cons.mp h with rfl | h
    · exact Nat.le_refl _
    · exact Nat.le_trans (first b List.mem_cons_self) (ih rest h)

/-- A reading between the beginnings of two neighbouring bands takes the code of the lower, out of band above its upper edge. -/
theorem bandCode_of_row {r k : Nat} {cur : Nat × Nat} {t : List (Nat × Nat)} (rise : (cur :: t).Pairwise (·.1 ≤ ·.1))
    {e : BandRow} (h : e ∈ bandRows k cur t) (lo : e.lo ≤ r) (next : r < e.next) :
    bandCode r (k + 1) t (k, decide (cur.2 < r)) = (e.code, decide (e.hi < r)) := by
  induction t generalizing k cur with
  | nil =>
    obtain rfl := List.mem_singleton.mp h
    rfl
  | cons b t ih =>
    obtain ⟨-, rest⟩ := List.pairwise_cons.mp rise
    rcases List.mem_cons.mp h with rfl | h
    · exact if_pos next
    · have begun : ¬ r < b.1 := Nat.not_lt.mpr (Nat.le_trans (bandRows_lo_le rest h) lo)
      rw [bandCode, if_neg begun]
      exact ih rest h

/-- The rows of Table 2.7: code 0 up to 0.200 kΩ, then the bands of codes 1 to 14. -/
def resistorRows : List BandRow :=
  bandRows 0 (0, 200) resistorBands

theorem resistorRows_ordered : ∀ e ∈ resistorRows, e.lo ≤ e.hi ∧ e.hi < e.next ∧ e.next ≤ 500000 := by decide

theorem resistorBands_rise : ((0, 200) :: resistorBands).Pairwise (·.1 ≤ ·.1) := by decide

/-- A reading below 500 kΩ takes the code of its row (R41). -/
theorem resistorCode_of_row {e : BandRow} (h : e ∈ resistorRows) {r : Nat} (lo : e.lo ≤ r) (next : r < e.next) :
    resistorCode (some r) = (e.code, decide (e.hi < r)) := by
  obtain ⟨-, -, last⟩ := resistorRows_ordered e h
  have below : ¬ 500000 ≤ r := Nat.not_le.mpr (Nat.lt_of_lt_of_le next last)
  rw [resistorCode, if_neg below]
  exact bandCode_of_row resistorBands_rise h lo next

theorem beginLoad_start (s : State) (d : FlashDev) :
    (s.beginLoad d).start = { s.start with stage := .imageLoad d, copy := [] } := by
  cases d <;> rfl

/-- In the step's stage seven readings are stored, and the load of the primary's image follows. -/
theorem strapResistorStepEnd_stores {s : State} {rm : List (Option Nat)} (h : s.start.stage = .strapStep)
    (hc : s.start.recount = none) (hi : s.clock.interrupted = false) (seven : rm.length = 7) :
    exec (.strapResistorStepEnd rm) s = .next ((s.readResistors rm).beginLoad .primary) :=
  if_pos (by simp [stageRuns_of h hc hi, seven])

/-- A reading in a row's band, edges included, takes its code. -/
theorem resistorCode_in_band {e : BandRow} (h : e ∈ resistorRows) {r : Nat} (lo : e.lo ≤ r) (hi : r ≤ e.hi) :
    resistorCode (some r) = (e.code, false) := by
  obtain ⟨-, ends, -⟩ := resistorRows_ordered e h
  rw [resistorCode_of_row h lo (Nat.lt_of_le_of_lt hi ends), decide_eq_false (Nat.not_lt.mpr hi)]

/-- A reading above a row's band and below the next row takes its code, out of band. -/
theorem resistorCode_above_band {e : BandRow} (h : e ∈ resistorRows) {r : Nat} (hi : e.hi < r) (next : r < e.next) :
    resistorCode (some r) = (e.code, true) := by
  obtain ⟨begins, -, -⟩ := resistorRows_ordered e h
  rw [resistorCode_of_row h (Nat.le_trans begins (Nat.le_of_lt hi)) next, decide_eq_true hi]

/-- Settles O19: the bands and the gaps of Table 2.7 are those of `resistorRows`. -/
theorem resistorBands_hold : Obligations.ResistorBands := by
  refine ⟨fun k lo hi r mem above below => ?_, fun k hi next r mem above below => ?_, fun r h => if_pos h, rfl,
    fun rm s h hc hi seven => ⟨_, strapResistorStepEnd_stores h hc hi seven, rfl, ?_⟩⟩
  · have band : (k, lo, hi) ∈ resistorRows.map fun e => (e.code, e.lo, e.hi) := mem
    obtain ⟨e, row, ⟨⟩⟩ := List.mem_map.mp band
    exact resistorCode_in_band row above below
  · have gap : (k, hi, next) ∈ resistorRows.map fun e => (e.code, e.hi, e.next) := mem
    obtain ⟨e, row, ⟨⟩⟩ := List.mem_map.mp gap
    exact resistorCode_above_band row above below
  · rw [beginLoad_start, State.readResistors, List.map_map, List.map_map]
    rfl

/-! ### Node identity and default partition -/

/-- The node identity has the four IDSEL codes as its digits (R42). -/
theorem node_digits {s : State} {i0 i1 i2 i3 p0 p1 p2 : Nat} (h : s.start.codes = [i0, i1, i2, i3, p0, p1, p2]) :
    s.node = i0 + 16 * i1 + 256 * i2 + 4096 * i3 := by
  rw [State.node, h]
  rfl

/-- The default partition has the three PTSEL codes as its digits (R42). -/
theorem partition_digits {s : State} {i0 i1 i2 i3 p0 p1 p2 : Nat} (h : s.start.codes = [i0, i1, i2, i3, p0, p1, p2]) :
    s.partition = p0 + 16 * p1 + 256 * p2 := by
  rw [State.partition, h]
  rfl

/-- Four neighbouring bits are a digit to base 16. -/
theorem bits_digit (v lo : Nat) : bits v (lo + 3) lo = v / 2 ^ lo % 16 := by
  rw [bits, Nat.shiftRight_eq_div_pow, show lo + 3 + 1 - lo = 4 by omega, show 2 ^ 4 = 16 from rfl]

/-- Codes that give a node identity and a partition: their digits to base 16. -/
def codesFor (n p : Nat) : List Nat :=
  [n % 16, n / 16 % 16, n / 256 % 16, n / 4096 % 16, p % 16, p / 16 % 16, p / 256 % 16]

theorem codesFor_lt (n p : Nat) : ∀ c ∈ codesFor n p, c < 16 := by
  simp [codesFor, Nat.mod_lt]

/-- Settles O20: the codes are the digits to base 16 of both values. -/
theorem nodeIdentity : Obligations.NodeIdentity := by
  refine ⟨fun s i0 i1 i2 i3 p0 p1 p2 h h0 h1 h2 h3 k0 k1 k2 => ?_,
    fun n p hn hp => ⟨codesFor n p, rfl, codesFor_lt n p, fun s h => ?_⟩, fun s p q h => ?_⟩
  · rw [node_digits h, partition_digits h, bits_digit _ 12, bits_digit _ 8, bits_digit _ 4, bits_digit _ 0,
      bits_digit _ 8, bits_digit _ 4, bits_digit _ 0]
    omega
  · rw [node_digits h, partition_digits h]
    omega
  · rw [State.queuePartition, h]
    rfl

end Sys2Proof.Machine
end

section
/-! SUPPORT. The reset state (R51, R97, R495): what the reset inputs do, and what a device at rest in that state makes of every
other command. -/

namespace Sys2Proof.Machine

/-! ### The reset inputs -/

/-- The reset state, whatever the test access port then holds. -/
theorem resetFrom_enterReset (s : State) (x : Tap) : ResetFrom s { s.enterReset with tap := x } where
  start := rfl
  image := rfl
  clock := rfl
  pins := rfl
  links p := by cases p <;> rfl
  rings p := by cases p <;> rfl
  queues := rfl
  chans := rfl
  transport := rfl
  faults := rfl
  tasks := rfl
  calib := rfl
  telemA := rfl
  telemB := rfl
  sched := rfl
  entry := rfl
  exitHeld := rfl
  pending := rfl
  fresh := rfl
  out := rfl

theorem setReset_tap (s : State) (pin : ResetPin) (level : Bool) : (s.setReset pin level).tap = s.tap := by
  cases pin <;> rfl

/-- An input released while the other is high leaves both high. -/
theorem setReset_later (s : State) (pin : ResetPin) (hp : pin = .resetN → s.pins.pwrok = true)
    (hr : pin = .pwrok → s.pins.resetN = true) :
    s.setReset pin true = { s with pins := { s.pins with resetN := true, pwrok := true } } := by
  cases pin with
  | resetN => simp [State.setReset, ← hp rfl]
  | pwrok => simp [State.setReset, ← hr rfl]

/-- With both inputs high and no hold by boundary scan, the release begins the start. -/
theorem resetRelease_leaves {s : State} {pin : ResetPin} (hs : s.start.stage = .reset) (ht : s.tap.holding = false)
    (hp : pin = .resetN → s.pins.pwrok = true) (hr : pin = .pwrok → s.pins.resetN = true) :
    exec (.resetRelease pin) s =
      .next { s with pins := { s.pins with resetN := true, pwrok := true } : State }.leaveReset := by
  simp [exec, execResetRelease, setReset_later s pin hp hr, hs, ht]

/-- The stability count begins on the source of TSEL's level, interrupted where that port's clock stands. -/
theorem leaveReset_eq (s : State) : s.leaveReset = { s with
    start := { s.start with stage := .stability, tselAtRelease := s.pins.tsel }
    clock := { s.clock with
      source := s.pins.tsel, pendingTsel := false
      interrupted := if s.pins.tsel then s.linkB.clockStopped else s.linkA.clockStopped } } := by
  cases h : s.pins.tsel <;> simp [State.leaveReset, State.takeSource, State.link, h]

/-- Settles O17: the low input by what `enterReset` sets, the later release by `leaveReset`. That RESET_N low ends a hold by boundary
scan also inside PWROK low is the model's choice (log entry 78). -/
theorem resetInputs : Obligations.ResetInputs := by
  refine ⟨fun pin s => ⟨_, rfl, resetFrom_enterReset _ _, ?_⟩, fun pin s hs ht hp hr => ?_⟩
  · exact congrArg (fun x : Tap => { x with holding := false }) (setReset_tap s pin false)
  · rw [resetRelease_leaves hs ht hp hr, leaveReset_eq]

/-! ### A device at rest -/

namespace AtRest

variable {s : State} (h : AtRest s)
include h

theorem start : s.start = Start.reset := congrArg State.start h
theorem queues : s.queues = [] := congrArg State.queues h
theorem chans : s.chans = [] := congrArg State.chans h
theorem transport : s.transport = Transport.reset := congrArg State.transport h
theorem faults : s.faults = Faults.reset := congrArg State.faults h
theorem tasks : s.tasks = [] := congrArg State.tasks h
theorem calib : s.calib = Calib.reset := congrArg State.calib h
theorem entry : s.entry = none := congrArg State.entry h

theorem link (p : Port) : s.link p = { HostLink.reset with clockStopped := (s.link p).clockStopped } := by
  cases p
  · exact congrArg State.linkA h
  · exact congrArg State.linkB h

theorem rings (p : Port) : s.rings p = PortRings.reset := by
  cases p
  · exact congrArg State.ringsA h
  · exact congrArg State.ringsB h

theorem chan (c : ChanId) : s.chan c = Chan.reset := by
  simp [State.chan, h.chans, Tab.get]

theorem queue (p : Port) (q : Fin 512) : s.queue p q = Queue.reset := by
  simp [State.queue, h.queues, Tab.get]

theorem stage : s.start.stage = .reset := by rw [h.start]; rfl

theorem phase (p : Port) : (s.link p).phase = .down := by rw [h.link p]; rfl

theorem reads (p : Port) : (s.link p).reads = [] := by rw [h.link p]; rfl

theorem heldTags (p : Port) : (s.link p).heldTags = [] := by rw [h.link p]; rfl

/-! ### The gates that stand closed -/

theorem runs : s.runs = false := by simp [State.runs, h.stage]

theorem atBoundary : s.atBoundary = false := by simp [State.atBoundary, h.runs]

theorem linkUp (p : Port) : s.linkUp p = false := by simp [State.linkUp, h.phase]

theorem stageRuns {x : Stage} (hx : x ≠ .reset) : s.stageRuns x = false :=
  Bool.eq_false_iff.2 fun k => hx ((stageRuns_stage k).symm.trans h.stage)

theorem watchesCal : s.watchesCal = false := by simp [State.watchesCal, h.stage]

theorem nextItem (p : Port) (q : Fin 512) : s.nextItem p q = none := by
  simp [State.nextItem, h.queue, Queue.reset, Queue.next]

theorem onItem (p : Port) (q : Fin 512) (act : Item → ItemBody → Option State) : s.onItem p q act = s := by
  simp [State.onItem, h.nextItem]

theorem startTransport (p : Port) (q : Fin 512) (k : OpKind) : s.startTransport p q k = s := by
  simp [State.startTransport, h.nextItem]

theorem onFrame (p : Port) (kind : Nat) (seq : BitVec 12) (act : State → State) : s.onFrame p kind seq act = s := by
  simp [State.onFrame, h.linkUp]

theorem onMessage (c : ChanId) (msg : Bytes) (kind : Nat) (act : State → State) : s.onMessage c msg kind act = s := by
  simp [State.onMessage, h.runs]

theorem takePacket (c : ChanId) (pkt : Packet) (kind : Nat) : s.takePacket c pkt kind = none := by
  simp [State.takePacket, h.runs]

theorem onRequest (c : ChanId) (pkt : Packet) (kind : Nat) (act : Head → State → State) :
    s.onRequest c pkt kind act = s := by
  simp [State.onRequest, h.takePacket]

theorem drained (p : Port) (q : Fin 512) (page : Bool) : s.drained p q page = s := by
  simp [State.drained, h.transport, Transport.reset]

end AtRest

/-! ### Commands that change nothing in the reset state -/

/-- The commands that change a device at rest: the reset inputs, the levels of TSEL and CAL_N, the standing of the clocks, and
the test access port. -/
def actsAtRest : Instr → Bool
  | .resetAssert .. | .resetRelease .. | .tselChange .. | .hckInterruption | .hckReturn | .portClockStop .. |
  .portClockReturn .. | .calNFalling | .calNRising | .tapReset .. | .extest .. | .idcode | .samplePreload .. | .clamp |
  .highz | .extestPulse .. | .extestTrain .. | .startStatus | .keyRead | .keyProgram .. | .factoryRef | .dieId
  | .bypass .. => true
  | _ => false

/-- Every other command meets a gate that stands closed, or looks for something that a device at rest does not hold; each group
of cases is headed by what its commands need. -/
theorem AtRest.exec_idle {s : State} (h : AtRest s) (c : Instr) (hc : actsAtRest c = false) : exec c s = .next s := by
  cases c with
  | resetAssert | resetRelease | tselChange | hckInterruption | hckReturn | portClockStop | portClockReturn | calNFalling
  | calNRising | tapReset | extest | idcode | samplePreload | clamp | highz | extestPulse | extestTrain | startStatus
  | keyRead | keyProgram | factoryRef | dieId | bypass => cases hc
  -- another stage of the start, or a dormant state
  | stabilityCountDone | strapResistorStepEnd | coefficientsLoaded =>
    exact if_neg (by simp [h.stageRuns])
  | imageLoaded => simp [exec, execImageLoaded, State.loading, h.stage]
  | imageChecked => simp [exec, execImageChecked, State.checking, h.stage]
  | portStabilityCountDone => simp [exec, execPortStabilityCountDone, State.portCounts, h.stage]
  | slotTick | sourceSwitchDone | exitSignal | dormantExitBegin | warmCountDone =>
    simp [exec, execSlotTick, execSourceSwitchDone, execExitSignal, execDormantExitBegin, execWarmCountDone, h.stage]
  | startupSwitchCountDone => exact if_neg (by simp [h.start, Start.reset])
  | wakeFrameDecoded => exact if_neg (by simp [State.wakes, State.dormantCode, h.stage])
  -- the schedule runs
  | sensorReading | telemetryBoundary | gainTrackingStep | f1Acquired | f2End | quietRefresh | wakeRestoreDone
  | searchRoundStart =>
    exact if_neg (by simp [h.atBoundary])
  | qualityPeriodBoundary | antiAliasCornerChange | preEqualiserUpdate | transformWindowMove | echoRetrainStart
  | echoRetrainEnd | loadingRecompute | capabilityFrame | roleFrame | startFrame | exchangeTimeout | assemblyTimeout
  | train5Limit | f1Limit | f3Limit | quietIdleTimeout | quietStreamsEnded | refreshMissed | quietWorkPending
  | alertDetected | retryBudgetExpiry | headerCheckFailed | dedupEntryExpired =>
    exact if_neg (by simp [h.runs])
  | backgroundTaskStart => exact if_pos (by simp [h.atBoundary])
  | codewordDecoded | syncMinusS | holdFrame | assembledFrame => exact if_pos (by simp [h.runs])
  | missedSyncs => simp [exec, execMissedSyncs, h.atBoundary]
  | eventFrame => simp [exec, execEventFrame, State.sendEvent, State.eventReady, h.runs]
  | streamSlotDue => simp [exec, execStreamSlotDue, State.slotDue, h.runs]
  -- a message or a packet has arrived on a channel
  | bitSwapRequest | bitSwapReply | loadingTable | stateMessage | downNotice | quietRequest | quietReply | sleepNotice
  | restart | resume | discardNotice | pad | streamSignal =>
    exact congrArg _ (h.onMessage ..)
  | writePacket | readRequest | messagePacket | atomicRequest | flushRequest => exact congrArg _ (h.onRequest ..)
  | readResponse | atomicResponse | flushResponse | statusPacket =>
    simp [exec, execReadResponse, execAtomicResponse, execFlushResponse, execStatusPacket, h.takePacket]
  -- a timer or a count of a channel runs
  | echoRetrainHoldoffEnd | bitSwapApply | bitSwapResendTimeout | countdownEnd | trainPhaseEnd | loadingTableApply
  | silenceToleranceExpiry | quietReplyTimeout | alertAnswerTimeout | wakeFramesSent | wakeAnswerLimit | falseWakeTimeout
  | retransmitTimeout =>
    simp [exec, execEchoRetrainHoldoffEnd, execBitSwapApply, execBitSwapResendTimeout, execCountdownEnd, execTrainPhaseEnd,
      execLoadingTableApply, execSilenceToleranceExpiry, execQuietReplyTimeout, execAlertAnswerTimeout, execWakeFramesSent,
      execWakeAnswerLimit, execFalseWakeTimeout, execRetransmitTimeout, h.chan, Chan.reset, Rx.reset, Load.reset,
      Bringup.reset, Train.reset, QuietSt.reset, Wake.reset, Retry.reset, phaseLength]
  -- a host link is up or trains
  | ack | nak | credit | retrain | blockLockLost | ackRepeat | creditRepeat | replayInterval =>
    exact if_neg (by simp [h.linkUp])
  | readCompletion | anchorMessage | workQueueDoorbell | consumedDoorbell => exact congrArg _ (h.onFrame ..)
  | frameNotActedOn => simp [exec, execFrameNotActedOn, h.onFrame]
  | hostTrainAttemptStart => exact if_neg (by simp [State.mayTrain, Stage.scheduled, h.stage])
  | trainingPhaseLimit | attemptIdleEnd | linkParametersFrame | parametersFrameInterval =>
    exact if_neg (by simp [h.phase, LinkPhase.training])
  | trainBlock => simp [exec, execTrainBlock, h.phase, LinkPhase.training]
  | alignRow p row =>
    simp [exec, execAlignRow, State.alignOn, HostLink.seePolarity, h.phase, LinkPhase.training]
  | hostFrameBad p blocks =>
    cases k : readFrame blocks <;> simp [exec, execHostFrameBad, State.takesFrames, h.linkUp, h.phase, k]
  | readCompletionTimeout | tagHoldExpiry =>
    simp [exec, execReadCompletionTimeout, execTagHoldExpiry, State.readOf, h.reads, h.heldTags]
  -- a port has an anchor, or a queue an item
  | itemFetch | recordWrite =>
    simp [exec, execItemFetch, State.fetchItems, execRecordWrite, State.recordWrite, h.rings, PortRings.reset]
  | malformedItem | receiveItem => simp [exec, execMalformedItem, execReceiveItem, h.nextItem]
  | faultClear | faultAcknowledge | calibrate | soundCable | enterDormant | injectCheckInversion | channelUp | channelDown
  | channelQuiet | channelSleep | marginOverride | windowOpen | windowRevoke | pageReady | streamStart | streamBuffer
  | streamStop | reserveRelease =>
    exact congrArg _ (h.onItem ..)
  | writeItem | readItem | sendItem | atomicItem | flushItem | relayItem => exact congrArg _ (h.startTransport ..)
  | revokeDrained | pageReadyDrained => exact congrArg _ (h.drained ..)
  -- the transport, the fault side, calibration or a dormant entry is at work
  | stallLimitExpiry | resendBackoffExpiry | responseLimitExpiry | translationAgedOut =>
    simp [exec, execStallLimitExpiry, execResendBackoffExpiry, execResponseLimitExpiry, execTranslationAgedOut, State.req,
      State.op, h.transport, Transport.reset]
  | injectionLimitExpiry | graceTimerExpiry =>
    simp [exec, execInjectionLimitExpiry, execGraceTimerExpiry, State.reaction, h.faults, Faults.reset]
  | calNArmed | flashStatusPoll | flashBusyLimit | storeReadbackDone =>
    simp [exec, execCalNArmed, execFlashStatusPoll, execFlashBusyLimit, execStoreReadbackDone, h.calib, Calib.reset]
  | calibrationWaitLimit | measurePhaseEnd | soundingEnd | noiseFloorMeasurementEnd =>
    simp [exec, execCalibrationWaitLimit, execMeasurePhaseEnd, execSoundingEnd, execNoiseFloorMeasurementEnd,
      State.calibrating, State.sounding, h.tasks]
  | dormantEntryAfterStore | dormantLineStop =>
    simp [exec, execDormantEntryAfterStore, execDormantLineStop, h.entry]

/-! ### Operations that keep a device at rest -/

/-- What enters the reset state is at rest in it, whatever the test access port then holds. -/
theorem atRest_enterReset (s : State) (x : Tap) : AtRest { s.enterReset with tap := x } := rfl

/-- A state with all at reset but what a device at rest may differ in. -/
def State.rest (s : State) : State :=
  { s.enterReset with
    clock := { Clock.reset with source := s.clock.source, interrupted := s.clock.interrupted } }

theorem atRest_iff (s : State) : AtRest s ↔ s = s.rest := Iff.rfl

namespace AtRest

variable {s : State} (h : AtRest s)
include h

/-- It is enough to look at an operation on the fields that a device at rest may differ in. -/
theorem map (f : State → State) (hf : AtRest (f s.rest)) : AtRest (f s) := by
  rwa [← (atRest_iff s).1 h] at hf

theorem setTap (x : Tap) : AtRest { s with tap := x } := h.map (fun u => { u with tap := x }) rfl

theorem setTsel (v : Bool) : AtRest { s with pins := { s.pins with tsel := v } } :=
  h.map (fun u => { u with pins := { u.pins with tsel := v } }) rfl

theorem setCalN (v : Bool) : AtRest { s with pins := { s.pins with calN := v } } :=
  h.map (fun u => { u with pins := { u.pins with calN := v } }) rfl

theorem setTestInputs (tms trstN : Bool) : AtRest { s with pins := { s.pins with tms := tms, trstN := trstN } } :=
  h.map (fun u => { u with pins := { u.pins with tms := tms, trstN := trstN } }) rfl

theorem setClockStopped (p : Port) (v : Bool) : AtRest (s.modLink p fun l => { l with clockStopped := v }) :=
  h.map (fun u => u.modLink p fun l => { l with clockStopped := v }) (by cases p <;> rfl)

/-- A port's clock comes back to a link that owes nothing and has nothing to send. -/
theorem portClockBack (p : Port) : AtRest (s.portClockBack p) :=
  h.map (fun u => u.portClockBack p) (by cases p <;> rfl)

/-- The selected clock ceases: no slot is in progress and no task runs. -/
theorem interrupt : AtRest ({ s with
    clock := { s.clock with interrupted := true }
    sched := { s.sched with unmeasured := s.sched.unmeasured || Stage.reset == Stage.running } }.breakAll 4) :=
  h.map (fun u => { u with
    clock := { u.clock with interrupted := true }
    sched := { u.sched with unmeasured := u.sched.unmeasured || Stage.reset == Stage.running } : State }.breakAll 4) rfl

theorem resumeClock : AtRest { s with clock := { s.clock with interrupted := false, pendingTsel := false } } :=
  h.map (fun u => { u with clock := { u.clock with interrupted := false, pendingTsel := false } }) rfl

theorem scan (ir : Byte) (width value : Nat) : AtRest (s.scan ir width value) :=
  h.map (fun u => u.scan ir width value) rfl

theorem useFresh : AtRest s.useFresh := h.map State.useFresh rfl

theorem edgesSeen (w : KeyWait) : AtRest (s.edgesSeen w) := by
  cases w with
  | noClock => exact h
  | complete | interrupted => exact h.setClockStopped _ false

theorem tselChanged (level : Bool) : s.tselChanged level = s := by simp [State.tselChanged, h.stage]

end AtRest

/-! ### Commands that act on a device at rest -/

/-- A meaning answers a next state at rest. -/
def RestsR : Host.Outcome State Fault Refusal → Prop
  | .next t => AtRest t
  | _ => False

theorem RestsR.ite {s t : State} {c : Prop} [Decidable c] (h : AtRest s) (k : AtRest t) :
    RestsR (if c then .next s else .next t) := by
  split <;> assumption

namespace AtRest

variable {s : State} (h : AtRest s)
include h

theorem rests_tselChange (level : Bool) : RestsR (exec (.tselChange level) s) := by
  refine RestsR.ite h ?_
  rw [(h.setTsel level).tselChanged]
  exact h.setTsel level

theorem rests_hckInterruption : RestsR (exec .hckInterruption s) := by
  simp only [exec, execHckInterruption, h.stage]
  exact (h.setClockStopped s.sourcePort true).interrupt

theorem rests_hckReturn : RestsR (exec .hckReturn s) := by
  simp only [exec, execHckReturn, h.stage]
  exact RestsR.ite (h.resumeClock.portClockBack _) h

theorem rests_calNFalling : RestsR (exec .calNFalling s) := by
  simp only [exec, execCalNFalling, h.watchesCal, Bool.and_false]
  exact h.setCalN false

theorem rests_calNRising : RestsR (exec .calNRising s) := by
  simp only [exec, execCalNRising, h.watchesCal, Bool.and_false]
  exact h.setCalN true

theorem rests_keyProgram (bits : BitVec 288) (w : KeyWait) : RestsR (exec (.keyProgram bits w) s) :=
  RestsR.ite (((h.scan _ _ _).setTap _).useFresh.edgesSeen w) (h.scan _ _ _)

end AtRest

/-- An instruction that acts on pins puts a device into the reset state from any state (R495). -/
theorem atRest_pinsFromTap (s : State) (d : PinSource) : AtRest (s.pinsFromTap d) := atRest_enterReset s _

theorem atRest_extestScan (s : State) (ir : Byte) (pins cells : BitVec 512) : AtRest (s.extestScan ir pins cells) :=
  (((atRest_pinsFromTap s .boundary).scan ir 512 _).setTap _).setTap _

/-- A device at rest stays at rest at every command but the release of a reset input. -/
theorem AtRest.exec_rests {s : State} (h : AtRest s) (c : Instr) (hc : ∀ pin, c ≠ .resetRelease pin) :
    RestsR (exec c s) := by
  by_cases k : actsAtRest c = false
  · rw [h.exec_idle c k]
    exact h
  cases c with
  | resetRelease pin => exact absurd rfl (hc pin)
  | resetAssert pin => exact atRest_enterReset (s.setReset pin false) _
  | tselChange level => exact h.rests_tselChange level
  | hckInterruption => exact h.rests_hckInterruption
  | hckReturn => exact h.rests_hckReturn
  | portClockStop p => exact RestsR.ite (h.setClockStopped p true) h
  | portClockReturn p => exact RestsR.ite (h.portClockBack p) h
  | calNFalling => exact h.rests_calNFalling
  | calNRising => exact h.rests_calNRising
  | tapReset trst => exact (h.scan _ _ _).setTestInputs true !trst
  | idcode | startStatus | keyRead | factoryRef | dieId => exact h.scan _ _ _
  | samplePreload => exact (h.scan _ _ _).setTap _
  | extest | extestPulse | extestTrain => exact atRest_extestScan ..
  | clamp | highz => exact atRest_pinsFromTap ..
  | keyProgram bits w => exact h.rests_keyProgram bits w
  | bypass => exact RestsR.ite h (h.scan _ _ _)
  | _ => exact absurd rfl k

/-- Settles O5: a command acts at most on what the reset state leaves open, by `AtRest.exec_rests`. -/
theorem resetStateStands : Obligations.ResetStateStands := by
  refine ⟨fun c s t h hc e => ?_, rfl⟩
  have k := h.exec_rests c hc
  rwa [e] at k

end Sys2Proof.Machine
end

section
/-! SUPPORT. A host link off the wire: what goes out on the lanes leaves the rest of the link layer, and what waits is sent whatever
the lanes have carried. -/

namespace Sys2Proof.Machine

/-! ### The link layer off the wire -/

theorem sendRow_offWire (n : Nat) (l : HostLink) (row : List (BitVec 66)) : (l.sendRow n row).offWire = l.offWire := by
  unfold HostLink.sendRow
  dsimp only
  split <;> rfl

theorem sendRows_offWire (n k : Nat) (l : HostLink) : (HostLink.sendRows n k l).offWire = l.offWire := by
  induction k generalizing l with
  | zero => rfl
  | succ k ih =>
    unfold HostLink.sendRows
    split
    · rfl
    · exact (ih _).trans (sendRow_offWire n _ _)

@[simp] theorem lay_offWire (n : Nat) (l : HostLink) : (l.lay n).offWire = l.offWire :=
  sendRows_offWire n _ l

@[simp] theorem putBlocks_offWire (l : HostLink) (b : List (BitVec 66)) : (l.putBlocks b).offWire = l.offWire := rfl

theorem freeTag_offWire (l : HostLink) (n t : Nat) : l.offWire.freeTag n t = l.freeTag n t := by
  induction n generalizing t with
  | zero => rfl
  | succ n ih =>
    unfold HostLink.freeTag
    rw [ih]
    rfl

/-- Whether a transaction can go, and what it makes of the link, is settled off the wire. -/
theorem trySend_offWire (t : Nat) (l : HostLink) (w : Wait) :
    (l.offWire.trySend t w).map HostLink.offWire = (l.trySend t w).map HostLink.offWire := by
  have may (kind data : Nat) (body : Bytes) : l.offWire.maySend kind body data = l.maySend kind body data := rfl
  cases w with
  | read addr len why =>
    simp only [HostLink.trySend, freeTag_offWire, may]
    split
    · rfl
    · split <;> rfl
  | write | event | reply =>
    simp only [HostLink.trySend, may]
    split <;> rfl

theorem pumpList_offWire (t : Nat) (ws : List Wait) (l : HostLink) :
    (HostLink.pumpList t ws l.offWire).offWire = (HostLink.pumpList t ws l).offWire := by
  induction ws generalizing l with
  | nil => rfl
  | cons w ws ih =>
    have same := trySend_offWire t l w
    simp only [HostLink.pumpList]
    cases hl : l.trySend t w with
    | none =>
      have none' : l.offWire.trySend t w = none := by simpa [hl] using same
      rw [none']
      rfl
    | some x =>
      obtain ⟨y, hy, off⟩ : ∃ y, l.offWire.trySend t w = some y ∧ y.offWire = x.offWire := by simpa [hl] using same
      rw [hy]
      calc (HostLink.pumpList t ws y).offWire
        _ = (HostLink.pumpList t ws y.offWire).offWire := (ih y).symm
        _ = (HostLink.pumpList t ws x).offWire := by rw [off, ih x]

/-- Links that agree off the wire send the same of what waits. -/
theorem pump_offWire_congr {l m : HostLink} (h : l.offWire = m.offWire) (t : Nat) :
    (l.pump t).offWire = (m.pump t).offWire := by
  have off (x : HostLink) : (x.offWire.pump t).offWire = (x.pump t).offWire := pumpList_offWire t x.waiting x
  rw [← off l, h, off m]

/-! ### Operations on one link layer -/

theorem LinkBecomes.refl (s : State) (p : Port) : LinkBecomes s s p (s.link p) [] := by
  refine ⟨rfl, ?_⟩
  cases p <;> simp [State.setLink, State.link]

namespace LinkBecomes

variable {s t : State} {p : Port} {l : HostLink} {sent : List Out} (h : LinkBecomes s t p l sent)
include h

theorem clock : t.clock = s.clock := by rw [h.rest, setLink_clock]

/-- What does not lie on the wire is that of `l`. -/
theorem field {α : Type} (f : HostLink → α) (off : ∀ x : HostLink, f x.offWire = f x) : f (t.link p) = f l := by
  rw [← off, h.link, off]

/-- The link changes again, off the wire to `m`. -/
theorem modLink {f : HostLink → HostLink} {m : HostLink} (k : (f (t.link p)).offWire = m.offWire) :
    LinkBecomes s (t.modLink p f) p m sent := by
  refine ⟨by rw [modLink_link, k], ?_⟩
  obtain ⟨x, n, rfl⟩ : ∃ x n, t = { s.setLink p x with out := s.out ++ sent, fresh := n } := ⟨_, _, h.rest⟩
  cases p <;> rfl

theorem say (o : Out) : LinkBecomes s (t.say o) p l (sent ++ [o]) := by
  refine ⟨by rw [say_link', h.link], ?_⟩
  obtain ⟨x, n, rfl⟩ : ∃ x n, t = { s.setLink p x with out := s.out ++ sent, fresh := n } := ⟨_, _, h.rest⟩
  cases p <;> simp [State.say, State.setLink, State.link]

theorem sayLink (subtype : Nat) (value count : BitVec 16) :
    LinkBecomes s (t.sayLink p subtype value count) p l (sent ++ [.link p subtype value count]) :=
  (h.modLink (by simp [h.link])).say _

/-- What waits is sent as far as it can go. -/
theorem pump : LinkBecomes s (t.pump p) p (l.pump s.clock.symbols) sent :=
  h.modLink (by rw [lay_offWire, h.clock, pump_offWire_congr h.link])

/-- Doorbell credits are granted anew, and a CREDIT block says so where the link is up. -/
theorem grantDoorbells {n : BitVec 16} (k : Nat) (hn : n = l.doorbells + BitVec.ofNat 16 k)
    (runs : l.clockStopped = false) : LinkBecomes s (t.grantDoorbells p k) p { l with doorbells := n }
      (sent ++ if l.phase = .up then [.link p 3 0 n] else []) := by
  have granted : LinkBecomes s (t.modLink p fun x => { x with doorbells := n }) p { l with doorbells := n } sent :=
    h.modLink (congrArg (fun x : HostLink => { x with doorbells := n }) h.link)
  have up : t.linkUp p = (l.phase == .up) := by
    rw [State.linkUp, h.field HostLink.phase fun _ => rfl, h.field HostLink.clockStopped fun _ => rfl, runs,
      Bool.not_false, Bool.and_true]
  simp only [State.grantDoorbells, up, h.field HostLink.doorbells fun _ => rfl, ← hn, beq_iff_eq]
  split
  · exact granted.sayLink 3 0 n
  · simpa using granted

end LinkBecomes

end Sys2Proof.Machine
end

section
/-! SUPPORT. The clocks (R80 to R94): what a TSEL change does in each stage, how a source switch ends, and what stands still while
a clock gives no edges (R308). -/

namespace Sys2Proof.Machine

/-! ### TSEL changes by stage (Tables 4.4, 4.5; R87) -/

/-- A new level of the pin is kept, and recognised by the stage. -/
theorem tselChange_becomes {s t : State} {level : Bool} (h : s.pins.tsel ≠ level)
    (k : ({ s with pins := { s.pins with tsel := level } } : State).tselChanged level = t) :
    exec (.tselChange level) s = .next t := by
  rw [← k]
  exact if_neg h

theorem tselChanged_running {s : State} (level : Bool) (h : s.start.stage = .running) (hi : s.clock.interrupted = false) :
    s.tselChanged level = s.beginSwitch level := by
  simp [State.tselChanged, h, hi]

/-- Between the strap step and the first tick the change is counted, and the stage waits for the new source's count. -/
theorem tselChanged_recounts {s : State} (level : Bool) (h : s.start.stage ∈ [Stage.strapStep, .coefficients, .ready,
    .imageLoad .primary, .imageLoad .mirror, .imageCheck .primary, .imageCheck .mirror]) :
    s.tselChanged level = ((s.countSwitch (some s.start.stage)).deselect).takeSource level := by
  simp only [List.mem_cons, List.not_mem_nil, or_false] at h
  rcases h with h | h | h | h | h | h | h <;> simp only [State.tselChanged, h]

/-- In a stage that is itself a count the change is counted, and the count begins again. -/
theorem tselChanged_counting {s : State} (level : Bool)
    (h : s.start.stage ∈ [Stage.stability, .warm .retain, .warm .deep]) :
    s.tselChanged level = (s.countSwitch none).takeSource level := by
  simp only [List.mem_cons, List.not_mem_nil, or_false] at h
  rcases h with h | h | h <;> simp only [State.tselChanged, h]

theorem tselChanged_pinOnly {s : State} (level : Bool)
    (h : s.start.stage ∈ [Stage.dormant .retain, .dormant .deep, .reset, .strapRefusal, .imageRefusal]) :
    s.tselChanged level = s := by
  simp only [List.mem_cons, List.not_mem_nil, or_false] at h
  rcases h with h | h | h | h | h <;> simp only [State.tselChanged, h]

/-! ### A source switch of the running schedule (Table 4.4) -/

/-- The new source is taken with the time base standing still. -/
theorem beginSwitch_clock (s : State) (level : Bool) : (s.beginSwitch level).clock = { s.clock with
    source := level, interrupted := (s.beginSwitch level).clock.interrupted, pendingTsel := false } := by
  unfold State.beginSwitch State.takeSource
  dsimp only
  rw [(within_beforeSwitch s).clock]

theorem beginSwitch_tsel (s : State) (level : Bool) : (s.beginSwitch level).pins.tsel = s.pins.tsel := by
  unfold State.beginSwitch State.takeSource
  dsimp only
  exact (within_beforeSwitch s).tsel

theorem beginSwitch_image (s : State) (level : Bool) : (s.beginSwitch level).image = s.image := by
  unfold State.beginSwitch State.takeSource
  dsimp only
  exact (within_beforeSwitch s).image

theorem select_pins (s : State) (d : FlashDev) (on : Bool) : s.select d on = { s with pins := (s.select d on).pins } := by
  cases d <;> rfl

/-- A store's command moves a chip select and is logged. -/
theorem storeCommand_pins_out (s : State) (x : Store) : s.storeCommand x =
    { s with pins := (s.storeCommand x).pins, out := (s.storeCommand x).out } := by
  unfold State.storeCommand
  dsimp only
  split
  case h_3 | h_4 => rw [select_pins]; rfl
  all_goals rfl

theorem reissueStore_pins_out (s : State) : s.reissueStore =
    { s with pins := s.reissueStore.pins, out := s.reissueStore.out } := by
  unfold State.reissueStore
  split
  · rfl
  · split
    · exact storeCommand_pins_out s _
    · exact storeCommand_pins_out s _
    · rfl

/-- The switch is counted, and the next tick is slot 0 of the superframe after the abandoned one. -/
theorem endSwitch_eq (s : State) : s.endSwitch = { s with
    start := { s.start with stage := .running }
    clock := { s.clock with slot := 255, switches := s.clock.switches + 1 }
    sched := s.endSwitch.sched, pins := s.endSwitch.pins, out := s.endSwitch.out } := by
  unfold State.endSwitch
  rw [reissueStore_pins_out]

/-- Settles O23: TSEL_CHANGE by what the stage makes of it, SOURCE_SWITCH_DONE by `endSwitch_eq`. -/
theorem sourceSwitchRuns : Obligations.SourceSwitchRuns := by
  refine ⟨fun level s hn h hi => ⟨_, tselChange_becomes hn (tselChanged_running level h hi), rfl, rfl, rfl, ?_⟩,
    fun s h hi => ⟨s.endSwitch, if_pos (by simp [h, hi]), ?_⟩,
    fun level s hn h => tselChange_becomes hn (tselChanged_recounts level h),
    fun level s hn h => tselChange_becomes hn (tselChanged_counting level h),
    fun k n s t h hi ht => ?_,
    fun level s hn h => tselChange_becomes hn (tselChanged_pinOnly level h)⟩
  · refine ⟨beginSwitch_tsel _ level, ?_, ?_, ?_, beginSwitch_image _ level⟩ <;> rw [beginSwitch_clock]
  · refine ⟨?_, ?_, ?_⟩ <;> rw [endSwitch_eq]
  · have counted : (s.start.recount.isSome && !s.clock.interrupted) = true := by simp [h, hi]
    simp only [exec, execStartupSwitchCountDone, counted, if_true, ht]
    cases s.start.stage <;> rfl

/-! ### Clocks that stop and return (R90 to R94, R308) -/

/-- A link whose clock returns owes no doorbell credit any more and sends what has waited. -/
theorem portClockBack_linkBecomes (s : State) (p : Port) {n : BitVec 16}
    (hn : n = (s.link p).doorbells + BitVec.ofNat 16 (s.link p).owed) :
    LinkBecomes s (s.portClockBack p) p
      ({ s.link p with clockStopped := false, doorbells := n, owed := 0 }.pump s.clock.symbols)
      (if (s.link p).owed = 0 ∨ (s.link p).phase ≠ .up then [] else [.link p 3 0 n]) := by
  have back : LinkBecomes s (s.modLink p fun l => { l with clockStopped := false, owed := 0 }) p
      { s.link p with clockStopped := false, owed := 0 } [] := (LinkBecomes.refl s p).modLink rfl
  unfold State.portClockBack
  dsimp only
  by_cases owes : (s.link p).owed = 0
  · have same : n = (s.link p).doorbells := by simp [hn, owes]
    simpa [owes, same] using back.pump
  · have granted := (back.grantDoorbells (s.link p).owed hn rfl).pump
    by_cases up : (s.link p).phase = .up <;> simpa [owes, up] using granted

theorem portClockReturn_of_clockFree {s : State} {p : Port} (h : s.clockFree p = true) :
    exec (.portClockReturn p) s = .next (s.portClockBack p) :=
  if_pos h

theorem portClockStop_of_clockFree {s : State} {p : Port} (h : s.clockFree p = true) :
    exec (.portClockStop p) s = .next (s.setLink p { s.link p with clockStopped := true }) :=
  if_pos h

/-- Outside the dormant states the selected clock's interruption stops the time base and voids what is measured. -/
theorem hckInterruption_interrupts {s : State} (h : ∀ k, s.start.stage ≠ .dormant k) :
    exec .hckInterruption s = .next (({ s.setLink s.sourcePort { s.link s.sourcePort with clockStopped := true } with
      clock := { s.clock with interrupted := true }
      sched := { s.sched with unmeasured := s.sched.unmeasured || s.start.stage == Stage.running } } : State).breakAll 4) := by
  cases e : s.start.stage with
  | dormant k => exact absurd e (h k)
  | _ => simp [exec, execHckInterruption, e, State.modLink]

/-- With no TSEL change waiting, the selected clock's return lets the time base go on. -/
theorem hckReturn_goesOn {s : State} (h : (s.link s.sourcePort).clockStopped = true) (hp : s.clock.pendingTsel = false) :
    exec .hckReturn s = .next (({ s with
      clock := { s.clock with interrupted := false, pendingTsel := false } } : State).portClockBack s.sourcePort) := by
  simp [exec, execHckReturn, h, hp]

/-- Settles O24: the interruption by what stops, the returns by `portClockBack_linkBecomes`. -/
theorem clockInterruptions : Obligations.ClockInterruptions := by
  refine ⟨fun s h => ⟨_, hckInterruption_interrupts h, rfl⟩, fun k s h => ?_, fun s h hp => ⟨_, hckReturn_goesOn h hp, ?_⟩,
    fun p s h => ⟨portClockStop_of_clockFree h, _, portClockReturn_of_clockFree h, fun n => portClockBack_linkBecomes s p⟩⟩
  · simp [exec, execHckInterruption, h, State.modLink]
  · intro n hn
    have link : ({ s with clock := { s.clock with interrupted := false, pendingTsel := false } } : State).link s.sourcePort =
        s.link s.sourcePort := by cases s.sourcePort <;> rfl
    simpa only [link] using portClockBack_linkBecomes
      { s with clock := { s.clock with interrupted := false, pendingTsel := false } } s.sourcePort (by rw [link, hn])

end Sys2Proof.Machine
end

section
/-! SUPPORT. The accepted anchors (R104, R314): every command keeps them, puts the device into the reset state, or begins an exit
from dormant-deep. -/

namespace Sys2Proof.Machine

/-- An anchor that a port has accepted stays its anchor. -/
def KeepsAnchors (s t : State) : Prop :=
  ∀ p a, (s.rings p).anchor = some a → (t.rings p).anchor = some a

/-- A meaning answers a next state that keeps the anchors. -/
def KeepsAnchorsR (s : State) : Host.Outcome State Fault Refusal → Prop
  | .next t => KeepsAnchors s t
  | _ => False

theorem KeepsAnchors.of_rings {s t : State} (ha : t.ringsA = s.ringsA) (hb : t.ringsB = s.ringsB) : KeepsAnchors s t := by
  intro p a e
  cases p with
  | a => exact (congrArg PortRings.anchor ha).trans e
  | b => exact (congrArg PortRings.anchor hb).trans e

theorem HoldsR.keepsAnchors {s : State} {r : Host.Outcome State Fault Refusal} (h : HoldsR s r) : KeepsAnchorsR s r := by
  cases r with
  | next => exact Holds.anchors h
  | fault => exact h
  | refused => exact h

theorem keepsAnchors_setReset (s : State) (pin : ResetPin) (level : Bool) : KeepsAnchors s (s.setReset pin level) := by
  cases pin <;> exact .of_rings rfl rfl

theorem keepsAnchors_execResetRelease (pin : ResetPin) (s : State) : KeepsAnchorsR s (execResetRelease pin s) := by
  unfold execResetRelease
  dsimp only
  split
  · exact keepsAnchors_setReset s pin true
  · exact keepsAnchors_setReset s pin true

theorem keepsAnchors_execKeyProgram (bits : BitVec 288) (w : KeyWait) (s : State) :
    KeepsAnchorsR s (execKeyProgram bits w s) := by
  unfold execKeyProgram
  dsimp only
  split
  · cases w with
    | noClock => exact .of_rings rfl rfl
    | complete | interrupted => exact .of_rings (modLink_ringsA ..) (modLink_ringsB ..)
  · exact .of_rings rfl rfl

theorem keepsAnchors_execBypass (opcode : Byte) (s : State) : KeepsAnchorsR s (execBypass opcode s) := by
  unfold execBypass
  split <;> exact .of_rings rfl rfl

/-- An exit from dormant-retain keeps the rings (Table 5.8). -/
theorem keepsAnchors_exitBegin_retain (s : State) : KeepsAnchors s (s.exitBegin .retain) :=
  .of_rings (by simp [State.exitBegin]) (by simp [State.exitBegin])

/-- DORMANT_EXIT_BEGIN forgets the anchors only as an exit from dormant-deep begins (Table 5.8). -/
theorem execDormantExitBegin_keepsAnchors_or_deep (s : State) : KeepsAnchorsR s (execDormantExitBegin s) ∨
    ∃ t, execDormantExitBegin s = .next t ∧ t.start.stage = .warm .deep := by
  have stays : KeepsAnchors s s := .of_rings rfl rfl
  unfold execDormantExitBegin
  split
  · next k _ =>
    cases s.exitHeld && !(s.link (if s.pins.tsel then .b else .a)).clockStopped with
    | false => exact .inl stays
    | true =>
      cases k with
      | retain => exact .inl (keepsAnchors_exitBegin_retain s)
      | deep => exact .inr ⟨_, rfl, rfl⟩
  · exact .inl stays

/-- Every command keeps the accepted anchors but a reset input, the test access port's instructions that act on pins (R495), and the
exit from dormant-deep. -/
theorem exec_keepsAnchors_or_forgets (c : Instr) (s : State) : KeepsAnchorsR s (exec c s) ∨
    ∃ t, exec c s = .next t ∧ (t.start.stage = .reset ∨ t.start.stage = .warm .deep) := by
  by_cases h : inStage c = true
  · exact .inl (exec_within c s h).holds.keepsAnchors
  cases c with
  | resetAssert => exact .inr ⟨_, rfl, .inl rfl⟩
  | extest => exact .inr ⟨_, rfl, .inl rfl⟩
  | extestPulse => exact .inr ⟨_, rfl, .inl rfl⟩
  | extestTrain => exact .inr ⟨_, rfl, .inl rfl⟩
  | clamp => exact .inr ⟨_, rfl, .inl rfl⟩
  | highz => exact .inr ⟨_, rfl, .inl rfl⟩
  | dormantExitBegin => exact (execDormantExitBegin_keepsAnchors_or_deep s).imp_right fun ⟨t, e, deep⟩ => ⟨t, e, .inr deep⟩
  | resetRelease pin => exact .inl (keepsAnchors_execResetRelease pin s)
  | stabilityCountDone l calN => exact .inl (holds_execStabilityCountDone l calN s).keepsAnchors
  | strapResistorStepEnd rm => exact .inl (holds_execStrapResistorStepEnd rm s).keepsAnchors
  | imageLoaded sfdp b => exact .inl (holds_execImageLoaded sfdp b s).keepsAnchors
  | imageChecked => exact .inl (holds_execImageChecked s).keepsAnchors
  | coefficientsLoaded p m t n => exact .inl (holds_execCoefficientsLoaded p m t n s).keepsAnchors
  | slotTick slack late rx errors => exact .inl (holds_execSlotTick slack late rx errors s).keepsAnchors
  | tselChange level => exact .inl (holds_execTselChange level s).keepsAnchors
  | sourceSwitchDone => exact .inl (holds_execSourceSwitchDone s).keepsAnchors
  | startupSwitchCountDone k n => exact .inl (holds_execStartupSwitchCountDone k n s).keepsAnchors
  | hckInterruption => exact .inl (holds_execHckInterruption s).keepsAnchors
  | hckReturn => exact .inl (holds_execHckReturn s).keepsAnchors
  | dormantLineStop => exact .inl (holds_execDormantLineStop s).keepsAnchors
  | warmCountDone n => exact .inl (holds_execWarmCountDone n s).keepsAnchors
  | calNFalling => exact .inl (holds_execCalNFalling s).keepsAnchors
  | calNRising => exact .inl (holds_execCalNRising s).keepsAnchors
  | keyProgram bits w => exact .inl (keepsAnchors_execKeyProgram bits w s)
  | bypass opcode => exact .inl (keepsAnchors_execBypass opcode s)
  | tapReset => exact .inl (.of_rings rfl rfl)
  | idcode => exact .inl (.of_rings rfl rfl)
  | samplePreload => exact .inl (.of_rings rfl rfl)
  | startStatus => exact .inl (.of_rings rfl rfl)
  | keyRead => exact .inl (.of_rings rfl rfl)
  | factoryRef => exact .inl (.of_rings rfl rfl)
  | dieId => exact .inl (.of_rings rfl rfl)
  | _ => exact absurd rfl h

/-- Settles O8: each command by `exec_keepsAnchors_or_forgets`. -/
theorem anchorsAreKept : Obligations.AnchorsAreKept := by
  intro c s t p a e held
  rcases exec_keepsAnchors_or_forgets c s with k | ⟨u, k, forgets⟩
  · rw [e] at k
    exact .inl (k p a held)
  · obtain rfl : t = u := by simpa [e] using k
    exact .inr forgets

end Sys2Proof.Machine
end

section
/-! SUPPORT. The last steps of the start (Table 5.1): an image copy that is accepted or fails (R99, R100), the coefficient read (R102),
and a port's stability count (R77). -/

namespace Sys2Proof.Machine

/-! ### Operations that log flash commands -/

/-- Nothing has changed but the log. -/
def OnlyLogged (s t : State) : Prop :=
  t = { s with out := t.out }

namespace OnlyLogged

theorem refl (s : State) : OnlyLogged s s := rfl

theorem say {s t : State} (h : OnlyLogged s t) (o : Out) : OnlyLogged s (t.say o) := by
  rw [h]
  rfl

theorem ite {s t u : State} {c : Prop} [Decidable c] (h : OnlyLogged s t) (k : OnlyLogged s u) :
    OnlyLogged s (if c then t else u) := by
  split <;> assumption

theorem readSets {s t : State} (h : OnlyLogged s t) (d : FlashDev) (l : List Nat) :
    OnlyLogged s (readSets d l t) := by
  induction l generalizing t with
  | nil => exact h
  | cons p l ih => exact ih ((h.say _).say _)

end OnlyLogged

/-! ### The image copies -/

theorem loading_of {s : State} {d : FlashDev} (h : s.start.stage = .imageLoad d) (hc : s.start.recount = none)
    (hi : s.clock.interrupted = false) : s.loading = some d := by
  simp [State.loading, h, stageRuns_of h hc hi]

theorem checking_of {s : State} {d : FlashDev} (h : s.start.stage = .imageCheck d) (hc : s.start.recount = none)
    (hi : s.clock.interrupted = false) : s.checking = some d := by
  simp [State.checking, h, stageRuns_of h hc hi]

theorem onlyLogged_loadReads (s : State) (d : FlashDev) (sfdp bytes : Bytes) :
    OnlyLogged s (s.loadReads d sfdp bytes) := by
  unfold State.loadReads
  dsimp only
  split
  · split
    · exact (OnlyLogged.refl s).say _
    · exact ((OnlyLogged.refl s).say _).say _
  · exact .refl s

/-- A failed copy keeps its result; whatever the chip selects and the log were, the mirror is loaded after the primary, and after the
mirror the device refuses to start (R99, R100). -/
theorem copyFails_copyFailed (s : State) (a b : Bool) (o : List Out) (d : FlashDev) (code : Nat) :
    CopyFails s (({ s with pins := { s.pins with flSelA := a, flSelB := b }, out := o } : State).copyFailed d code) d code := by
  cases d with
  | primary => exact ⟨rfl, fun _ => ⟨rfl, rfl⟩, nofun⟩
  | mirror => exact ⟨rfl, nofun, fun _ => ⟨rfl, rfl⟩⟩

/-- The state after the flash reads of a load, its chip select high again. -/
def State.afterReads (s : State) (d : FlashDev) (sfdp bytes : Bytes) : State :=
  (s.loadReads d sfdp bytes).select d false

theorem afterReads_eq (s : State) (d : FlashDev) (sfdp bytes : Bytes) : s.afterReads d sfdp bytes =
    { s with out := (s.afterReads d sfdp bytes).out, pins := (match d with
      | .primary => { s.pins with flSelA := false }
      | .mirror => { s.pins with flSelB := false }) } := by
  unfold State.afterReads
  rw [onlyLogged_loadReads s d sfdp bytes]
  cases d <;> rfl

theorem copyFails_afterReads (s : State) (d : FlashDev) (sfdp bytes : Bytes) (code : Nat) :
    CopyFails s ((s.afterReads d sfdp bytes).copyFailed d code) d code := by
  rw [afterReads_eq]
  cases d with
  | primary => exact copyFails_copyFailed s false s.pins.flSelB _ .primary code
  | mirror => exact copyFails_copyFailed s s.pins.flSelA false _ .mirror code

/-- IMAGE_LOADED by the result of the load. -/
theorem imageLoaded_loads {s : State} {d : FlashDev} (h : s.loading = some d) (sfdp bytes : Bytes) :
    exec (.imageLoaded sfdp bytes) s = .next (
      if loadResult sfdp bytes = 0 then
        { s.afterReads d sfdp bytes with start := { (s.afterReads d sfdp bytes).start with
          stage := .imageCheck d, copy := fit (imageLength bytes) bytes } }
      else (s.afterReads d sfdp bytes).copyFailed d (loadResult sfdp bytes)) := by
  simp only [exec, execImageLoaded, h, State.afterReads]
  split <;> rfl

/-- Settles O21: a failed copy by `copyFails_copyFailed`, whatever the reads have left of the chip selects and the log. -/
theorem imageLoading : Obligations.ImageLoading := by
  refine ⟨fun sfdp bytes d s h hc hi => ⟨_, imageLoaded_loads (loading_of h hc hi) sfdp bytes, fun good => ?_, fun bad => ?_⟩,
    fun d s h hc hi => ⟨fun good => ?_, fun bad => ?_⟩⟩
  · rw [if_pos good, afterReads_eq]
    cases d <;> exact ⟨rfl, rfl⟩
  · rw [if_neg bad]
    exact copyFails_afterReads s d sfdp bytes _
  · simp only [exec, execImageChecked, checking_of h hc hi, good, if_true]
    cases d <;> rfl
  · refine ⟨s.copyFailed d (checkCode s.tap.key s.start.straps s.start.copy), ?_,
      copyFails_copyFailed s s.pins.flSelA s.pins.flSelB s.out d _⟩
    simp only [exec, execImageChecked, checking_of h hc hi, bad, if_false]

/-! ### The coefficients -/

theorem onlyLogged_coefficientCommands (s : State) (prim mir : CoeffRead) :
    OnlyLogged s (s.coefficientCommands prim mir) := by
  have first : OnlyLogged s (if s.usable .primary prim then readSets .primary allPoints s else s) :=
    .ite ((OnlyLogged.refl s).readSets ..) (.refl s)
  have found : OnlyLogged s (if s.start.mirror = 0 then
      (if s.usable .primary prim then readSets .primary allPoints s else s).say (.flash .mirror 0x5A 0 [])
      else if s.usable .primary prim then readSets .primary allPoints s else s) := .ite (first.say _) first
  exact .ite first (.ite (found.readSets ..) found)

theorem applyTrims_calib (s : State) : s.applyTrims = { s with calib := s.applyTrims.calib } := by
  unfold State.applyTrims
  split <;> rfl

/-- The sets are adopted by the calibration side; of the start only the masks of Table 5.4 are set. -/
theorem loadCoefficients_eq (s : State) (prim mir : CoeffRead) (heat : Int) : s.loadCoefficients prim mir heat =
    { s with
      start := (s.loadCoefficients prim mir heat).start, calib := (s.loadCoefficients prim mir heat).calib } := by
  unfold State.loadCoefficients
  dsimp only
  rw [applyTrims_calib]
  rfl

/-- Settles O22: the coefficient read by what its commands and the adopted sets leave, the port's count by its gate. -/
theorem coefficientsAndPortCounts : Obligations.CoefficientsAndPortCounts := by
  refine ⟨fun prim mir heat duration s h hc hi => ⟨_, if_pos (stageRuns_of h hc hi), rfl, rfl, ?_⟩,
    fun p s hr hd hs he => if_pos ?_⟩
  · rw [loadCoefficients_eq, onlyLogged_coefficientCommands s prim mir]
  · have allowed : (!s.start.sampled || s.enabled p) = true := by
      cases e : s.start.sampled with
      | false => rfl
      | true => exact he e
    cases e : s.start.stage with
    | reset => exact absurd e hr
    | dormant k => exact absurd e (hd k)
    | _ => simp [State.portCounts, hs, allowed, e]

end Sys2Proof.Machine
end

section
/-! SUPPORT. Frames in their turn (R289 to R295): a frame that is accepted and acknowledged, then acted on with its credit returned, or
held; and what a doorbell does to queues, rings and INT (R98, R317, R318, R336). -/

namespace Sys2Proof.Machine

/-! ### What stands while one link layer changes -/

namespace LinkBecomes

variable {s t : State} {p : Port} {l : HostLink} {sent : List Out} (h : LinkBecomes s t p l sent)
include h

theorem runs : t.runs = s.runs := by
  rw [h.rest]
  cases p <;> rfl

theorem entry : t.entry = s.entry := by rw [h.rest, setLink_entry]

theorem pins : t.pins = s.pins := by rw [h.rest, setLink_pins]

theorem chans : t.chans = s.chans := by rw [h.rest, setLink_chans]

theorem queue (p' : Port) (q : Fin 512) : t.queue p' q = s.queue p' q := by
  rw [h.rest]
  cases p <;> rfl

theorem rings (p' : Port) : t.rings p' = s.rings p' := by
  rw [h.rest]
  cases p <;> cases p' <;> rfl

/-- An operation away from the link, the log and the counter does the same before the link changes as after it. -/
theorem map (f : State → State) (out : (f s).out = s.out)
    (away : ∀ (x : HostLink) (o : List Out) (n : Nat),
      f { s.setLink p x with out := o, fresh := n } = { (f s).setLink p x with out := o, fresh := n }) :
    LinkBecomes (f s) (f t) p l sent := by
  have moved : f t = { (f s).setLink p (t.link p) with out := s.out ++ sent, fresh := t.fresh } := by
    conv => lhs; rw [h.rest]
    exact away _ _ _
  have link : (f t).link p = t.link p := by
    rw [moved]
    exact setLink_link (f s) p (t.link p)
  have fresh : (f t).fresh = t.fresh := by rw [moved]
  exact ⟨by rw [link, h.link], by rw [link, out, fresh, moved]⟩

/-- The credit of a frame taken from the receive buffer goes back (R295). -/
theorem returnCredit (up : l.phase = .up) (edges : l.clockStopped = false) : LinkBecomes s (t.returnCredit p) p
    { l with doorbells := l.doorbells + 1 } (sent ++ [.link p 3 0 (l.doorbells + 1)]) := by
  have stopped : (t.link p).clockStopped = false := (h.field HostLink.clockStopped fun _ => rfl).trans edges
  simpa [State.returnCredit, stopped, up] using h.grantDoorbells 1 rfl edges

end LinkBecomes

/-! ### A frame in its turn -/

/-- The link layer after a frame in its turn. -/
def HostLink.accept (l : HostLink) : HostLink :=
  { l with expected := l.expected + 1, nakSent := false }

/-- The state after a frame in its turn, which is acknowledged at once. -/
def State.accepted (s : State) (p : Port) : State :=
  (s.modLink p HostLink.accept).sayAck p

theorem acceptFrame_expected (s : State) (p : Port) :
    s.acceptFrame p (s.link p).expected = (.accepted, s.accepted p) := by
  have turn : (s.link p).arrival (s.link p).expected = .accepted := by simp [HostLink.arrival]
  rw [State.acceptFrame, turn]
  rfl

theorem linkBecomes_accepted (s : State) (p : Port) : LinkBecomes s (s.accepted p) p (s.link p).accept
    [.link p 1 ((s.link p).expected.zeroExtend 16) 0] := by
  have taken : LinkBecomes s (s.modLink p HostLink.accept) p (s.link p).accept [] := (LinkBecomes.refl s p).modLink rfl
  have before : ((s.modLink p HostLink.accept).link p).expected - 1 = (s.link p).expected := by
    rw [modLink_link]
    exact BitVec.add_sub_cancel ..
  rw [State.accepted, State.sayAck, before]
  exact taken.sayLink 1 _ 0

theorem linkUp_iff (s : State) (p : Port) :
    s.linkUp p = true ↔ (s.link p).phase = .up ∧ (s.link p).clockStopped = false := by
  simp [State.linkUp]

section
variable {s : State} {p : Port} (up : s.linkUp p = true) (armed : s.armedFor 2 p.num = none)
include up armed

theorem onFrame_accepted (kind : Nat) (act : State → State) :
    s.onFrame p kind (s.link p).expected act = act (s.accepted p) := by
  simp [State.onFrame, up, armed, acceptFrame_expected]

/-- With the schedule running and no frame held, the frame is acted on and its credit returned. -/
theorem onFrame_taken (runs : s.runs = true) (held : (s.link p).held = []) (kind : Nat) (h : Held) (act : State → State)
    {b : State} {l : HostLink} {sent : List Out} (k : LinkBecomes b (act (s.accepted p)) p l sent)
    (phase : l.phase = (s.link p).phase) (clock : l.clockStopped = (s.link p).clockStopped) :
    LinkBecomes b (s.onFrame p kind (s.link p).expected fun t => t.takeFrame p h act) p
      { l with doorbells := l.doorbells + 1 } (sent ++ [.link p 3 0 (l.doorbells + 1)]) := by
  have a := linkBecomes_accepted s p
  have free : ((s.accepted p).runs && ((s.accepted p).link p).held.isEmpty) = true := by
    rw [a.runs, a.field HostLink.held fun _ => rfl]
    simp [HostLink.accept, runs, held]
  obtain ⟨isUp, edges⟩ := (linkUp_iff s p).1 up
  rw [onFrame_accepted up armed, State.takeFrame, if_pos free]
  exact k.returnCredit (phase.trans isUp) (clock.trans edges)

/-- A doorbell frame that leaves the link layer alone but for its credit. -/
theorem onFrame_doorbell (runs : s.runs = true) (held : (s.link p).held = []) (h : Held) (act : State → State) {b : State}
    (k : LinkBecomes b (act (s.accepted p)) p (s.link p).accept [.link p 1 ((s.link p).expected.zeroExtend 16) 0]) :
    LinkBecomes b (s.onFrame p 4 (s.link p).expected fun t => t.takeFrame p h act) p
      { s.link p with
        expected := (s.link p).expected + 1, nakSent := false, doorbells := (s.link p).doorbells + 1 }
      [.link p 1 ((s.link p).expected.zeroExtend 16) 0, .link p 3 0 ((s.link p).doorbells + 1)] :=
  onFrame_taken up armed runs held 4 h act k rfl rfl

end

/-- Where the line domain stands, or behind a held frame, an accepted frame is held too (R303). -/
theorem linkBecomes_held {s : State} {p : Port} (stands : s.runs = false ∨ (s.link p).held ≠ []) (h : Held) :
    ((s.accepted p).runs && ((s.accepted p).link p).held.isEmpty) = false ∧
    LinkBecomes s ((s.accepted p).modLink p fun l => { l with held := l.held ++ [h] }) p
      { (s.link p).accept with held := (s.link p).held ++ [h] } [.link p 1 ((s.link p).expected.zeroExtend 16) 0] := by
  have a := linkBecomes_accepted s p
  constructor
  · rw [a.runs, a.field HostLink.held fun _ => rfl]
    rcases stands with h | h <;> simp [HostLink.accept, h]
  · exact a.modLink (congrArg (fun x : HostLink => { x with held := x.held ++ [h] }) a.link)

/-! ### What a doorbell does -/

/-- The level that a port's INT pin is driven to. -/
def State.intLow (s : State) : Port → Bool
  | .a => s.pins.intALow
  | .b => s.pins.intBLow

theorem LinkBecomes.intLow {s t : State} {p : Port} {l : HostLink} {sent : List Out} (h : LinkBecomes s t p l sent)
    (p' : Port) : t.intLow p' = s.intLow p' := by
  cases p' <;> simp only [State.intLow, h.pins]

/-- Before a port has an anchor, a doorbell whose target names a work queue is discarded (R98). -/
theorem actWorkDoorbell_unanchored {s : State} {p : Port} (h : (s.rings p).anchor = none) {target : BitVec 16}
    (queue : target.toNat < 512) (index : BitVec 32) : s.actWorkDoorbell p target index = s := by
  simp [State.actWorkDoorbell, queue, h]

/-- So is one whose target names a completion ring or a record ring. -/
theorem actConsumedDoorbell_unanchored {s : State} {p : Port} (h : (s.rings p).anchor = none) {target : BitVec 16}
    (ring : target.toNat < 64 ∨ (0x100 ≤ target.toNat ∧ target.toNat < 0x108)) (index : BitVec 32) :
    s.actConsumedDoorbell p target index = s := by
  simp [State.actConsumedDoorbell, ring, h]

section
variable {s : State} {p : Port} {a : Anchor} {index : BitVec 32} (anchor : (s.rings p).anchor = some a)
  (entry : s.entry = none)
include anchor entry

theorem actWorkDoorbell_moves {q : Fin 512} (enabled : descEnabled (a.desc q) = true)
    (fits : (index - (s.queue p q).consumed).toNat ≤ descItems (a.desc q))
    (ahead : (index - (s.queue p q).producer).toNat ≤ (index - (s.queue p q).consumed).toNat) :
    s.actWorkDoorbell p (BitVec.ofNat 16 q.val) index = s.setQueue p q { s.queue p q with producer := index } := by
  have target : (BitVec.ofNat 16 q.val).toNat = q.val := by
    rw [BitVec.toNat_ofNat]
    omega
  have test : workIndexOk index (s.queue p q).consumed (s.queue p q).producer (descItems (a.desc q)) = true := by
    simp only [workIndexOk, fits, ahead, decide_true, Bool.and_self]
  simp [State.actWorkDoorbell, target, anchor, entry, enabled, test]

theorem actConsumedDoorbell_completion {k : Fin 64} (named : k.val < a.completionRings)
    (test : (((s.rings p).completionRing k.val).producer - index).toNat ≤
      (((s.rings p).completionRing k.val).producer - ((s.rings p).completionRing k.val).consumed).toNat) :
    s.actConsumedDoorbell p (BitVec.ofNat 16 k.val) index = s.setRings p ((s.rings p).setCompletion k.val
      { (s.rings p).completionRing k.val with consumed := index }) := by
  have target : (BitVec.ofNat 16 k.val).toNat = k.val := by
    rw [BitVec.toNat_ofNat]
    omega
  have passes : consumedIndexOk index ((s.rings p).completionRing k.val).producer
      ((s.rings p).completionRing k.val).consumed = true := decide_eq_true test
  simp [State.actConsumedDoorbell, State.modRings, target, anchor, entry, named, passes]

/-- Consuming all of record ring 0 releases INT (R336). -/
theorem actConsumedDoorbell_record {k : Fin 8} (named : k.val < a.recordRings)
    (test : (((s.rings p).recordRing k.val).producer - index).toNat ≤
      (((s.rings p).recordRing k.val).producer - ((s.rings p).recordRing k.val).consumed).toNat) :
    s.actConsumedDoorbell p (BitVec.ofNat 16 (0x100 + k.val)) index =
      (s.setRings p ((s.rings p).setRecord k.val { (s.rings p).recordRing k.val with consumed := index })).setInt p
        (if k = 0 ∧ index = ((s.rings p).recordRing 0).producer then false
         else s.intLow p) := by
  have target : (BitVec.ofNat 16 (0x100 + k.val)).toNat = 0x100 + k.val := by
    rw [BitVec.toNat_ofNat]
    omega
  have passes : consumedIndexOk index ((s.rings p).recordRing k.val).producer
      ((s.rings p).recordRing k.val).consumed = true := decide_eq_true test
  have low : ¬ 0x100 + k.val < 64 := by omega
  have high : 0x100 + k.val < 0x108 := by omega
  simp only [State.actConsumedDoorbell, State.modRings, target, anchor, entry, Option.isSome_none, low, high, named, passes,
    Nat.le_add_right, Nat.add_sub_cancel_left, Bool.false_eq_true, decide_true, Bool.and_true, if_true, if_false]
  by_cases release : k = 0 ∧ index = ((s.rings p).recordRing 0).producer
  · obtain ⟨rfl, rfl⟩ := release
    simp
  · rw [if_neg release, if_neg]
    · cases p <;> rfl
    · simp only [Bool.and_eq_true, beq_iff_eq]
      rintro ⟨zero, all⟩
      obtain rfl : k = 0 := Fin.ext (by simpa using zero)
      exact release ⟨rfl, all⟩

end

/-- The meanings of the five kinds of frame hold it alike. -/
theorem execFrame_held {p : Port} {c : Instr} {h : Held} {s : State}
    (kinds : (∃ target index, c = .workQueueDoorbell p (s.link p).expected target index ∧ h = .workDoorbell target index) ∨
      (∃ target index, c = .consumedDoorbell p (s.link p).expected target index ∧ h = .consumedDoorbell target index) ∨
      (∃ body, c = .anchorMessage p (s.link p).expected body ∧ h = .anchor body) ∨
      (∃ kind body, c = .frameNotActedOn p (s.link p).expected kind body ∧ notActable kind.toNat body = true ∧
        h = .ignored kind.toNat) ∨
      (∃ tag status data, c = .readCompletion p (s.link p).expected tag status data ∧
        h = .completion tag status data))
    (up : s.linkUp p = true) (armed : s.armedFor 2 p.num = none)
    (busy : ((s.accepted p).runs && ((s.accepted p).link p).held.isEmpty) = false) :
    exec c s = .next ((s.accepted p).modLink p fun l => { l with held := l.held ++ [h] }) := by
  have accepted := onFrame_accepted up armed
  have busy' := ne_true_of_eq_false busy
  rcases kinds with ⟨_, _, rfl, rfl⟩ | ⟨_, _, rfl, rfl⟩ | ⟨_, rfl, rfl⟩ | ⟨_, _, rfl, ignored, rfl⟩ | ⟨_, _, _, rfl, rfl⟩
  · simp only [exec, execWorkQueueDoorbell, accepted, State.takeFrame, if_neg busy']
  · simp only [exec, execConsumedDoorbell, accepted, State.takeFrame, if_neg busy']
  · simp only [exec, execAnchorMessage, accepted, State.takeFrame, if_neg busy']
  · simp only [exec, execFrameNotActedOn, accepted, ignored, if_true, if_neg busy']
  · simp only [exec, execReadCompletion, accepted, if_neg busy']

/-- Settles O34: what is acted on by `onFrame_doorbell` and the doorbell's own effect, what is held by `linkBecomes_held`. -/
theorem doorbellsAct : Obligations.DoorbellsAct := by
  refine ⟨fun p c s kinds up armed runs held fresh => ?_,
    fun p q index a s up armed runs held anchor entry enabled fits ahead => ⟨_, rfl, ?_⟩,
    fun p k index a s up armed runs held anchor entry named test => ⟨_, rfl, ?_⟩,
    fun p k index a s up armed runs held anchor entry named test => ⟨_, rfl, ?_⟩,
    fun p c h s kinds up armed stands => ?_⟩
  all_goals have acc := linkBecomes_accepted s p
  · have unanchored : ((s.accepted p).rings p).anchor = none := by rw [acc.rings, fresh]
    rcases kinds with ⟨target, index, rfl, queue⟩ | ⟨target, index, rfl, ring⟩
    · refine ⟨_, rfl, onFrame_doorbell up armed runs held _ _ ?_⟩
      rwa [actWorkDoorbell_unanchored unanchored queue]
    · refine ⟨_, rfl, onFrame_doorbell up armed runs held _ _ ?_⟩
      rwa [actConsumedDoorbell_unanchored unanchored ring]
  · refine onFrame_doorbell up armed runs held _ _ ?_
    rw [actWorkDoorbell_moves (a := a) (by rw [acc.rings, anchor]) (acc.entry.trans entry) enabled
      (by rwa [acc.queue]) (by rwa [acc.queue]), acc.queue]
    exact acc.map (fun u => u.setQueue p q _) rfl fun _ _ _ => by cases p <;> rfl
  · refine onFrame_doorbell up armed runs held _ _ ?_
    rw [actConsumedDoorbell_completion (a := a) (by rw [acc.rings, anchor]) (acc.entry.trans entry) named
      (by rwa [acc.rings]), acc.rings]
    exact acc.map (fun u => u.setRings p _) (setRings_out ..) fun _ _ _ => by cases p <;> rfl
  · refine onFrame_doorbell up armed runs held _ _ ?_
    rw [actConsumedDoorbell_record (a := a) (by rw [acc.rings, anchor]) (acc.entry.trans entry) named
      (by rwa [acc.rings]), acc.rings, acc.intLow]
    exact acc.map (fun u => (u.setRings p _).setInt p _) (by cases p <;> rfl) fun _ _ _ => by cases p <;> rfl
  · obtain ⟨busy, becomes⟩ := linkBecomes_held stands h
    exact ⟨_, execFrame_held kinds up armed busy, becomes⟩

end Sys2Proof.Machine
end

section
/-! SUPPORT. Transactions handed to a host link (R287 to R294): each has gone out, or waits behind others. -/

namespace Sys2Proof.Machine

/-! ### A transaction has gone out, or waits -/

/-- The link layer carries a transaction that has gone out: a read is in flight, and every other is in the replay buffer. -/
def HostLink.carries (l : HostLink) : Wait → Prop
  | .read _ len why => ∃ r ∈ l.reads, r.purpose = why ∧ r.length = len
  | .write addr data => ∃ f ∈ l.replay, f.kind = 3 ∧ f.body = writeBody addr data
  | .event body => ∃ f ∈ l.replay, f.kind = 7 ∧ f.body = body
  | .reply body => ∃ f ∈ l.replay, f.kind = 6 ∧ f.body = body

/-- A transaction has gone out, or waits. -/
def HostLink.placed (l : HostLink) (w : Wait) : Prop :=
  l.carries w ∨ w ∈ l.waiting

theorem placed_offWire (l : HostLink) (w : Wait) : l.offWire.placed w = l.placed w := by
  cases w <;> rfl

/-- Doorbell credits move no transaction. -/
theorem placed_doorbells (l : HostLink) (n : BitVec 16) (w : Wait) :
    ({ l with doorbells := n } : HostLink).placed w = l.placed w := by
  cases w <;> rfl

/-- Frames have gone out: what the link layer carried it still carries, and it stands as it stood. -/
structure SentOn (l m : HostLink) : Prop where
  phase : m.phase = l.phase
  clockStopped : m.clockStopped = l.clockStopped
  doorbells : m.doorbells = l.doorbells
  reads : l.reads ⊆ m.reads
  replay : l.replay ⊆ m.replay

namespace SentOn

theorem refl (l : HostLink) : SentOn l l :=
  ⟨rfl, rfl, rfl, List.Subset.refl _, List.Subset.refl _⟩

theorem trans {l m n : HostLink} (h : SentOn l m) (k : SentOn m n) : SentOn l n :=
  ⟨k.phase.trans h.phase, k.clockStopped.trans h.clockStopped, k.doorbells.trans h.doorbells, List.Subset.trans h.reads k.reads,
    List.Subset.trans h.replay k.replay⟩

theorem waits (l : HostLink) (ws : List Wait) : SentOn l { l with waiting := ws } :=
  ⟨rfl, rfl, rfl, List.Subset.refl _, List.Subset.refl _⟩

theorem sendFrame (l : HostLink) (kind : Nat) (body : Bytes) (data : Nat) : SentOn l (l.sendFrame kind body data) :=
  ⟨rfl, rfl, rfl, List.Subset.refl _, List.subset_append_left ..⟩

theorem carries {l m : HostLink} (h : SentOn l m) {w : Wait} (k : l.carries w) : m.carries w := by
  cases w with
  | read =>
    obtain ⟨r, flies, is⟩ := k
    exact ⟨r, h.reads flies, is⟩
  | write | event | reply =>
    obtain ⟨f, kept, is⟩ := k
    exact ⟨f, h.replay kept, is⟩

end SentOn

theorem sendFrame_replays (l : HostLink) (kind : Nat) (body : Bytes) (data : Nat) :
    ∃ f ∈ (l.sendFrame kind body data).replay, f.kind = kind ∧ f.body = body :=
  ⟨⟨kind, l.nextSeq, body⟩, List.mem_append_right _ List.mem_cons_self, rfl, rfl⟩

/-- A transaction that can go has gone out. -/
theorem trySend_sends {t : Nat} {l m : HostLink} {w : Wait} (h : l.trySend t w = some m) :
    SentOn l m ∧ m.carries w := by
  cases w with
  | read addr len why =>
    simp only [HostLink.trySend] at h
    split at h
    · cases h
    · next tag _ =>
      obtain ⟨-, ⟨⟩⟩ := Option.ite_none_right_eq_some.1 h
      have sent := SentOn.sendFrame l 1 (readBody tag len addr) 0
      exact ⟨⟨sent.phase, sent.clockStopped, sent.doorbells, List.subset_append_left .., sent.replay⟩,
        ⟨BitVec.ofNat 16 tag, len, t, why⟩, List.mem_append_right _ List.mem_cons_self, rfl, rfl⟩
  | write | event | reply =>
    simp only [HostLink.trySend] at h
    obtain ⟨-, ⟨⟩⟩ := Option.ite_none_right_eq_some.1 h
    exact ⟨.sendFrame .., sendFrame_replays ..⟩

theorem pumpList_sends (t : Nat) (ws : List Wait) (l : HostLink) :
    SentOn l (HostLink.pumpList t ws l) ∧
    ∀ w ∈ ws, (HostLink.pumpList t ws l).placed w := by
  induction ws generalizing l with
  | nil => exact ⟨.waits l [], nofun⟩
  | cons w ws ih =>
    simp only [HostLink.pumpList]
    split
    · next m sent =>
      obtain ⟨on, gone⟩ := trySend_sends sent
      obtain ⟨rest, each⟩ := ih m
      refine ⟨on.trans rest, fun v mem => ?_⟩
      rcases List.mem_cons.1 mem with rfl | mem
      · exact .inl (rest.carries gone)
      · exact each v mem
    · exact ⟨.waits l _, fun v mem => .inr mem⟩

theorem send_sends (l : HostLink) (t : Nat) (w : Wait) :
    SentOn l (l.send t w) ∧ (l.send t w).placed w := by
  obtain ⟨on, each⟩ := pumpList_sends t (l.waiting ++ [w]) { l with waiting := l.waiting ++ [w] }
  exact ⟨(SentOn.waits l _).trans on, each w (by simp)⟩

/-- A transaction is handed to the link. -/
theorem LinkBecomes.sendHost {s t : State} {p : Port} {l : HostLink} {sent : List Out} (h : LinkBecomes s t p l sent)
    (w : Wait) : LinkBecomes s (t.sendHost p w) p (l.send s.clock.symbols w) sent := by
  have behind : ({ t.link p with waiting := (t.link p).waiting ++ [w] } : HostLink).offWire =
      ({ l with waiting := l.waiting ++ [w] } : HostLink).offWire :=
    congrArg (fun x : HostLink => { x with waiting := x.waiting ++ [w] }) h.link
  refine h.modLink ?_
  rw [lay_offWire, h.clock]
  exact pump_offWire_congr behind _

end Sys2Proof.Machine
end

section
/-! SUPPORT. The anchor of a port (R306, R312 to R315, Table 13.18): an anchor message is answered or begins the read of its block, and
the block is accepted or refused. -/

namespace Sys2Proof.Machine

/-! ### The anchor message -/

/-- A message that hands a transaction to the link: it is placed, and the message's credit goes back. -/
theorem anchorMessage_hands {s : State} {p : Port} (up : s.linkUp p = true) (armed : s.armedFor 2 p.num = none)
    (runs : s.runs = true) (held : (s.link p).held = []) {body : Bytes} {b u : State} {l : HostLink} {sent : List Out}
    {w : Wait} (hands : (s.accepted p).actAnchor p body = u.sendHost p w) (before : LinkBecomes b u p l sent)
    (phase : l.phase = (s.link p).phase) (clock : l.clockStopped = (s.link p).clockStopped) :
    ∃ t, exec (.anchorMessage p (s.link p).expected body) s = .next t ∧ (∀ p', t.rings p' = b.rings p') ∧
      t.chans = b.chans ∧ (t.link p).doorbells = l.doorbells + 1 ∧ (t.link p).placed w := by
  obtain ⟨on, placed⟩ := send_sends l b.clock.symbols w
  have handed := before.sendHost w
  rw [← hands] at handed
  have after := onFrame_taken up armed runs held 5 (.anchor body) (fun v => v.actAnchor p body) handed
    (on.phase.trans phase) (on.clockStopped.trans clock)
  refine ⟨_, rfl, after.rings, after.chans, ?_, ?_⟩
  · rw [after.field HostLink.doorbells fun _ => rfl, ← on.doorbells]
  · rwa [after.field (HostLink.placed · w) fun x => placed_offWire x w, placed_doorbells]

/-- A good body of an anchor message, with the address of the block. -/
def anchorBody (addr : BitVec 64) : Bytes :=
  1 :: List.replicate 7 0 ++ le 8 addr.toNat

theorem anchorBody_addr (addr : BitVec 64) : field (anchorBody addr) 8 8 = addr.toNat := by
  have layout : anchorBody addr = (1 :: List.replicate 7 0) ++ (le 8 addr.toNat ++ []) := by
    rw [List.append_nil]
    rfl
  rw [layout]
  exact field_append _ [] 8 8 addr.toNat rfl addr.isLt

theorem anchorBody_format (addr : BitVec 64) : field (anchorBody addr) 0 1 = 1 := rfl

theorem anchorBody_reserved (addr : BitVec 64) : zeroAt (anchorBody addr) 1 7 = true := rfl

/-- Step 2 of Table 13.18: the read of the block begins. -/
theorem actAnchor_reads {s : State} {p : Port} {addr : BitVec 64} (aligned : addr.toNat % 4096 = 0)
    (none : (s.rings p).anchor = none) (idle : (s.rings p).anchorReading = false) :
    s.actAnchor p (anchorBody addr) =
      (s.setRings p { s.rings p with anchorReading := true }).hostRead p addr 4096 (.anchor addr) := by
  simp [State.actAnchor, State.modRings, anchorBody_addr, anchorBody_format, anchorBody_reserved, aligned, none, idle]

/-- Step 1 of Table 13.18: any other message is answered, after it has at most been counted. -/
theorem actAnchor_answers {s : State} {p : Port} {body : Bytes}
    (refused : (s.rings p).anchor.isSome = true ∨ (s.rings p).anchorReading = true ∨ field body 0 1 ≠ 1 ∨
      zeroAt body 1 7 = false ∨ field body 8 8 % 4096 ≠ 0) :
    ∃ u reply, Reported s u ∧ s.actAnchor p body = u.sendHost p (.reply reply) := by
  have page : (BitVec.ofNat 64 (field body 8 8)).toNat % 4096 = field body 8 8 % 4096 := by
    rw [BitVec.toNat_ofNat]
    exact Nat.mod_mod_of_dvd _ (by decide)
  unfold State.actAnchor
  dsimp only
  split
  -- a reserved field that is not zero is counted first
  · exact ⟨_, _, reported_occur .., rfl⟩
  -- a wrong format or an address off the pages
  · split
    · exact ⟨s, _, .refl s, rfl⟩
  -- an anchor accepted already
    · split
      · exact ⟨s, _, .refl s, rfl⟩
  -- a block being read
      · split
        · exact ⟨s, _, .refl s, rfl⟩
        · next reserved good accepted reading =>
          have format : field body 0 1 = 1 ∧ field body 8 8 % 4096 = 0 := by simpa [page] using good
          simp [format, accepted, reading] at refused reserved
          simp [refused] at reserved

/-- Counting an occurrence leaves the links and the channels. -/
theorem Reported.link {s t : State} (h : Reported s t) (p : Port) : t.link p = s.link p := by
  rw [h.frame]
  cases p <;> rfl

theorem Reported.chans {s t : State} (h : Reported s t) : t.chans = s.chans := by rw [h.frame]

/-! ### The anchor block -/

/-- Of a port that has an anchor, the anchor stays (R104). -/
theorem anchorRead_anchored {s : State} {p : Port} (h : (s.rings p).anchor.isSome = true) (addr : BitVec 64) (data : Bytes) :
    s.anchorRead p addr data = s.sendReply p 4 0 addr := if_pos h

theorem sendReply_rings (s : State) (p p' : Port) (status detail : Nat) (addr : BitVec 64) :
    (s.sendReply p status detail addr).rings p' = s.rings p' :=
  modLink_rings' ..

/-- A block that passes every check is accepted (Table 14.4). -/
theorem anchorRead_accepts {s : State} {p : Port} {addr : BitVec 64} {data : Bytes} (none : (s.rings p).anchor = none)
    (passes : anchorCode p data = 0) : ((s.anchorRead p addr data).rings p).anchor = some (readAnchor addr data) := by
  simp only [State.anchorRead, none, passes, Option.isSome_none, Bool.false_eq_true, if_true, if_false]
  refine (within_startChannels (within_writeStart (within_sendReply (within_hostWrite (Within.refl _))))).anchors p _ ?_
  rw [modRings_rings]

/-- A block that fails a check leaves the anchor. -/
theorem anchorRead_refuses {s : State} {p : Port} {data : Bytes} (fails : anchorCode p data ≠ 0) (addr : BitVec 64) :
    ((s.anchorRead p addr data).rings p).anchor = (s.rings p).anchor := by
  unfold State.anchorRead
  simp only [fails, if_false]
  split
  · rw [sendReply_rings]
  · rw [sendReply_rings, modRings_rings]

/-- Settles O35: the message by what `actAnchor` hands to the link, the block by `anchorRead`. -/
theorem anchorIsRead : Obligations.AnchorIsRead := by
  refine ⟨fun p addr s up armed runs held aligned none idle => ?_, fun p body s up armed runs held refused => ?_,
    fun p addr data s none passes => anchorRead_accepts none passes,
    fun p addr data s fails => anchorRead_refuses fails addr⟩
  all_goals have acc := linkBecomes_accepted s p
  · have reads := actAnchor_reads aligned (by rw [acc.rings, none]) (by rw [acc.rings, idle])
    rw [acc.rings] at reads
    have begun := acc.map (fun u => u.setRings p { s.rings p with anchorReading := true }) (setRings_out ..)
      fun _ _ _ => by cases p <;> rfl
    obtain ⟨t, e, rings, chans, doorbells, placed⟩ := anchorMessage_hands up armed runs held reads begun rfl rfl
    exact ⟨t, e, by rw [rings, setRings_rings], by rw [chans, setRings_chans], doorbells, placed⟩
  · obtain ⟨u, reply, reported, answers⟩ := actAnchor_answers (s := s.accepted p) (p := p) (body := body)
      (by rwa [acc.rings])
    have phase : (u.link p).phase = (s.link p).phase := by
      rw [reported.link]
      exact acc.field HostLink.phase fun _ => rfl
    have clock : (u.link p).clockStopped = (s.link p).clockStopped := by
      rw [reported.link]
      exact acc.field HostLink.clockStopped fun _ => rfl
    obtain ⟨t, e, rings, chans, -, placed⟩ := anchorMessage_hands up armed runs held answers (.refl u p) phase clock
    refine ⟨t, e, ?_, ?_, by rw [chans, reported.chans, acc.chans], ?_⟩
    · rw [rings, reported.rings, acc.rings]
    · rw [rings, reported.rings, acc.rings]
    · exact placed.imp (fun ⟨f, kept, kind, _⟩ => ⟨f, kept, kind⟩) fun waits => ⟨reply, waits⟩

end Sys2Proof.Machine
end

section
/-! SUPPORT. The telemetry writer (R117, R125, R337): what a reading leaves in the ports' periods, and what a boundary of the period
writes. -/

namespace Sys2Proof.Machine

/-! ### A reading of the sensors -/

@[simp] theorem newTemp_telem (s : State) (t : Int) (p : Port) : (s.newTemp t).telem p = s.telem p := by
  cases p <;> rfl

/-- Both ports' periods change alike. -/
@[simp] theorem modTelem_telem (s : State) (f : Telemetry → Telemetry) (p : Port) : (s.modTelem f).telem p = f (s.telem p) := by
  cases p <;> rfl

theorem nth_map_max_zip {a b : List Int} {i : Nat} (ha : i < a.length) (hb : i < b.length) :
    nth 0 ((a.zip b).map fun e => max e.1 e.2) i = max (nth 0 a i) (nth 0 b i) := by
  have both : i < (a.zip b).length := by
    rw [List.length_zip]
    omega
  have pair : (a.zip b)[i]? = some (a[i], b[i]) := by rw [List.getElem?_eq_getElem both, List.getElem_zip]
  simp only [nth, List.getElem?_map, pair, List.getElem?_eq_getElem ha, List.getElem?_eq_getElem hb, Option.map_some,
    Option.getD_some]

section
variable {vcore : Nat} {temps : List Int} {vmin : Int} {shown : Nat} {violation : Bool} {x : Telemetry}

/-- The first reading of a period is kept as it is. -/
theorem reading_temps_first (h : x.temps = []) :
    (Telemetry.reading vcore temps vmin shown violation x).temps = temps := by
  simp [Telemetry.reading, h]

/-- Of each sensor the highest temperature of the period is kept. -/
theorem reading_temps_highest (now : temps.length = 9) (kept : x.temps.length = 9)
    {i : Nat} (hi : i < 9) :
    nth 0 (Telemetry.reading vcore temps vmin shown violation x).temps i = max (nth 0 x.temps i) (nth 0 temps i) := by
  have begun : x.temps.isEmpty = false := List.isEmpty_eq_false_iff.mpr (List.ne_nil_of_length_eq_add_one kept)
  simp only [Telemetry.reading, begun, Bool.false_eq_true, if_false]
  exact nth_map_max_zip (by omega) (by omega)

end

/-- In a clearing of the telemetry writer's, nine temperatures every 16 superframes are a reading (R125, R127). -/
theorem sensorReading_reads {s : State} {temps : List Int} (boundary : s.atBoundary = true) (clearing : s.mayRun 87 4 = true)
    (due : s.clock.sf.toNat % 16 = 0) (nine : temps.length = 9) (vcore : Nat) :
    exec (.sensorReading vcore temps) s = .next (s.readSensors vcore temps) :=
  if_pos (by simp [boundary, clearing, due, nine])

/-! ### The telemetry record -/

theorem telemetryBoundary_writes {s : State} (boundary : s.atBoundary = true) (clearing : s.mayRun 87 4 = true)
    (period : s.par 0x0E00 ≠ 0) (due : s.clock.sf.toNat % s.par 0x0E00 = s.par 0x0E01) :
    exec .telemetryBoundary s = .next ((s.telemetry .a).telemetry .b) :=
  if_pos (by simp [boundary, clearing, period, due])

/-- A port with an anchor whose period has run gets the period's record, and a new period begins. -/
theorem telemetry_writes {s : State} {p : Port} (anchored : (s.rings p).anchor.isSome = true)
    (ran : s.since (s.telem p).since ≠ 0) :
    s.telemetry p = (((s.modRings p fun r => { r with telemetrySeq := r.telemetrySeq + 1, lost := 0 }).setTelem p
      { Telemetry.reset with since := s.clock.sf }).useFresh).record p 7 (s.telemetryBody p) :=
  if_pos (by simp [anchored, ran])

/-- Nothing is written for a port without an anchor, or whose period has lasted no superframe (log entry 27). -/
theorem telemetry_leaves {s : State} {p : Port} (h : (s.rings p).anchor = none ∨ s.since (s.telem p).since = 0) :
    s.telemetry p = s :=
  if_neg (by
    rcases h with bare | fresh
    · simp [bare]
    · simp [fresh])

/-- Settles O25: the reading by what `Telemetry.reading` keeps in either port's period, the boundary port by port. That a period of 0
superframes gets no record is log entry 27's, deduced and not R337's. -/
theorem sensorsAndTelemetry : Obligations.SensorsAndTelemetry := by
  refine ⟨fun vcore temps s u tm vmin bad boundary clearing due nine htm hvmin hbad hu => ⟨?_, fun p => ?_⟩,
    fun s => telemetryBoundary_writes, fun s p => telemetry_writes, fun s p => telemetry_leaves⟩
  · subst hu hbad hvmin htm
    exact sensorReading_reads boundary clearing due nine vcore
  · have kept : u.telem p = Telemetry.reading vcore temps vmin (if 1100 < tm then 0 else vmin.toNat) bad (s.telem p) := by
      rw [hu, newTemp_telem, modTelem_telem]
    rw [kept]
    exact ⟨rfl, rfl, reading_temps_first, fun nineKept i => reading_temps_highest nine nineKept⟩

end Sys2Proof.Machine
end

section
/-! SUPPORT. Background work and its limits (R127, R130, R236, R245, R427, R439): when each command acts, and what it then is. -/

namespace Sys2Proof.Machine

/-! ### Quality records -/

/-- At the channel's period the telemetry writer writes the record of what was counted (R236, R237). -/
theorem qualityPeriodBoundary_writes {s : State} {c : ChanId} (runs : s.runs = true) (clearing : s.mayRun 87 4 = true)
    (period : s.period c ≠ 0) (due : s.clock.sf.toNat % s.period c = 0) (counted : 0 < (s.chan c).quality.counted)
    (m : QualityMeasured) :
    exec (.qualityPeriodBoundary c m) s = .next ((s.measure c m).writeQuality c false) :=
  if_pos (by simp [runs, clearing, period, due, counted])

/-! ### Background tasks -/

/-- What BACKGROUND_TASK_START does for a class: its next task starts, the wake records held are written (log entry 57), or a scrub
pass begins. -/
def State.startBackground (s : State) : BgClass → State
  | .calibration => (s.nextTask true).elim s s.startTask
  | .diagnostics => (s.nextTask false).elim s s.startTask
  | .telemetry => (s.wakeRecords .a).wakeRecords .b
  | .scrub => s.beginScrub

theorem backgroundTaskStart_starts {s : State} (boundary : s.atBoundary = true) (starts : s.startsTasks = true)
    (k : BgClass) : exec (.backgroundTaskStart k) s = .next (s.startBackground k) := by
  have gate : (!s.atBoundary || !s.startsTasks) = false := by rw [boundary, starts]; rfl
  simp only [exec, execBackgroundTaskStart, gate, Bool.false_eq_true, if_false]
  cases k <;> rfl

theorem beginScrub_idle {s : State} (h : s.sched.scrub = none) :
    s.beginScrub = { s with sched := { s.sched with scrub := some 0 } } :=
  if_pos (by rw [h]; rfl)

/-- A scrub pass in progress goes on. -/
theorem beginScrub_busy {s : State} (h : s.sched.scrub.isSome = true) : s.beginScrub = s :=
  if_neg (by simp [Option.isNone_eq_false_iff.mpr h])

/-! ### Measurements that end -/

/-- The task is broken, or has run the least time of its mode (log entry 68). -/
def State.measurementOver (s : State) (t : Task) (mode : Nat) : Prop :=
  t.broken ≠ 0 ∨ ∃ x, t.started = some x ∧ s.passedSf x (measureTime mode) = true

/-- In a clearing of the diagnostics engine's a measurement that is over ends. -/
theorem mayEnd_of_measurementOver {s : State} {t : Task} {mode : Nat} (runs : s.runs = true) (clearing : s.mayRun 85 2 = true)
    (finished : s.measurementOver t mode) : s.mayEnd t mode = true := by
  rcases finished with broken | ⟨x, started, passed⟩
  · simp [State.mayEnd, runs, clearing, broken]
  · simp [State.mayEnd, runs, clearing, started, passed]

/-- A measurement's result: what broke it, or whether it found a change (R250). -/
theorem measurementResult_eq (t : Task) (changed : Bool) :
    (if t.broken != 0 then t.broken else bit changed) = if t.broken ≠ 0 then t.broken else if changed then 1 else 0 := by
  simp only [bne_iff_ne, bit]

theorem soundingEnd_ends {s : State} {t : Task} {c : ChanId} {mode : Nat} (sounding : s.sounding [1, 2] = some (t, c, mode))
    (ends : s.mayEnd t mode = true) (m : SoundingMeasured) :
    exec (.soundingEnd m) s = .next (s.soundingEnds t c mode (if t.broken ≠ 0 then t.broken else
      if measuredChange m (s.elem 0x0C00 c) (s.elem 0x0C01 c) then 1 else 0) m) := by
  simp only [exec, execSoundingEnd, sounding, ends, if_true, measurementResult_eq]

theorem noiseFloorMeasurementEnd_ends {s : State} {t : Task} {c : ChanId} {mode : Nat}
    (sounding : s.sounding [3] = some (t, c, mode)) (ends : s.mayEnd t mode = true) (n : Nat) (noise : Bytes) (changed : Bool) :
    exec (.noiseFloorMeasurementEnd n noise changed) s =
      .next (s.noiseEnds t c (if t.broken ≠ 0 then t.broken else if changed then 1 else 0) n noise) := by
  simp only [exec, execNoiseFloorMeasurementEnd, sounding, ends, if_true, measurementResult_eq]

/-! ### Limits of the fault side -/

/-- Grace that has run out escalates the scope that reacts (R427). -/
theorem graceTimerExpiry_escalates {s : State} {i : Scope} {r : Reaction} {t : Nat} (runs : s.runs = true)
    (reacting : s.reaction i = some r) (grace : r.expires = some t) (expired : t ≤ s.clock.symbols) :
    exec (.graceTimerExpiry i) s = .next (s.escalate r) := by
  simp [exec, execGraceTimerExpiry, reacting, grace, runs, expired]

/-- An injection that no check has used up is disarmed, and its item ends with result 5 (R328). -/
theorem injectionLimitExpiry_disarms {s : State} {k : Fin 8} {f : Nat} {p : Port} {q : Fin 512} {item : BitVec 32} {t : Sf}
    (runs : s.runs = true) (armed : (s.faults.armed.find? fun a => a.1 == k.val) = some (k.val, f, p, q, item, t))
    (expired : s.passedSf t 65536 = true) :
    exec (.injectionLimitExpiry k) s = .next ({ s with faults := { s.faults with
      armed := s.faults.armed.filter fun a => !(a.1 == k.val) } }.result p q item 5 0 0) := by
  simp [exec, execInjectionLimitExpiry, armed, runs, expired]

/-- Settles O58: each command by when it acts, the background classes by `startBackground`, the measurements by
`mayEnd_of_measurementOver`. That the telemetry class writes the held wake records rests on R264, R270 and log entry 57, the least
measurement times on R246 and log entry 68; both entries are deduced. -/
theorem backgroundTasksAct : Obligations.BackgroundTasksAct := by
  refine fun s => ⟨fun c m runs clearing period due counted => qualityPeriodBoundary_writes runs clearing period due counted m,
    fun boundary starts => ?tasks,
    fun m t c mode sounding runs clearing finished => soundingEnd_ends sounding (mayEnd_of_measurementOver runs clearing finished) m,
    fun n noise changed t c mode sounding runs clearing finished =>
      noiseFloorMeasurementEnd_ends sounding (mayEnd_of_measurementOver runs clearing finished) n noise changed,
    fun i r t => graceTimerExpiry_escalates, fun k f p q item t => injectionLimitExpiry_disarms⟩
  case tasks =>
    have start (k : BgClass) {t : State} (h : s.startBackground k = t) : exec (.backgroundTaskStart k) s = .next t :=
      h ▸ backgroundTaskStart_starts boundary starts k
    refine ⟨fun t next => start .calibration ?_, fun t next => start .diagnostics ?_, start .telemetry rfl,
      fun idle => start .scrub (beginScrub_idle idle), fun busy => start .scrub (beginScrub_busy busy)⟩
    · rw [State.startBackground, next, Option.elim_some]
    · rw [State.startBackground, next, Option.elim_some]

end Sys2Proof.Machine
end

section
/-! SUPPORT. KEY_PROGRAM (R145, R496): it shifts like KEY_READ, and sets bits of the key digest under its conditions alone. -/

namespace Sys2Proof.Machine

theorem mayProgram_iff (s : State) :
    s.mayProgram = true ↔ s.pins.resetN = false ∧ s.pins.pwrok = true ∧ s.tap.key = 0 := by
  simp [State.mayProgram, and_assoc]

/-- The key register has been scanned, and the field holds a value. -/
def State.keyScanned (s : State) (key : BitVec 288) : State :=
  { s.tapIdle with tap := { s.tap with
    ir := 0x12, width := 288, shifted := s.tap.key.setWidth 512, key := key, drives := .device } }

/-- Outside its conditions KEY_PROGRAM only shifts. -/
theorem keyProgram_shifts {s : State} (h : s.mayProgram = false) (bits : BitVec 288) (w : KeyWait) :
    exec (.keyProgram bits w) s = .next (s.keyScanned s.tap.key) := by
  simp [exec, execKeyProgram, h, State.scan, State.keyScanned, State.tapIdle]

/-- Under its conditions KEY_PROGRAM sets bits as the wait leaves them. -/
theorem keyProgram_programs {s : State} (h : s.mayProgram = true) (bits : BitVec 288) (w : KeyWait) :
    exec (.keyProgram bits w) s =
      .next ((s.keyScanned (programmed bits s.tap.key s.fresh w)).useFresh.edgesSeen w) := by
  simp [exec, execKeyProgram, h, State.scan, State.keyScanned, State.tapIdle]

/-- Only bits shifted in as 1 are set in a blank field, whatever the wait. -/
theorem programmed_and_bits (bits : BitVec 288) (fresh : Nat) (w : KeyWait) :
    programmed bits 0 fresh w &&& bits = programmed bits 0 fresh w := by
  cases w with
  | complete => exact BitVec.and_self
  | noClock => exact BitVec.zero_and
  | interrupted =>
    simp only [programmed]
    rw [BitVec.and_comm, ← BitVec.and_assoc, BitVec.and_self]

/-- Edges of the selected clock end its standing still, and nothing else. -/
theorem edgesSeen_eq (s : State) (w : KeyWait) :
    s.edgesSeen w = { s with linkA := (s.edgesSeen w).linkA, linkB := (s.edgesSeen w).linkB } := by
  cases w with
  | noClock => rfl
  | complete | interrupted =>
    unfold State.edgesSeen State.modLink
    cases s.sourcePort <;> rfl

theorem edgesSeen_link (s : State) (w : KeyWait) (p : Port) : (s.edgesSeen w).link p =
    if p = s.sourcePort ∧ w ≠ .noClock then { s.link p with clockStopped := false } else s.link p := by
  cases w with
  | noClock => simp [State.edgesSeen]
  | complete | interrupted =>
    by_cases h : p = s.sourcePort
    · simp [State.edgesSeen, h]
    · simp [State.edgesSeen, h, modLink_link_ne]

theorem edgesSeen_tap (s : State) (w : KeyWait) : (s.edgesSeen w).tap = s.tap := by
  rw [edgesSeen_eq]

/-- Settles O16: within its conditions by `keyProgram_programs`, outside them by `keyProgram_shifts`. Which bits an interrupted wait
sets is left open (log entry 5). -/
theorem keyProgramSetsBits : Obligations.KeyProgramSetsBits := by
  intro s bits w
  cases h : s.mayProgram with
  | true =>
    obtain ⟨low, power, blank⟩ := (mayProgram_iff s).mp h
    have key : ((s.keyScanned (programmed bits s.tap.key s.fresh w)).useFresh.edgesSeen w).tap.key =
        programmed bits 0 s.fresh w := by
      rw [edgesSeen_tap, blank]
      rfl
    refine ⟨_, keyProgram_programs h bits w, ?_, ?_, fun _ _ _ => ⟨?_, ?_, ?_, ?_⟩, ?_⟩
    · rw [edgesSeen_eq]
      rfl
    · rw [edgesSeen_tap]
      rfl
    · rintro rfl
      exact key
    · rintro rfl
      exact key
    · rw [key]
      exact fun _ => programmed_and_bits bits s.fresh w
    · exact fun p => edgesSeen_link _ w p
    · rintro (high | down | used)
      · simp [low] at high
      · simp [power] at down
      · exact absurd blank used
  | false =>
    refine ⟨_, keyProgram_shifts h bits w, rfl, rfl, fun low power blank => ?_, fun _ => ⟨rfl, rfl, fun _ => rfl⟩⟩
    simp [(mayProgram_iff s).mpr ⟨low, power, blank⟩] at h

end Sys2Proof.Machine
end

section
/-! SUPPORT. The one-time-programmable fields (R144, R145, R496): every command but KEY_PROGRAM keeps all three. -/

namespace Sys2Proof.Machine

/-- The one-time-programmable fields: the key digest, the factory reference and the die identifier. -/
def Tap.fuses (x : Tap) : BitVec 288 × BitVec 32 × BitVec 64 :=
  (x.key, x.factory, x.die)

/-- A meaning answers a next state of the same one-time-programmable fields. -/
def KeepsFuses (s : State) : Host.Outcome State Fault Refusal → Prop
  | .next t => t.tap.fuses = s.tap.fuses
  | _ => False

theorem KeepsFuses.ite {s a b : State} {c : Prop} [Decidable c] (h : a.tap.fuses = s.tap.fuses)
    (k : b.tap.fuses = s.tap.fuses) : KeepsFuses s (if c then .next a else .next b) := by
  split <;> assumption

theorem LastsR.keepsFuses {s : State} {r : Host.Outcome State Fault Refusal} (h : LastsR s r) : KeepsFuses s r := by
  cases r with
  | next => exact congrArg Tap.fuses (Lasts.tap h)
  | fault => exact h
  | refused => exact h

theorem HoldsR.keepsFuses {s : State} {r : Host.Outcome State Fault Refusal} (h : HoldsR s r) : KeepsFuses s r :=
  h.lasts.keepsFuses

/-- A reset input's level is no field of the test access port. -/
theorem setReset_fuses (s : State) (pin : ResetPin) (level : Bool) : (s.setReset pin level).tap.fuses = s.tap.fuses := by
  rw [setReset_tap]

/-- Every command but KEY_PROGRAM keeps the one-time-programmable fields: an instruction of the test access port writes only its
scan, and a reset keeps the port as it is. -/
theorem exec_keepsFuses (c : Instr) (s : State) (hc : ∀ bits w, c ≠ .keyProgram bits w) : KeepsFuses s (exec c s) := by
  by_cases h : inStage c = true
  · exact (exec_within c s h).holds.keepsFuses
  cases c with
  | keyProgram bits w => exact absurd rfl (hc bits w)
  | resetAssert pin => exact setReset_fuses s pin false
  | resetRelease pin => exact .ite (setReset_fuses s pin true) (setReset_fuses s pin true)
  | tapReset | idcode | samplePreload | startStatus | keyRead | factoryRef | dieId => exact rfl
  | extest | extestPulse | extestTrain | clamp | highz => exact rfl
  | bypass => exact .ite rfl rfl
  | stabilityCountDone l calN => exact (holds_execStabilityCountDone l calN s).keepsFuses
  | strapResistorStepEnd rm => exact (holds_execStrapResistorStepEnd rm s).keepsFuses
  | imageLoaded sfdp b => exact (holds_execImageLoaded sfdp b s).keepsFuses
  | imageChecked => exact (holds_execImageChecked s).keepsFuses
  | coefficientsLoaded p m t n => exact (holds_execCoefficientsLoaded p m t n s).keepsFuses
  | slotTick slack late rx errors => exact (holds_execSlotTick slack late rx errors s).keepsFuses
  | tselChange level => exact (holds_execTselChange level s).keepsFuses
  | sourceSwitchDone => exact (holds_execSourceSwitchDone s).keepsFuses
  | startupSwitchCountDone k n => exact (holds_execStartupSwitchCountDone k n s).keepsFuses
  | hckInterruption => exact (holds_execHckInterruption s).keepsFuses
  | hckReturn => exact (holds_execHckReturn s).keepsFuses
  | dormantLineStop => exact (holds_execDormantLineStop s).keepsFuses
  | dormantExitBegin => exact (lasts_execDormantExitBegin s).keepsFuses
  | warmCountDone n => exact (holds_execWarmCountDone n s).keepsFuses
  | calNFalling => exact (holds_execCalNFalling s).keepsFuses
  | calNRising => exact (holds_execCalNRising s).keepsFuses
  | _ => exact absurd rfl h

/-- KEY_PROGRAM keeps the factory reference and the die identifier; it sets bits of a blank field alone, and only those that are
shifted in as 1 while edges of the selected clock come. -/
theorem keyProgram_setsOnly {s t : State} {bits : BitVec 288} {w : KeyWait} (e : exec (.keyProgram bits w) s = .next t) :
    t.tap.factory = s.tap.factory ∧ t.tap.die = s.tap.die ∧
    (t.tap.key = s.tap.key ∨
      (s.mayProgram = true ∧ w ≠ .noClock ∧ t.tap.key &&& bits = t.tap.key)) := by
  cases h : s.mayProgram with
  | false =>
    obtain rfl : s.keyScanned s.tap.key = t := by simpa [keyProgram_shifts h] using e
    exact ⟨rfl, rfl, .inl rfl⟩
  | true =>
    obtain ⟨-, -, blank⟩ := (mayProgram_iff s).mp h
    obtain rfl : (s.keyScanned (programmed bits s.tap.key s.fresh w)).useFresh.edgesSeen w = t := by
      simpa [keyProgram_programs h] using e
    rw [edgesSeen_tap, blank]
    refine ⟨rfl, rfl, ?_⟩
    by_cases edges : w = .noClock
    · subst edges
      exact .inl rfl
    · exact .inr ⟨rfl, edges, programmed_and_bits bits s.fresh w⟩

/-- Settles O11: KEY_PROGRAM by `keyProgram_setsOnly`, every other command by `exec_keepsFuses`. -/
theorem keyBitsAreOnlySet : Obligations.KeyBitsAreOnlySet := by
  intro c s t e
  by_cases hc : ∃ bits w, c = .keyProgram bits w
  · obtain ⟨bits, w, rfl⟩ := hc
    obtain ⟨factory, die, key⟩ := keyProgram_setsOnly e
    refine ⟨factory, die, key.imp_right fun ⟨may, edges, ones⟩ => ?_⟩
    obtain ⟨low, power, blank⟩ := (mayProgram_iff s).mp may
    exact ⟨blank, low, power, bits, w, rfl, edges, ones⟩
  · have kept := exec_keepsFuses c s fun bits w h => hc ⟨bits, w, h⟩
    rw [e] at kept
    obtain ⟨key, factory, die⟩ : t.tap.key = s.tap.key ∧ t.tap.factory = s.tap.factory ∧ t.tap.die = s.tap.die := by
      simpa [KeepsFuses, Tap.fuses] using kept
    exact ⟨factory, die, .inl key⟩

end Sys2Proof.Machine
end

section
/-! SUPPORT. The accepted image (R147, R311): every command keeps it, accepts a copy, puts the device into the reset state, or enters a
dormant state. -/

namespace Sys2Proof.Machine

/-! ### Operations that keep the image -/

@[simp] theorem deselect_image (s : State) : s.deselect.image = s.image := (within_deselect (Within.refl s)).image

/-- Taking a source and counting a change set only the clock and the start side. -/
theorem tselChanged_image (s : State) (level : Bool) : (s.tselChanged level).image = s.image := by
  unfold State.tselChanged
  split
  case h_12 =>
    split
    · rfl
    · exact beginSwitch_image s level
  all_goals simp [State.takeSource, State.countSwitch]

theorem endSwitch_image (s : State) : s.endSwitch.image = s.image :=
  (within_reissueStore (Within.refl _)).image

theorem beginLoad_image (s : State) (d : FlashDev) : (s.beginLoad d).image = s.image :=
  (within_loadCommands (Within.refl _)).image

theorem copyFailed_image (s : State) (d : FlashDev) (code : Nat) : (s.copyFailed d code).image = s.image := by
  cases d with
  | primary => exact beginLoad_image _ .mirror
  | mirror => rfl

theorem loadCoefficients_image (s : State) (p m : CoeffRead) (t : Int) : (s.loadCoefficients p m t).image = s.image := by
  rw [loadCoefficients_eq]

theorem setReset_image (s : State) (pin : ResetPin) (level : Bool) : (s.setReset pin level).image = s.image := by
  cases pin <;> rfl

theorem sampleStraps_image (s : State) (l : StrapLevels) (calN : Bool) : (s.sampleStraps l calN).image = s.image := by
  obtain ⟨frame, -⟩ := sampleStraps_taken s l calN
  rw [frame]

theorem forgetHost_image (s : State) : s.forgetHost.image = s.image := by
  have w : Within s (eachChan State.forgetChan allChans s.forgetFaults) :=
    within_eachChan (within_forgetFaults (Within.refl s)) fun _ _ k => within_modRetry (within_modWake k)
  unfold State.forgetHost
  dsimp only
  exact w.image

theorem exitBegin_image (s : State) (k : DormantKind) : (s.exitBegin k).image = s.image := by
  cases k <;> simp [State.exitBegin, forgetHost_image]

theorem slotWork_image (s : State) : s.slotWork.image = s.image := (within_slotWork s).image

theorem nextSlot_image (s : State) : s.nextSlot.image = s.image := by
  unfold State.nextSlot
  split
  · have w : Within s (eachChan State.countSuperframe s.liveChans s) :=
      within_eachChan (Within.refl s) fun _ _ k => within_countSuperframe k
    exact w.image
  · rfl

theorem firstTick_image (s : State) : s.firstTick.image = s.image := by
  unfold State.firstTick
  split
  · exact (within_starting _).image
  · rfl

/-! ### Commands that keep the image -/

/-- A meaning answers a next state of the same image. -/
def KeepsImage (s : State) : Host.Outcome State Fault Refusal → Prop
  | .next t => t.image = s.image
  | _ => False

theorem KeepsImage.ite {s a b : State} {c : Prop} [Decidable c] (h : a.image = s.image) (k : b.image = s.image) :
    KeepsImage s (if c then .next a else .next b) := by
  split <;> assumption

theorem WithinR.keepsImage {s : State} {r : Host.Outcome State Fault Refusal} (h : WithinR s r) : KeepsImage s r := by
  cases r with
  | next => exact Within.image h
  | fault => exact h
  | refused => exact h

theorem keepsImage_execImageLoaded (sfdp b : Bytes) (s : State) : KeepsImage s (execImageLoaded sfdp b s) := by
  unfold execImageLoaded
  split
  · exact rfl
  · next d _ =>
    have read : ((s.loadReads d sfdp b).select d false).image = s.image :=
      (within_select (within_loadReads (Within.refl s))).image
    exact .ite read ((copyFailed_image _ d _).trans read)

theorem keepsImage_execSlotTick (slack : List (Nat × Int)) (late : List Nat) (rx : List (ChanId × Reception))
    (errors : List SramError) (s : State) : KeepsImage s (execSlotTick slack late rx errors s) := by
  have before : Within s ((s.endSlot rx).endLists slack late) := within_endLists (within_endSlot (Within.refl s))
  have after (u : State) : Within u (sramErrors errors u).injectedScrub :=
    within_injectedScrub (within_sramErrors (Within.refl u))
  unfold execSlotTick
  split
  · exact rfl
  · split
    · exact (slotWork_image _).trans (firstTick_image s)
    · refine .ite ?_ rfl
      rw [(after _).image, slotWork_image, nextSlot_image, before.image]

theorem keepsImage_execStartupSwitchCountDone (k : Fin 20) (n : Nat) (s : State) :
    KeepsImage s (execStartupSwitchCountDone k n s) := by
  unfold execStartupSwitchCountDone
  split
  · dsimp only
    split
    · exact (within_loadCommand (Within.refl _)).image
    · exact say_image _ _
    · exact rfl
    · exact rfl
  · exact rfl

theorem keepsImage_execHckInterruption (s : State) : KeepsImage s (execHckInterruption s) := by
  unfold execHckInterruption
  dsimp only
  split
  · exact modLink_image ..
  · exact (within_breakAll (Within.refl _)).image.trans (modLink_image ..)

theorem keepsImage_execHckReturn (s : State) : KeepsImage s (execHckReturn s) := by
  unfold execHckReturn
  dsimp only
  split
  · have back := (within_portClockBack (Within.refl { s with
      clock := { s.clock with interrupted := false, pendingTsel := false } }) (x2 := s.sourcePort)).image
    exact .ite ((beginSwitch_image _ _).trans back) back
  · exact rfl

theorem keepsImage_execDormantExitBegin (s : State) : KeepsImage s (execDormantExitBegin s) := by
  unfold execDormantExitBegin
  split
  · exact .ite (exitBegin_image s _) rfl
  · exact rfl

theorem keepsImage_execWarmCountDone (n : Nat) (s : State) : KeepsImage s (execWarmCountDone n s) := by
  unfold execWarmCountDone
  split
  · next k _ =>
    split
    · exact rfl
    · cases k with
      | retain => exact (modRings_image ..).trans (modRings_image ..)
      | deep => exact beginLoad_image s .primary
  · exact rfl

theorem keepsImage_execCalNFalling (s : State) : KeepsImage s (execCalNFalling s) := by
  unfold execCalNFalling
  dsimp only
  split
  · exact .ite (within_commandByPin (within_modCalib (Within.refl _))).image rfl
  · exact rfl

theorem keepsImage_execKeyProgram (bits : BitVec 288) (w : KeyWait) (s : State) :
    KeepsImage s (execKeyProgram bits w s) := by
  refine .ite ?_ rfl
  rw [edgesSeen_eq]
  rfl

/-! ### The two commands that renew or mark the image -/

/-- IMAGE_CHECKED keeps the image or accepts a copy, after which the coefficients follow (R99). -/
theorem execImageChecked_keepsImage_or_accepts (s : State) : KeepsImage s (execImageChecked s) ∨
    ∃ t, execImageChecked s = .next t ∧ t.start.stage = .coefficients := by
  unfold execImageChecked
  split
  · exact .inl rfl
  · next d _ =>
    dsimp only
    split
    · exact .inr ⟨s.acceptImage d, rfl, rfl⟩
    · exact .inl (copyFailed_image s d _)

/-- Only dormant-retain keeps the image loaded (R311). -/
theorem lineStop_image (s : State) (e : Entry) :
    (s.lineStop e).image = { s.image with loaded := s.image.loaded && e.kind == .retain } := by
  simp [State.lineStop, (within_holdLinks (Within.refl s)).image]

/-- DORMANT_LINE_STOP keeps the image or enters the dormant state, which marks it. -/
theorem execDormantLineStop_keepsImage_or_marks (s : State) : KeepsImage s (execDormantLineStop s) ∨
    ∃ t, execDormantLineStop s = .next t ∧ ∃ k, t.start.stage = .dormant k ∧
      t.image = { s.image with loaded := s.image.loaded && k == .retain } := by
  unfold execDormantLineStop
  split
  · next e _ =>
    split
    · exact .inr ⟨s.lineStop e, rfl, e.kind, rfl, lineStop_image s e⟩
    · exact .inl rfl
  · exact .inl rfl

/-- Beside the two, every command keeps the image or puts the device into the reset state, as a reset input and the test access
port's instructions that act on pins do (R495). -/
theorem exec_keepsImage_or_renews (c : Instr) (s : State) : KeepsImage s (exec c s) ∨ ∃ t, exec c s = .next t ∧
    ((c = .imageChecked ∧ t.start.stage = .coefficients) ∨ t.start.stage = .reset ∨
      (c = .dormantLineStop ∧ ∃ k, t.start.stage = .dormant k ∧
        t.image = { s.image with loaded := s.image.loaded && k == .retain })) := by
  by_cases h : inStage c = true
  · exact .inl (exec_within c s h).keepsImage
  cases c with
  | imageChecked =>
    exact (execImageChecked_keepsImage_or_accepts s).imp_right fun ⟨t, e, accepted⟩ => ⟨t, e, .inl ⟨rfl, accepted⟩⟩
  | dormantLineStop =>
    exact (execDormantLineStop_keepsImage_or_marks s).imp_right fun ⟨t, e, marked⟩ => ⟨t, e, .inr (.inr ⟨rfl, marked⟩)⟩
  | resetAssert | extest | extestPulse | extestTrain | clamp | highz => exact .inr ⟨_, rfl, .inr (.inl rfl)⟩
  | resetRelease pin => exact .inl (.ite (setReset_image s pin true) (setReset_image s pin true))
  | stabilityCountDone l calN => exact .inl (.ite (sampleStraps_image s l calN) rfl)
  | strapResistorStepEnd => exact .inl (.ite (beginLoad_image _ .primary) rfl)
  | imageLoaded sfdp b => exact .inl (keepsImage_execImageLoaded sfdp b s)
  | coefficientsLoaded p m t _ =>
    exact .inl (.ite ((loadCoefficients_image _ p m t).trans (within_coefficientCommands (Within.refl s)).image) rfl)
  | slotTick slack late rx errors => exact .inl (keepsImage_execSlotTick slack late rx errors s)
  | tselChange level => exact .inl (.ite rfl (tselChanged_image _ level))
  | sourceSwitchDone => exact .inl (.ite (endSwitch_image s) rfl)
  | startupSwitchCountDone k n => exact .inl (keepsImage_execStartupSwitchCountDone k n s)
  | hckInterruption => exact .inl (keepsImage_execHckInterruption s)
  | hckReturn => exact .inl (keepsImage_execHckReturn s)
  | dormantExitBegin => exact .inl (keepsImage_execDormantExitBegin s)
  | warmCountDone n => exact .inl (keepsImage_execWarmCountDone n s)
  | calNFalling => exact .inl (keepsImage_execCalNFalling s)
  | calNRising => exact .inl (.ite rfl rfl)
  | keyProgram bits w => exact .inl (keepsImage_execKeyProgram bits w s)
  | bypass => exact .inl (.ite rfl rfl)
  | tapReset | idcode | samplePreload | startStatus | keyRead | factoryRef | dieId => exact .inl rfl
  | _ => exact absurd rfl h

/-- Settles O9: each command by `exec_keepsImage_or_renews`. -/
theorem imageIsKept : Obligations.ImageIsKept := by
  intro c s t e
  rcases exec_keepsImage_or_renews c s with kept | ⟨u, k, renewed⟩
  · rw [e] at kept
    exact .inl kept
  · obtain rfl : t = u := by simpa [e] using k
    exact .inr renewed

end Sys2Proof.Machine
end

section
/-! SUPPORT. The receive path of a channel in DATA (R163, R176, R185 to R193): what a codeword, the sync symbols, the adaptations and
an echo retrain make of it. -/

namespace Sys2Proof.Machine

/-! ### Codewords and sync symbols -/

theorem Chan.rxData_of_data {x : Chan} (data : x.stands .data = true) : x.rxData = true := by
  simp [Chan.rxData, data]

/-- A codeword in data mode, with no inversion armed for it (R168, R176). -/
theorem codewordDecoded_takes {c : ChanId} {s : State} {lam : List Int} (runs : s.runs = true)
    (data : (s.chan c).stands .data = true) (armed : (s.armedFor 3 c.val).isSome = false)
    (lasts : s.rxOver (s.chan c) = false) :
    exec (.codewordDecoded c lam) s = .next ((s.modRetry c fun r =>
      { r with rxScr := BitVec.ofNat 23 (prbsBits 23 18 2048 r.rxScr.toNat).2 }).dataCodeword c
        (decodeWord ((s.chan c).air.word lam) (s.elem 0x030C c) (s.chan c).retry.rxScr.toNat false)) := by
  simp [exec, execCodewordDecoded, runs, Chan.rxData_of_data data, armed, lasts]

theorem swapBegins_armed {c : ChanId} {s : State} {t : Table} (armed : (s.chan c).load.armed = some t) :
    s.swapBegins c = s.modChan c fun y => { y with
      load := { y.load with rxTable := t, armed := none, attempts := 0, replied := false }
      quality := { y.quality with syncMinus := y.quality.syncMinus + 1, syncS := y.quality.syncS - 1 } } := by
  simp only [State.swapBegins, armed]

theorem swapBegins_unarmed {c : ChanId} {s t : State} (armed : (s.chan c).load.armed = none)
    (counted : t = s.modQuality c fun q => { q with unarmed := q.unarmed + 1, syncS := q.syncS - 1 }) :
    s.swapBegins c = t.occurChan 13 c (t.addrLink c 0) := by
  simp only [State.swapBegins, armed, counted]

theorem syncMinusS_swaps {c : ChanId} {s : State} (runs : s.runs = true) (data : (s.chan c).stands .data = true) :
    exec (.syncMinusS c) s = .next (s.swapBegins c) := by
  simp [exec, execSyncMinusS, runs, data]

theorem atBoundary_of_slot {s : State} (runs : s.runs = true) (slot : s.clock.slot = 0) : s.atBoundary = true := by
  simp [State.atBoundary, runs, slot]

theorem missedSyncs_entersFast {c : ChanId} {s : State} (boundary : s.atBoundary = true)
    (data : (s.chan c).stands .data = true) :
    exec (.missedSyncs c) s = .next ((s.countMissed c 4).enterFast c 3 (s.clock.sf - 4)) :=
  if_pos (by simp [boundary, data])

/-! ### Gain, corner, pre-equaliser and window -/

/-- Tracking moves the gain, or notes the step for when the loader disarms (R185). -/
theorem gainTrackingStep_steps {c : ChanId} {s : State} {power : Int} (boundary : s.atBoundary = true)
    (data : (s.chan c).stands .data = true) (automatic : s.manualGain c = none) (enabled : s.elem 0x0305 c = 1)
    (off : 75 < (power + 1200).natAbs) (first : (s.chan c).air.stepped = false) :
    exec (.gainTrackingStep c power) s = .next
      (if (s.chan c).load.armed.isSome then s.modRx c fun r => { r with gainDue := some (decide (power < -1200)) }
       else s.stepGain c (decide (power < -1200))) := by
  rw [apply_ite Host.Outcome.next]
  exact if_pos (by simp [boundary, data, automatic, enabled, off, first])

theorem Air.at_iff {a : Air} {n : Nat} : a.at n = true ↔ a.aligned = false ∨ a.symbol = n := by
  simp [Air.at]

theorem antiAliasCornerChange_widens {c : ChanId} {s : State} (runs : s.runs = true)
    (data : (s.chan c).stands .data = true) (symbol : (s.chan c).air.at 128 = true)
    (narrow : (s.chan c).rx.narrow = true) (waiting : (s.chan c).load.waiting.isSome = true) :
    exec (.antiAliasCornerChange c) s = .next (s.modRx c fun r => { r with narrow := false }.mark 4) := by
  simp [exec, execAntiAliasCornerChange, runs, data, symbol, narrow, waiting]

theorem antiAliasCornerChange_narrows {c : ChanId} {s : State} (runs : s.runs = true)
    (data : (s.chan c).stands .data = true) (symbol : (s.chan c).air.at 128 = true)
    (wide : (s.chan c).rx.narrow = false) (waiting : (s.chan c).load.waiting = none)
    (armed : (s.chan c).load.armed = none) (low : tableWide (s.chan c).load.rxTable = false) :
    exec (.antiAliasCornerChange c) s = .next (s.modRx c fun r => { r with narrow := true }.mark 4) := by
  simp [exec, execAntiAliasCornerChange, runs, data, symbol, wide, waiting, armed, low]

theorem preEqualiserUpdate_recomputes {c : ChanId} {s : State} (runs : s.runs = true)
    (data : (s.chan c).stands .data = true) (enabled : s.elem 0x0306 c = 1) (symbol : (s.chan c).air.at 64 = true)
    (due : 256 ≤ (s.chan c).air.preEqFrames) :
    exec (.preEqualiserUpdate c) s = .next ((((s.setPreEq c).correctMatrix c).modRx c (Rx.mark 1)).modChan c fun y =>
      { y with air := { y.air with preEqFrames := 0 } }) :=
  if_pos (by simp [runs, data, enabled, symbol, due])

theorem Air.passedHalf_iff {a : Air} {later : Bool} : a.passedHalf later = true ↔
    a.aligned = false ∨ (later = true ∧ 32 < a.delay) ∨ (later = false ∧ a.delay < -32) := by
  cases later <;> simp [Air.passedHalf]

theorem transformWindowMove_moves {c : ChanId} {s : State} {later : Bool} (runs : s.runs = true)
    (data : (s.chan c).stands .data = true) (passed : (s.chan c).air.passedHalf later = true) :
    exec (.transformWindowMove c later) s = .next (s.modChan c (Chan.moveWindow later)) := by
  obtain ⟨link, staying⟩ : (s.chan c).link = .data ∧ (s.chan c).bring.toSearch = none := by
    simpa [Chan.stands] using data
  exact if_pos (by simp [runs, link, staying, passed, LinkState.receives])

/-- A window move changes the receive path and the position on the line alone. -/
theorem modChan_moveWindow (c : ChanId) (s : State) (later : Bool) :
    s.modChan c (Chan.moveWindow later) = s.modChan c fun y => { y with
      rx := ((s.chan c).moveWindow later).rx, air := ((s.chan c).moveWindow later).air } :=
  rfl

/-! ### Echo retrains (R193) -/

theorem echoRetrainStart_retrains {c : ChanId} {s : State} {residuals : List Int} (runs : s.runs = true)
    (data : (s.chan c).stands .data = true) (idle : (s.chan c).rx.retraining = none)
    (settled : (s.chan c).rx.holdoff = none) (four : residuals.length = 4) (above : ∀ r ∈ residuals, -500 < r) :
    exec (.echoRetrainStart c residuals) s =
      .next ((s.modRx c fun r => { r with retraining := some 33 }).occurChan 11 c (s.addrLink c 0)) :=
  if_pos (by simpa [runs, data, idle, settled, four] using above)

theorem echoRetrainEnd_holdsOff {c : ChanId} {s : State} (runs : s.runs = true) (data : (s.chan c).stands .data = true)
    (passed : (s.chan c).rx.retraining = some 0) :
    exec (.echoRetrainEnd c) s = .next (s.modRx c fun r =>
      { r with retraining := none, holdoff := some s.clock.symbols, echo := s.taps 384 }).useFresh :=
  if_pos (by simp [runs, data, passed])

theorem echoRetrainHoldoffEnd_ends {c : ChanId} {s : State} {residual : Int} {t : Nat} (runs : s.runs = true)
    (data : (s.chan c).stands .data = true) (holds : (s.chan c).rx.holdoff = some t)
    (elapsed : t + 256 * 256 ≤ s.clock.symbols) :
    exec (.echoRetrainHoldoffEnd c residual) s = .next
      (if -500 < residual then (s.modRx c fun r => { r with holdoff := none }).enterFast c 0xF s.clock.sf
       else s.modRx c fun r => { r with holdoff := none }) := by
  simp [exec, execEchoRetrainHoldoffEnd, holds, runs, data, State.passedFrom, elapsed, apply_ite Host.Outcome.next]

/-- Settles O47: each command by what it does to a channel in DATA. That MISSED_SYNCS counts only the misses the received symbols had
not shown, and the silence from four superframes back, rests on log entry 48 (deduced); that the tolerance of an entry with reason 0xF
counts from the entry rests on log entry 89 (the model's choice). -/
theorem receiveAdaptationActs : Obligations.ReceiveAdaptationActs := by
  rintro c s x rfl runs data
  refine ⟨fun lam d armed lasts word => word ▸ codewordDecoded_takes runs data armed lasts,
    fun t armed => ?swap, fun t armed counted => ?unarmed, fun n missed slot => ?missed,
    fun power slot automatic enabled off first =>
      gainTrackingStep_steps (atBoundary_of_slot runs slot) data automatic enabled off first,
    fun symbol => ⟨antiAliasCornerChange_widens runs data (Air.at_iff.mpr symbol),
      antiAliasCornerChange_narrows runs data (Air.at_iff.mpr symbol)⟩,
    fun enabled symbol due => preEqualiserUpdate_recomputes runs data enabled (Air.at_iff.mpr symbol) due,
    fun later passed => ?window, fun residuals => echoRetrainStart_retrains runs data,
    echoRetrainEnd_holdsOff runs data, fun residual t => echoRetrainHoldoffEnd_ends runs data⟩
  case swap => rw [syncMinusS_swaps runs data, swapBegins_armed armed]
  case unarmed => rw [syncMinusS_swaps runs data, swapBegins_unarmed armed counted]
  case missed =>
    subst missed
    exact missedSyncs_entersFast (atBoundary_of_slot runs slot) data
  case window =>
    refine ⟨_, transformWindowMove_moves runs data (Air.passedHalf_iff.mpr passed), ?_⟩
    rw [modChan_chan]
    exact ⟨modChan_moveWindow c s later, rfl, fun free => by simp [Chan.moveWindow, free],
      fun aligned => by simp [Chan.moveWindow, aligned]⟩

end Sys2Proof.Machine
end

section
/-! SUPPORT. The loading of a channel in DATA (R200 to R204, R227): what a recomputation makes of the measured SNR, and each step of a
bit-swap from the request to its last resend. -/

namespace Sys2Proof.Machine

/-! ### Messages of the link management -/

/-- A delivered message of its type is taken and acted on. -/
theorem Delivered.onMessage {s t : State} {c : ChanId} {msg : Bytes} {kind : Nat} (h : Delivered s c msg kind t)
    (act : State → State) : s.onMessage c msg kind act = act t :=
  h.taken ▸ if_pos (by rw [h.runs, h.type, h.waits, beq_self_eq_true]; rfl)

/-! ### A recomputed loading (R201, R202) -/

/-- The table that a recomputation finds for the SNR measured. -/
def State.newTable (s : State) (c : ChanId) (snr : List Int) : Table :=
  loadTable ((s.chan c).dataSnr snr) (s.marginM c) (s.elem 0x030A c) (s.chan c).partner.highB

/-- The recomputation keeps what was measured, and the next measurement begins. -/
def State.keepMeasured (s : State) (c : ChanId) (snr : List Int) : State :=
  (s.restartSnr c).modChan c fun y => { y with
    rx := { y.rx with snr := (s.chan c).dataSnr snr, snrValid := true }
    load := { y.load with lastMargin := s.marginM c } }

/-- The new table is worth a request over the present one. -/
def State.swapWanted (s : State) (c : ChanId) (snr : List Int) : Bool :=
  wantsSwap (s.marginM c) (s.marginM c != (s.chan c).load.lastMargin) (s.chan c).load.rxTable (s.newTable c snr)
    ((s.chan c).dataSnr snr)

section
variable {c : ChanId} {s : State} {snr : List Int} (runs : s.runs = true) (data : (s.chan c).stands .data = true)
  (due : 256 ≤ (s.chan c).air.frames)
include runs data due

/-- A recomputation that is due leaves, asks for its table, waits with it, or only keeps what was measured. -/
theorem loadingRecompute_due : exec (.loadingRecompute c snr) s =
    if tableB (s.newTable c snr) < s.linkMinimum c then .next ((s.keepMeasured c snr).leave c .search 9)
    else if (s.chan c).load.armed.isNone && (s.chan c).load.waiting.isNone && s.swapWanted c snr then
      if tableWide (s.newTable c snr) && (s.chan c).rx.narrow then
        .next ((s.keepMeasured c snr).modChan c fun y =>
          { y with load := { y.load with waiting := some (s.newTable c snr) } })
      else .next ((s.keepMeasured c snr).requestSwap c (s.newTable c snr))
    else .next (s.keepMeasured c snr) :=
  if_pos (by simp [runs, data, due])

theorem loadingRecompute_leaves (low : tableB (s.newTable c snr) < s.linkMinimum c) :
    exec (.loadingRecompute c snr) s = .next ((s.keepMeasured c snr).leave c .search 9) := by
  rw [loadingRecompute_due runs data due, if_pos low]

theorem loadingRecompute_keeps (enough : s.linkMinimum c ≤ tableB (s.newTable c snr))
    (unasked : (s.chan c).load.armed.isSome = true ∨ (s.chan c).load.waiting.isSome = true ∨ s.swapWanted c snr = false) :
    exec (.loadingRecompute c snr) s = .next (s.keepMeasured c snr) := by
  rw [loadingRecompute_due runs data due, if_neg (Nat.not_lt.mpr enough), if_neg]
  rcases unasked with armed | waiting | unwanted
  · simp [Option.isSome_iff_ne_none.mp armed]
  · simp [Option.isSome_iff_ne_none.mp waiting]
  · simp [unwanted]

theorem loadingRecompute_requests (enough : s.linkMinimum c ≤ tableB (s.newTable c snr))
    (armed : (s.chan c).load.armed = none) (waiting : (s.chan c).load.waiting = none)
    (wanted : s.swapWanted c snr = true) :
    exec (.loadingRecompute c snr) s = .next
      (if tableWide (s.newTable c snr) = true ∧ (s.chan c).rx.narrow = true then
        (s.keepMeasured c snr).modChan c fun y =>
          { y with load := { y.load with waiting := some (s.newTable c snr) } }
       else (s.keepMeasured c snr).requestSwap c (s.newTable c snr)) := by
  rw [loadingRecompute_due runs data due, if_neg (Nat.not_lt.mpr enough), if_pos (by simp [armed, waiting, wanted]),
    apply_ite Host.Outcome.next]
  simp only [Bool.and_eq_true]

end

/-! ### A request received (R203, R204) -/

section
variable {c : ChanId} {s t : State} {msg : Bytes} (taken : Delivered s c msg 0x11 t)
  (data : (t.chan c).stands .data = true)
include taken data

theorem bitSwapRequest_repeated (again : (t.chan c).load.applied = some (byteAt msg 1)) :
    exec (.bitSwapRequest c msg) s = .next
      (t.sendLm c (swapReply (byteAt msg 1) (if (t.chan c).load.toApply.isSome then 0 else 1))) := by
  simp [exec, execBitSwapRequest, taken.onMessage, data, again]

theorem bitSwapRequest_invalid (new : (t.chan c).load.applied ≠ some (byteAt msg 1)) (invalid : readTable msg = none) :
    exec (.bitSwapRequest c msg) s = .next (t.sendLm c (swapReply (byteAt msg 1) 2)) := by
  simp [exec, execBitSwapRequest, taken.onMessage, data, new, invalid]

theorem bitSwapRequest_accepted (new : (t.chan c).load.applied ≠ some (byteAt msg 1)) {tab : Table}
    (valid : readTable msg = some tab) :
    exec (.bitSwapRequest c msg) s = .next ((t.sendLm c (swapReply (byteAt msg 1) 0)).modChan c fun y =>
      { y with load := { y.load with
        toApply := some (tab, s.clock.sf + 2), applied := some (byteAt msg 1) } }) := by
  simp [exec, execBitSwapRequest, taken.onMessage, data, new, valid]

end

/-! ### The reply, the application and the resend (R203, R204, R227) -/

theorem bitSwapReply_armed {c : ChanId} {s t : State} {msg : Bytes} (taken : Delivered s c msg 0x12 t)
    (data : (t.chan c).stands .data = true) (armed : (t.chan c).load.armed.isSome = true)
    (own : byteAt msg 1 = (t.chan c).load.ident) :
    exec (.bitSwapReply c msg) s = .next
      (if byteAt msg 2 = 0 then t.modChan c fun y => { y with load := { y.load with replied := true } }
       else if byteAt msg 2 = 1 then
        (t.modChan c fun y => { y with load := { y.load with armed := none } }).enterFast c 0xE s.clock.sf
       else t.modChan c fun y => { y with load := { y.load with armed := none } }) := by
  simp [exec, execBitSwapReply, taken.onMessage, data, armed, own]

theorem bitSwapApply_applies {c : ChanId} {s : State} {t : Table} {sf : Sf}
    (accepted : (s.chan c).load.toApply = some (t, sf)) (boundary : s.atBoundary = true)
    (data : (s.chan c).stands .data = true) (due : s.passedSf sf 0 = true) :
    exec (.bitSwapApply c) s = .next (((s.modChan c fun y =>
      { y with load := { y.load with txTable := t, toApply := none } }).modChan c Chan.sendsMinus).say (.minusS c)) := by
  simp [exec, execBitSwapApply, accepted, boundary, data, due]

theorem bitSwapResendTimeout_passed {c : ChanId} {s : State} {t : Table} (armed : (s.chan c).load.armed = some t)
    (runs : s.runs = true) (data : (s.chan c).stands .data = true)
    (elapsed : (s.chan c).load.armedSince + 256 * 64 ≤ s.clock.symbols) :
    exec (.bitSwapResendTimeout c) s = .next
      (if 4 ≤ (s.chan c).load.attempts ∧ (s.chan c).load.replied = false then
        (s.modChan c fun y => { y with load := { y.load with armed := none } }).enterFast c 0xE s.clock.sf
       else (s.sendLm c (tableMessage 0x11 (s.chan c).load.ident (s.chan c).load.sentMargin t)).modChan c fun y =>
        { y with load := { y.load with armedSince := s.clock.symbols, attempts := y.load.attempts + 1 } }) := by
  simp [exec, execBitSwapResendTimeout, armed, runs, data, State.passedFrom, elapsed, apply_ite Host.Outcome.next]

/-- Settles O48: each command by what it does to a channel in DATA. That a request repeated before its table is applied is answered
with status 0 rests on log entry 90, and that the silence tolerance of an entry to FAST with reason 0xE counts from the entry rests on
log entry 89 (both the model's choices). -/
theorem loadingAndBitSwaps : Obligations.LoadingAndBitSwaps := by
  intro c s
  refine ⟨?recompute, fun msg t taken data => ⟨bitSwapRequest_repeated taken data, fun new =>
      ⟨bitSwapRequest_invalid taken data new, fun tab => bitSwapRequest_accepted taken data new⟩⟩,
    fun msg t => bitSwapReply_armed, fun t sf => bitSwapApply_applies, fun t => bitSwapResendTimeout_passed⟩
  case recompute =>
    rintro snr v tab u runs data due rfl rfl rfl
    exact ⟨loadingRecompute_leaves runs data due, loadingRecompute_keeps runs data due,
      loadingRecompute_requests runs data due⟩

end Sys2Proof.Machine
end

section
/-! SUPPORT. The commands that leave every channel, and those that leave every channel in the link state in which it stood
(R208, R230). -/

namespace Sys2Proof.Machine

/-! ### Commands that leave every channel -/

/-- The commands of the host side, of start-up, of calibration, of the records and of the test access port: they touch no
channel. -/
def leavesChans : Instr → Bool
  | .stabilityCountDone .. | .strapResistorStepEnd .. | .portStabilityCountDone .. | .imageLoaded .. | .imageChecked
  | .coefficientsLoaded .. | .sensorReading .. | .telemetryBoundary | .sourceSwitchDone | .startupSwitchCountDone ..
  | .hckInterruption | .portClockStop .. | .portClockReturn .. | .hostTrainAttemptStart .. | .trainBlock ..
  | .linkParametersFrame .. | .trainingPhaseLimit .. | .attemptIdleEnd .. | .blockLockLost .. | .hostFrameBad ..
  | .frameNotActedOn .. | .ack .. | .nak .. | .credit .. | .retrain .. | .ackRepeat .. | .creditRepeat ..
  | .replayInterval .. | .tagHoldExpiry .. | .anchorMessage .. | .workQueueDoorbell .. | .consumedDoorbell ..
  | .itemFetch .. | .eventFrame .. | .recordWrite .. | .malformedItem .. | .faultAcknowledge .. | .calibrate ..
  | .soundCable .. | .enterDormant .. | .injectCheckInversion .. | .windowOpen .. | .windowRevoke ..
  | .revokeDrained .. | .pageReady .. | .pageReadyDrained .. | .injectionLimitExpiry .. | .receiveItem ..
  | .streamStart .. | .streamBuffer .. | .streamStop .. | .dedupEntryExpired .. | .translationAgedOut ..
  | .calNFalling | .calNRising | .calNArmed | .calibrationWaitLimit | .measurePhaseEnd .. | .flashStatusPoll ..
  | .flashBusyLimit | .storeReadbackDone .. | .soundingEnd .. | .noiseFloorMeasurementEnd .. | .tapReset .. | .idcode
  | .samplePreload .. | .startStatus | .keyRead | .keyProgram .. | .factoryRef | .dieId | .bypass ..
  | .parametersFrameInterval .. | .exitSignal .. | .warmCountDone .. | .resetRelease .. => true
  | _ => false

/-- Such a command leaves the table of channels. -/
theorem exec_keepsChans (c : Instr) (s : State) (h : leavesChans c = true) : SameChansR s (exec c s) := by
  cases c with
  | resetRelease => exact chans_execResetRelease (SameChans.refl s)
  | stabilityCountDone => exact chans_execStabilityCountDone (SameChans.refl s)
  | strapResistorStepEnd => exact chans_execStrapResistorStepEnd (SameChans.refl s)
  | portStabilityCountDone => exact chans_execPortStabilityCountDone (SameChans.refl s)
  | imageLoaded => exact chans_execImageLoaded (SameChans.refl s)
  | imageChecked => exact chans_execImageChecked (SameChans.refl s)
  | coefficientsLoaded => exact chans_execCoefficientsLoaded (SameChans.refl s)
  | sensorReading => exact chans_execSensorReading (SameChans.refl s)
  | telemetryBoundary => exact chans_execTelemetryBoundary (SameChans.refl s)
  | sourceSwitchDone => exact chans_execSourceSwitchDone (SameChans.refl s)
  | startupSwitchCountDone => exact chans_execStartupSwitchCountDone (SameChans.refl s)
  | hckInterruption => exact chans_execHckInterruption (SameChans.refl s)
  | portClockStop => exact chans_execPortClockStop (SameChans.refl s)
  | portClockReturn => exact chans_execPortClockReturn (SameChans.refl s)
  | hostTrainAttemptStart => exact chans_execHostTrainAttemptStart (SameChans.refl s)
  | trainBlock => exact chans_execTrainBlock (SameChans.refl s)
  | linkParametersFrame => exact chans_execLinkParametersFrame (SameChans.refl s)
  | trainingPhaseLimit => exact chans_execTrainingPhaseLimit (SameChans.refl s)
  | attemptIdleEnd => exact chans_execAttemptIdleEnd (SameChans.refl s)
  | blockLockLost => exact chans_execBlockLockLost (SameChans.refl s)
  | hostFrameBad => exact chans_execHostFrameBad (SameChans.refl s)
  | frameNotActedOn => exact chans_execFrameNotActedOn (SameChans.refl s)
  | ack => exact chans_execAck (SameChans.refl s)
  | nak => exact chans_execNak (SameChans.refl s)
  | credit => exact chans_execCredit (SameChans.refl s)
  | retrain => exact chans_execRetrain (SameChans.refl s)
  | ackRepeat => exact chans_execAckRepeat (SameChans.refl s)
  | creditRepeat => exact chans_execCreditRepeat (SameChans.refl s)
  | replayInterval => exact chans_execReplayInterval (SameChans.refl s)
  | tagHoldExpiry => exact chans_execTagHoldExpiry (SameChans.refl s)
  | anchorMessage => exact chans_execAnchorMessage (SameChans.refl s)
  | workQueueDoorbell => exact chans_execWorkQueueDoorbell (SameChans.refl s)
  | consumedDoorbell => exact chans_execConsumedDoorbell (SameChans.refl s)
  | itemFetch => exact chans_execItemFetch (SameChans.refl s)
  | eventFrame => exact chans_execEventFrame (SameChans.refl s)
  | recordWrite => exact chans_execRecordWrite (SameChans.refl s)
  | malformedItem => exact chans_execMalformedItem (SameChans.refl s)
  | faultAcknowledge => exact chans_execFaultAcknowledge (SameChans.refl s)
  | calibrate => exact chans_execCalibrate (SameChans.refl s)
  | soundCable => exact chans_execSoundCable (SameChans.refl s)
  | enterDormant => exact chans_execEnterDormant (SameChans.refl s)
  | injectCheckInversion => exact chans_execInjectCheckInversion (SameChans.refl s)
  | windowOpen => exact chans_execWindowOpen (SameChans.refl s)
  | windowRevoke => exact chans_execWindowRevoke (SameChans.refl s)
  | revokeDrained => exact chans_execRevokeDrained (SameChans.refl s)
  | pageReady => exact chans_execPageReady (SameChans.refl s)
  | pageReadyDrained => exact chans_execPageReadyDrained (SameChans.refl s)
  | injectionLimitExpiry => exact chans_execInjectionLimitExpiry (SameChans.refl s)
  | receiveItem => exact chans_execReceiveItem (SameChans.refl s)
  | streamStart => exact chans_execStreamStart (SameChans.refl s)
  | streamBuffer => exact chans_execStreamBuffer (SameChans.refl s)
  | streamStop => exact chans_execStreamStop (SameChans.refl s)
  | exitSignal => exact chans_execExitSignal (SameChans.refl s)
  | warmCountDone => exact chans_execWarmCountDone (SameChans.refl s)
  | translationAgedOut => exact chans_execTranslationAgedOut (SameChans.refl s)
  | dedupEntryExpired => exact chans_execDedupEntryExpired (SameChans.refl s)
  | calNFalling => exact chans_execCalNFalling (SameChans.refl s)
  | calNRising => exact chans_execCalNRising (SameChans.refl s)
  | calNArmed => exact chans_execCalNArmed (SameChans.refl s)
  | calibrationWaitLimit => exact chans_execCalibrationWaitLimit (SameChans.refl s)
  | measurePhaseEnd => exact chans_execMeasurePhaseEnd (SameChans.refl s)
  | flashStatusPoll => exact chans_execFlashStatusPoll (SameChans.refl s)
  | flashBusyLimit => exact chans_execFlashBusyLimit (SameChans.refl s)
  | storeReadbackDone => exact chans_execStoreReadbackDone (SameChans.refl s)
  | soundingEnd => exact chans_execSoundingEnd (SameChans.refl s)
  | noiseFloorMeasurementEnd => exact chans_execNoiseFloorMeasurementEnd (SameChans.refl s)
  | tapReset => exact chans_execTapReset (SameChans.refl s)
  | idcode => exact chans_execIdcode (SameChans.refl s)
  | samplePreload => exact chans_execSamplePreload (SameChans.refl s)
  | startStatus => exact chans_execStartStatus (SameChans.refl s)
  | keyRead => exact chans_execKeyRead (SameChans.refl s)
  | keyProgram => exact chans_execKeyProgram (SameChans.refl s)
  | factoryRef => exact chans_execFactoryRef (SameChans.refl s)
  | dieId => exact chans_execDieId (SameChans.refl s)
  | bypass => exact chans_execBypass (SameChans.refl s)
  | parametersFrameInterval => exact chans_execParametersFrameInterval (SameChans.refl s)
  | _ => cases h

/-! ### Commands that leave every link state -/

/-- The commands at which a channel may go from one link state to another. -/
def movesLinks : Instr → Bool
  | .resetAssert .. | .slotTick .. | .tselChange .. | .hckReturn | .faultClear .. | .channelUp .. | .channelDown ..
  | .channelSleep .. | .syncMinusS .. | .missedSyncs .. | .echoRetrainHoldoffEnd .. | .loadingRecompute ..
  | .bitSwapReply .. | .bitSwapResendTimeout .. | .capabilityFrame .. | .roleFrame .. | .assembledFrame ..
  | .holdFrame .. | .searchRoundStart .. | .countdownEnd .. | .trainPhaseEnd .. | .stateMessage ..
  | .loadingTableApply .. | .downNotice .. | .silenceToleranceExpiry .. | .f1Limit .. | .f2End .. | .f3Limit ..
  | .quietStreamsEnded .. | .refreshMissed .. | .alertDetected .. | .alertAnswerTimeout .. | .sleepNotice ..
  | .wakeFramesSent .. | .wakeAnswerLimit .. | .wakeRestoreDone .. | .falseWakeTimeout .. | .dormantLineStop
  | .dormantExitBegin | .graceTimerExpiry .. | .extest .. | .clamp | .highz | .extestPulse .. | .extestTrain .. => true
  | _ => false

theorem SameChansR.sameLinks {s : State} {r : Host.Outcome State Fault Refusal} (h : SameChansR s r) : SameLinksR s r := by
  cases r with
  | next t => exact (SameLinks.refl s).chans h
  | fault => trivial
  | refused => trivial

/-- A refresh only begins to be sent (R256). -/
theorem links_execQuietRefresh {o s : State} (h : SameLinks o s) {c : ChanId} : SameLinksR o (execQuietRefresh c s) :=
  .ite (fun _ => (links_modQuiet h).chans (chans_say (SameChans.refl _))) (fun _ => h)

/-- The commands that work on channels without being among the movers leave every link state. -/
theorem exec_keepsLinks_onChans (c : Instr) (s : State) (h : (leavesChans c || movesLinks c) = false) :
    SameLinksR s (exec c s) := by
  cases c with
  | qualityPeriodBoundary => exact links_execQualityPeriodBoundary (SameLinks.refl s)
  | backgroundTaskStart => exact links_execBackgroundTaskStart (SameLinks.refl s)
  | readCompletion => exact links_execReadCompletion (SameLinks.refl s)
  | readCompletionTimeout => exact links_execReadCompletionTimeout (SameLinks.refl s)
  | channelQuiet => exact links_execChannelQuiet (SameLinks.refl s)
  | marginOverride => exact links_execMarginOverride (SameLinks.refl s)
  | writeItem => exact links_execWriteItem (SameLinks.refl s)
  | readItem => exact links_execReadItem (SameLinks.refl s)
  | sendItem => exact links_execSendItem (SameLinks.refl s)
  | atomicItem => exact links_execAtomicItem (SameLinks.refl s)
  | flushItem => exact links_execFlushItem (SameLinks.refl s)
  | relayItem => exact links_execRelayItem (SameLinks.refl s)
  | reserveRelease => exact links_execReserveRelease (SameLinks.refl s)
  | codewordDecoded => exact links_execCodewordDecoded (SameLinks.refl s)
  | gainTrackingStep => exact links_execGainTrackingStep (SameLinks.refl s)
  | antiAliasCornerChange => exact links_execAntiAliasCornerChange (SameLinks.refl s)
  | preEqualiserUpdate => exact links_execPreEqualiserUpdate (SameLinks.refl s)
  | transformWindowMove => exact links_execTransformWindowMove (SameLinks.refl s)
  | echoRetrainStart => exact links_execEchoRetrainStart (SameLinks.refl s)
  | echoRetrainEnd => exact links_execEchoRetrainEnd (SameLinks.refl s)
  | bitSwapRequest => exact links_execBitSwapRequest (SameLinks.refl s)
  | bitSwapApply => exact links_execBitSwapApply (SameLinks.refl s)
  | startFrame => exact links_execStartFrame (SameLinks.refl s)
  | exchangeTimeout => exact links_execExchangeTimeout (SameLinks.refl s)
  | assemblyTimeout => exact links_execAssemblyTimeout (SameLinks.refl s)
  | loadingTable => exact links_execLoadingTable (SameLinks.refl s)
  | train5Limit => exact links_execTrain5Limit (SameLinks.refl s)
  | f1Acquired => exact links_execF1Acquired (SameLinks.refl s)
  | quietIdleTimeout => exact links_execQuietIdleTimeout (SameLinks.refl s)
  | quietRequest => exact links_execQuietRequest (SameLinks.refl s)
  | quietReply => exact links_execQuietReply (SameLinks.refl s)
  | quietReplyTimeout => exact links_execQuietReplyTimeout (SameLinks.refl s)
  | quietWorkPending => exact links_execQuietWorkPending (SameLinks.refl s)
  | wakeFrameDecoded => exact links_execWakeFrameDecoded (SameLinks.refl s)
  | dormantEntryAfterStore => exact links_execDormantEntryAfterStore (SameLinks.refl s)
  | restart => exact links_execRestart (SameLinks.refl s)
  | resume => exact links_execResume (SameLinks.refl s)
  | discardNotice => exact links_execDiscardNotice (SameLinks.refl s)
  | pad => exact links_execPad (SameLinks.refl s)
  | retransmitTimeout => exact links_execRetransmitTimeout (SameLinks.refl s)
  | retryBudgetExpiry => exact links_execRetryBudgetExpiry (SameLinks.refl s)
  | headerCheckFailed => exact links_execHeaderCheckFailed (SameLinks.refl s)
  | writePacket => exact links_execWritePacket (SameLinks.refl s)
  | readRequest => exact links_execReadRequest (SameLinks.refl s)
  | readResponse => exact links_execReadResponse (SameLinks.refl s)
  | messagePacket => exact links_execMessagePacket (SameLinks.refl s)
  | atomicRequest => exact links_execAtomicRequest (SameLinks.refl s)
  | atomicResponse => exact links_execAtomicResponse (SameLinks.refl s)
  | flushRequest => exact links_execFlushRequest (SameLinks.refl s)
  | flushResponse => exact links_execFlushResponse (SameLinks.refl s)
  | statusPacket => exact links_execStatusPacket (SameLinks.refl s)
  | stallLimitExpiry => exact links_execStallLimitExpiry (SameLinks.refl s)
  | resendBackoffExpiry => exact links_execResendBackoffExpiry (SameLinks.refl s)
  | responseLimitExpiry => exact links_execResponseLimitExpiry (SameLinks.refl s)
  | streamSlotDue => exact links_execStreamSlotDue (SameLinks.refl s)
  | streamSignal => exact links_execStreamSignal (SameLinks.refl s)
  | alignRow => exact links_execAlignRow (SameLinks.refl s)
  | quietRefresh => exact links_execQuietRefresh (SameLinks.refl s)
  | _ => cases h

/-- A command that is not among the movers, whether it works on channels or leaves them all, leaves every link state. -/
theorem exec_keepsLinks (c : Instr) (s : State) (h : movesLinks c = false) : SameLinksR s (exec c s) := by
  by_cases k : leavesChans c = true
  · exact (exec_keepsChans c s k).sameLinks
  · exact exec_keepsLinks_onChans c s (by simp [k, h])

/-- Settles O13: every command that the statement does not name is no mover, and leaves each link state by `exec_keepsLinks`. -/
theorem linkStateMovers : Obligations.LinkStateMovers := by
  intro c s t d e h
  have kept : SameLinksR s (exec c s) := exec_keepsLinks c s h
  rw [e] at kept
  exact kept.link d

end Sys2Proof.Machine
end

section
/-! SUPPORT. The search and the exchange (R210 to R220): what each call frame does to a channel that hears it, and how the rounds, the
timeouts and the countdown of a bring-up end. -/

namespace Sys2Proof.Machine

/-! ### Call frames -/

section
variable {c : ChanId} {s : State} {carrier : Nat} {frame : BitVec 128} (runs : s.runs = true)
  (hears : s.hears c carrier = true)
include runs hears

theorem capabilityFrame_taken (kind : callAccepted 1 frame = true) (search : (s.chan c).stands .search = true)
    (decodes : (s.chan c).bring.caller = true ∨ (s.chan c).bring.calling = true) {t : State}
    (noted : t = s.modChan c fun y => { y with partner := y.partner.ofCapability (callPayload frame) }) :
    exec (.capabilityFrame c carrier frame) s = .next (match s.refuses (callPayload frame) with
      | some reason => t.refuseBringup c reason
      | none => t.enterExchange c) := by
  subst noted
  have taken : exec (.capabilityFrame c carrier frame) s = _ := if_pos (by simpa [runs, hears, kind, search] using decodes)
  rw [taken]
  cases s.refuses (callPayload frame) <;> rfl

theorem roleFrame_taken (kind : callAccepted 2 frame = true) (exchange : (s.chan c).stands .exchange = true)
    (cap : (s.chan c).bring.capSeen = true) (first : (s.chan c).bring.roleSeen = false) {t : State}
    (noted : t = s.modChan c fun y => { y with partner := y.partner.ofRole (callPayload frame) }) :
    exec (.roleFrame c carrier frame) s = .next
      (if bits (callPayload frame) 7 0 ≠ 1 then t.refuseBringup c 7
       else if (s.chan c).bring.caller then
        (t.modBring c fun b => { b with roleSeen := true, lastProgress := s.clock.sf }).afterRoles c
       else t.modBring c fun b => { b with roleSeen := true, lastProgress := s.clock.sf }) := by
  subst noted
  simp only [apply_ite Host.Outcome.next, ← bne_iff_ne]
  exact if_pos (by simp [runs, hears, kind, exchange, cap, first])

theorem startFrame_setsCountdown (kind : callAccepted 3 frame = true) (answers : (s.chan c).bring.caller = false)
    (first : (s.chan c).bring.countdown = none)
    (ready : (s.chan c).stands .exchange = true ∧ (s.chan c).bring.roleSeen = true ∨ (s.chan c).stands .assemble = true) :
    exec (.startFrame c carrier frame) s = .next (s.modBring c fun y => { y with
      countdown := some ((s.chan c).link == .assemble && s.pairOffset c == 0 && !(s.chan c).bring.lastHold,
        s.clock.sf + BitVec.ofNat 48 (8 * (callPayload frame % 4)))
      lastProgress := s.clock.sf }) :=
  if_pos (by simpa [runs, hears, kind, answers, first] using ready)

theorem assembledFrame_entersAssemble (kind : callAccepted 4 frame = true) (may : s.mayAssemble c = true) :
    exec (.assembledFrame c carrier frame) s = .next ((s.enterAssemble c false).modBring c
      fun b => { b with assembledFar := callPayload frame % 2 == 1 }) := by
  simp [exec, execAssembledFrame, runs, hears, kind, may]

theorem holdFrame_entersAssemble (kind : callAccepted 5 frame = true) (may : s.mayAssemble c = true) :
    exec (.holdFrame c carrier frame) s = .next (s.enterAssemble c true) := by
  simp [exec, execHoldFrame, runs, hears, kind, may]

section
variable (assemble : (s.chan c).stands .assemble = true) (waits : (s.chan c).bring.countdown = none)
  (entered : s.mayAssemble c = false)
include assemble waits entered

theorem assembledFrame_noted (kind : callAccepted 4 frame = true) :
    exec (.assembledFrame c carrier frame) s = .next (s.takeAssembled c (callPayload frame % 2 == 1)) := by
  simp [exec, execAssembledFrame, runs, hears, kind, entered, assemble, waits]

theorem holdFrame_noted (kind : callAccepted 5 frame = true) :
    exec (.holdFrame c carrier frame) s =
      .next (s.modBring c fun b => { b with lastHold := true, lastProgress := s.clock.sf }) := by
  simp [exec, execHoldFrame, runs, hears, kind, entered, assemble, waits]

end
end

/-! ### Rounds, timeouts and the countdown's end -/

section
variable {c : ChanId} {s : State}

theorem searchRoundStart_entersSearch {energy appeared : Bool} {reason : BitVec 8} (boundary : s.atBoundary = true)
    (epoch : s.clock.sf.toNat % 162 = 0) (held : (s.chan c).bring.toSearch = some reason) :
    exec (.searchRoundStart c energy appeared) s = .next (s.enterSearch c reason.toNat energy) := by
  simp [exec, execSearchRoundStart, boundary, epoch, held]

theorem searchRoundStart_inSearch {energy appeared : Bool} (boundary : s.atBoundary = true)
    (epoch : s.clock.sf.toNat % 162 = 0) (search : (s.chan c).stands .search = true) :
    exec (.searchRoundStart c energy appeared) s = .next (s.epoch c energy appeared) := by
  obtain ⟨link, staying⟩ : (s.chan c).link = .search ∧ (s.chan c).bring.toSearch = none := by
    simpa [Chan.stands] using search
  simp [exec, execSearchRoundStart, boundary, epoch, staying, link]

/-- A listener that meets new energy begins anew without a step, and so does, with one, a round of two epochs. -/
theorem epoch_eq (energy appeared : Bool) : s.epoch c energy appeared =
    if (s.chan c).bring.caller = false ∧ (s.chan c).bring.calling = false ∧ (energy = true ∨ appeared = true) then
      s.newRound c false energy
    else if 324 ≤ s.since (s.chan c).bring.roundStart then s.newRound c true energy
    else s.modBring c fun x => { x with calling := energy && !x.caller } := by
  unfold State.epoch
  refine ite_congr (propext ?_) (fun _ => rfl) fun _ => rfl
  simp only [Bool.and_eq_true, Bool.or_eq_true, Bool.not_eq_true']
  exact ⟨fun ⟨⟨listens, new⟩, quiet⟩ => ⟨listens, quiet, new⟩, fun ⟨listens, quiet, new⟩ => ⟨⟨listens, new⟩, quiet⟩⟩

theorem exchangeTimeout_refuses (stands : (s.chan c).stands .exchange = true ∨ (s.chan c).stands .assemble = true)
    (runs : s.runs = true) (waits : (s.chan c).bring.countdown = none)
    (passed : s.passedSf (s.chan c).bring.lastProgress 64 = true) :
    exec (.exchangeTimeout c) s = .next (s.refuseBringup c 5) :=
  if_pos (by simpa [runs, waits, passed] using stands)

theorem assemblyTimeout_countsDown (assemble : (s.chan c).stands .assemble = true) (runs : s.runs = true)
    (caller : (s.chan c).bring.caller = true) (waits : (s.chan c).bring.countdown = none)
    (passed : s.passedSf (s.chan c).bring.roundStart 1296 = true) :
    exec (.assemblyTimeout c) s = .next (s.beginCountdown c false (if s.pairOffset c = 0 then 8 else 4)) :=
  if_pos (by simp [runs, assemble, caller, waits, passed])

theorem countdownEnd_trains {forming : Bool} {last : Sf} (counts : (s.chan c).bring.countdown = some (forming, last))
    (boundary : s.atBoundary = true) (stands : (s.chan c).stands .exchange = true ∨ (s.chan c).stands .assemble = true)
    (passed : s.passedSf last 1 = true) :
    exec (.countdownEnd c) s = .next
      (if forming then eachChan State.formMember (s.members c) s else s.trainAlone c) := by
  simp [exec, execCountdownEnd, counts, boundary, stands, passed, apply_ite Host.Outcome.next]

end

/-- Settles O49: the call frames by what each does to a channel that hears it, the rounds by `epoch_eq`, the timeouts and the countdown
by their gates. That an assembled frame takes the answerer into ASSEMBLE rests on log entry 40 (deduced: R216 names a hold frame),
and TRAIN1 at the very boundary where the countdown ends on log entry 88 (the model's choice). -/
theorem searchAndExchange : Obligations.SearchAndExchange := by
  intro c s
  refine ⟨fun carrier frame runs hears =>
      ⟨fun kind search decodes t => capabilityFrame_taken runs hears kind search decodes,
        fun kind exchange cap first t => roleFrame_taken runs hears kind exchange cap first,
        startFrame_setsCountdown runs hears,
        fun assemble waits entered => ⟨assembledFrame_noted runs hears assemble waits entered,
          holdFrame_noted runs hears assemble waits entered⟩,
        fun may => ⟨fun kind => assembledFrame_entersAssemble runs hears kind may,
          fun kind => holdFrame_entersAssemble runs hears kind may⟩⟩,
    fun energy appeared boundary epoch =>
      ⟨fun reason => searchRoundStart_entersSearch boundary epoch, fun search => ?round⟩,
    exchangeTimeout_refuses, assemblyTimeout_countsDown, fun forming last => countdownEnd_trains⟩
  case round => rw [searchRoundStart_inSearch boundary epoch search, epoch_eq]

end Sys2Proof.Machine
end

section
/-! SUPPORT. The training of a channel (R222, R223, R226, R230): how each phase follows the one before, and what the messages of the
loading exchange, its limit and a down notice do. -/

namespace Sys2Proof.Machine

/-! ### The phases of training -/

/-- A channel stands in link state `l`, its phase begun in the present superframe of `s`, and no other channel has changed
its link state. -/
structure PhaseBegun (s : State) (c : ChanId) (l : LinkState) (t : State) : Prop where
  others : ∀ d, d ≠ c → (t.chan d).link = (s.chan d).link
  start : (t.chan c).train.phaseStart = s.clock.sf
  link : (t.chan c).link = l

namespace PhaseBegun
variable {s t u : State} {c : ChanId} {l : LinkState} (h : PhaseBegun s c l t)
include h

theorem modChan {f : Chan → Chan} (start : ∀ x, (f x).train.phaseStart = x.train.phaseStart := by exact fun _ => rfl)
    (link : ∀ x, (f x).link = x.link := by exact fun _ => rfl) : PhaseBegun s c l (t.modChan c f) where
  others d other := by rw [modChan_chan_ne _ _ _ _ other, h.others d other]
  start := by rw [modChan_chan, start, h.start]
  link := by rw [modChan_chan, link, h.link]

theorem chans (k : SameChans t u) : PhaseBegun s c l u where
  others d other := by rw [k.chan, h.others d other]
  start := by rw [k.chan, h.start]
  link := by rw [k.chan, h.link]

theorem modRetry {f : Retry → Retry} : PhaseBegun s c l (t.modRetry c f) :=
  h.modChan

theorem modTrain {f : Train → Train} (start : ∀ x, (f x).phaseStart = x.phaseStart := by exact fun _ => rfl) :
    PhaseBegun s c l (t.modTrain c f) :=
  h.modChan fun _ => start _

theorem restartSnr : PhaseBegun s c l (t.restartSnr c) :=
  h.modChan

theorem sayState : PhaseBegun s c l (t.sayState c) :=
  h.modRetry.modTrain

theorem sayTable : PhaseBegun s c l (t.sayTable c) := by
  unfold State.sayTable
  split
  · exact h.modRetry.modTrain
  · exact h

theorem startStream : PhaseBegun s c l (t.startStream c) :=
  (h.modRetry.modChan.chans (chans_say (SameChans.refl _))).sayState

theorem failTraining {reason : Nat} : PhaseBegun s c l (t.failTraining c reason) := by
  unfold State.failTraining State.leaveNoticed
  dsimp only
  split
  · exact h
  · exact h.modRetry.modChan

theorem startLoading {snr : List Int} : PhaseBegun s c l (t.startLoading c snr) := by
  unfold State.startLoading
  dsimp only
  split
  · exact h.modChan.failTraining
  · exact h.modChan.sayTable

end PhaseBegun

/-- What the end of a phase sets before the next one begins: neither a link state nor the time base moves. -/
structure PhasePrepared (s u : State) : Prop where
  links : SameLinks s u
  sf : u.clock.sf = s.clock.sf

namespace PhasePrepared
variable {s u : State} {c : ChanId}

theorem refl (s : State) : PhasePrepared s s :=
  ⟨SameLinks.refl s, rfl⟩

theorem modChan (h : PhasePrepared s u) {f : Chan → Chan} (link : ∀ x, (f x).link = x.link := by exact fun _ => rfl) :
    PhasePrepared s (u.modChan c f) :=
  ⟨links_modChan h.links link, h.sf⟩

theorem setEcho (h : PhasePrepared s u) : PhasePrepared s (u.setEcho c) :=
  ⟨links_setEcho h.links, h.sf⟩

theorem setPreEq (h : PhasePrepared s u) : PhasePrepared s (u.setPreEq c) :=
  ⟨links_setPreEq h.links, h.sf⟩

theorem setMatrix (h : PhasePrepared s u) : PhasePrepared s (u.setMatrix c) :=
  ⟨links_setMatrix h.links, h.sf⟩

theorem ite {p : Prop} [Decidable p] {a b : State} (h : PhasePrepared s a) (k : PhasePrepared s b) :
    PhasePrepared s (if p then a else b) := by
  split <;> assumption

theorem nextPhase (h : PhasePrepared s u) (l : LinkState) : PhaseBegun s c l (u.nextPhase c l) where
  others d other := by
    rw [State.nextPhase, State.modTrain, modChan_chan_ne _ _ _ _ other, move_link, if_neg other, h.links.link]
  start := by rw [State.nextPhase, State.modTrain, modChan_chan, h.sf]
  link := by rw [State.nextPhase, State.modTrain, modChan_chan, move_link, if_pos rfl]

/-- The second half of TRAIN1 begins: the link state stays. -/
theorem secondHalf (h : PhasePrepared s u) : PhaseBegun s c (s.chan c).link
    (u.modTrain c fun t => { t with secondHalf := true, phaseStart := s.clock.sf }) where
  others d other := by rw [State.modTrain, modChan_chan_ne _ _ _ _ other, h.links.link]
  start := by rw [State.modTrain, modChan_chan]
  link := by rw [State.modTrain, modChan_chan, h.links.link]

end PhasePrepared

/-- The link state that follows when a phase of training, or a half of TRAIN1, has lasted its length (Table 10.6). -/
def Chan.afterPhase (x : Chan) : LinkState :=
  match x.link with
  | .train1 => if x.train.secondHalf then .train2 else .train1
  | .train2 => .train3
  | .train3 => .train4
  | _ => .train5

/-- A command that ends a phase answers a state in which the next has begun. -/
def EndsPhase (s : State) (c : ChanId) (r : Host.Outcome State Fault Refusal) : Prop :=
  ∃ t, r = .next t ∧ PhaseBegun s c (s.chan c).afterPhase t

theorem EndsPhase.next {s t : State} {c : ChanId} {l : LinkState} (h : PhaseBegun s c l t)
    (after : (s.chan c).afterPhase = l) : EndsPhase s c (.next t) :=
  ⟨t, rfl, after ▸ h⟩

/-- A phase that has lasted its length is followed by the next. -/
theorem trainPhaseEnd_endsPhase {c : ChanId} {s : State} {m : TrainMeasured} {n : Nat}
    (length : phaseLength (s.chan c).link = some n) (boundary : s.atBoundary = true)
    (staying : (s.chan c).bring.toSearch = none) (passed : s.passedSf (s.chan c).train.phaseStart n = true) :
    EndsPhase s c (exec (.trainPhaseEnd c m) s) := by
  show EndsPhase s c (execTrainPhaseEnd c m s)
  unfold execTrainPhaseEnd
  extract_lets x acquire s1 own echoed measured next
  have prepared : PhasePrepared s s1 := .ite (.modChan (.refl s)) (.refl s)
  simp only [x, length, boundary, staying, passed, Option.isNone_none, Bool.and_self, if_true]
  cases link : (s.chan c).link with
  | train1 =>
    have prepared : PhasePrepared s echoed := .ite prepared.setEcho prepared
    dsimp only
    split
    · next later => exact .next (prepared.nextPhase .train2) (by simp [Chan.afterPhase, link, later])
    · next later => exact .next prepared.secondHalf (by simp [Chan.afterPhase, link, later])
  | train2 =>
    have begun : PhaseBegun s c .train3 next := prepared.modChan.setPreEq.nextPhase .train3
    refine .next (l := .train3) ?_ (by simp [Chan.afterPhase, link])
    split
    · exact begun
    · exact begun.chans (chans_linkRecord (SameChans.refl _))
  | train3 => exact .next (prepared.setMatrix.nextPhase .train4).restartSnr (by simp [Chan.afterPhase, link])
  | train4 =>
    exact .next (prepared.nextPhase .train5).startStream.startLoading (by simp [Chan.afterPhase, link])
  | _ => simp [phaseLength, link] at length

/-! ### The loading exchange, its limit, and a down notice (R226, R230) -/

/-- A channel stands in one link state. -/
theorem Chan.stands_ne {x : Chan} {l k : LinkState} (h : x.stands l = true) (other : l ≠ k) : x.stands k = false := by
  obtain ⟨link, -⟩ : x.link = l ∧ x.bring.toSearch = none := by simpa [Chan.stands] using h
  simp [Chan.stands, link, other]

section
variable {c : ChanId} {s t : State} {msg : Bytes}

section
variable (taken : Delivered s c msg 0x10 t) (train5 : (t.chan c).stands .train5 = true)
  (pending : (t.chan c).load.toApply = none) (unsent : (t.chan c).train.txMinus = false)
include taken train5 pending unsent

theorem loadingTable_accepted {tab : Table} (status : byteAt msg 1 = 0) (valid : readTable msg = some tab) :
    exec (.loadingTable c msg) s = .next ((t.modChan c fun y => { y with
      load := { y.load with txTable := tab }
      train := { y.train with
        accepted := true, invalid := false
        acceptedB := tableB tab
        acceptedCheck := messageCheck msg } }).sayState c) := by
  simp [exec, execLoadingTable, taken.onMessage, train5, pending, unsent, status, valid]

theorem loadingTable_invalid (bad : byteAt msg 1 ≠ 0 ∨ readTable msg = none) :
    exec (.loadingTable c msg) s =
      .next ((t.modTrain c fun y => { y with accepted := false, invalid := true }).sayState c) := by
  have untaken : (if byteAt msg 1 = 0 then readTable msg else none) = none := by
    rcases bad with status | invalid
    · exact if_neg status
    · rw [invalid, ite_self]
  simp only [exec, execLoadingTable, taken.onMessage, train5, pending, unsent, untaken, Option.isNone_none, Bool.not_false,
    Bool.and_self, if_true]

end

theorem stateMessage_inTrain5 (taken : Delivered s c msg 0x20 t) (train5 : (t.chan c).stands .train5 = true) :
    exec (.stateMessage c msg) s = .next (t.stateInTrain5 c msg) := by
  simp [exec, execStateMessage, taken.onMessage, train5]

theorem stateMessage_inF3 (taken : Delivered s c msg 0x20 t) (fast : (t.chan c).stands .fast = true)
    (f3 : (t.chan c).train.fast = .f3) (unconfirmed : (t.chan c).train.confirmed = false) :
    exec (.stateMessage c msg) s = .next (t.stateInF3 c msg) := by
  simp [exec, execStateMessage, taken.onMessage, Chan.stands_ne fast (k := .train5) (by decide), fast, f3, unconfirmed]

theorem loadingTableApply_applies {tab : Table} {sf : Sf} (confirmed : (s.chan c).load.toApply = some (tab, sf))
    (boundary : s.atBoundary = true) (trains : (s.chan c).trains = true) (unsent : (s.chan c).train.txMinus = false)
    (due : s.passedSf sf 0 = true) :
    exec (.loadingTableApply c) s = .next ((((s.modChan c fun y => { y with
      load := { y.load with txTable := tab, toApply := none }
      train := { y.train with txMinus := true }
      retry := y.retry.beginTx (s.seedOffset c) (y.link == .fast) }).modChan c Chan.sendsMinus).say (.minusS c)).checkData c) := by
  simp [exec, execLoadingTableApply, confirmed, boundary, trains, unsent, due]

theorem train5Limit_fails (runs : s.runs = true) (train5 : (s.chan c).stands .train5 = true)
    (passed : s.passedSf (s.chan c).train.phaseStart 1024 = true) :
    exec (.train5Limit c) s = .next (s.failTraining c 8) :=
  if_pos (by simp [runs, train5, passed])

/-- A down notice is acted on where a codeword stream can bring one. -/
theorem downNotice_arrives (taken : Delivered s c msg 0x21 t)
    (streams : (t.chan c).stands .data = true ∨ (t.chan c).stands .quiet = true ∨ (t.chan c).stands .fast = true ∨
      (t.chan c).stands .train5 = true) :
    exec (.downNotice c msg) s = .next (match (t.chan c).bring.leaving with
      | some (target, why, _) => t.arrive c target why
      | none => t.arrive c .search 0xB) := by
  have brings : ((t.chan c).stands .data || (t.chan c).stands .quiet || (t.chan c).stands .fast ||
      (t.chan c).stands .train5) = true := by simpa [or_assoc] using streams
  exact congrArg Host.Outcome.next ((taken.onMessage _).trans (if_pos brings))

end

/-- Settles O50: the phases by `trainPhaseEnd_endsPhase`, each other command by what it does to a channel in training or in FAST. That a
down notice takes a channel that was itself leaving to the state it was leaving for rests on log entry 47 (deduced): R230 and
Table 10.8 say SEARCH with reason 0xB. -/
theorem trainingAdvances : Obligations.TrainingAdvances := by
  intro c s
  refine ⟨fun m n length boundary staying passed => ?phase, fun msg t taken train5 pending unsent => ⟨fun tab =>
      loadingTable_accepted taken train5 pending unsent, loadingTable_invalid taken train5 pending unsent⟩,
    fun msg t taken => ⟨stateMessage_inTrain5 taken, stateMessage_inF3 taken⟩,
    fun t sf => loadingTableApply_applies, train5Limit_fails, fun msg t => downNotice_arrives⟩
  case phase =>
    obtain ⟨t, e, others, start, link⟩ := trainPhaseEnd_endsPhase (m := m) length boundary staying passed
    exact ⟨t, e, others, start, link⟩

end Sys2Proof.Machine
end

section
/-! SUPPORT. Fast retrain (R229, R232): how F1 and F2 end, and where the limits of silence, F1 and F3 lead. -/

namespace Sys2Proof.Machine

section
variable {c : ChanId} {s : State} (fast : (s.chan c).stands .fast = true)
include fast

theorem f1Acquired_beginsF2 (f1 : (s.chan c).train.fast = .f1) (boundary : s.atBoundary = true)
    (passed : s.passedSf (s.chan c).train.phaseStart 16 = true) :
    exec (.f1Acquired c) s = .next ((s.modTrain c fun t => { t with
      fast := .f2, phaseStart := s.clock.sf, silentSince := none, answer := none }).restartSnr c) :=
  if_pos (by simp [boundary, fast, f1, passed])

theorem f1Limit_searches (f1 : (s.chan c).train.fast = .f1) (runs : s.runs = true)
    (passed : s.passedSf (s.chan c).train.phaseStart 48 = true) :
    exec (.f1Limit c) s = .next (s.arrive c .search 0xC) :=
  if_pos (by simp [runs, fast, f1, passed])

theorem silenceToleranceExpiry_searches {t : Sf} (f1 : (s.chan c).train.fast = .f1) (runs : s.runs = true)
    (silent : (s.chan c).train.silentSince = some t) (passed : s.passedSf t (s.elem 0x030B c) = true) :
    exec (.silenceToleranceExpiry c) s = .next (s.arrive c .search 4) := by
  simp [exec, execSilenceToleranceExpiry, silent, runs, fast, f1, passed]

theorem f2End_decides {snr : List Int} (f2 : (s.chan c).train.fast = .f2) (boundary : s.atBoundary = true)
    (passed : s.passedSf (s.chan c).train.phaseStart 16 = true) :
    exec (.f2End c snr) s = .next
      (if 8 < lowMargins (s.marginM c) (s.chan c).load.rxTable ((s.chan c).trainedSnr snr) then s.arrive c .search 0xC
       else s.startF3 c) := by
  rw [apply_ite Host.Outcome.next]
  exact if_pos (by simp [boundary, fast, f2, passed])

theorem f3Limit_leaves (f3 : (s.chan c).train.fast = .f3) (runs : s.runs = true)
    (passed : s.passedSf (s.chan c).train.phaseStart 64 = true) :
    exec (.f3Limit c) s = .next (s.leave c .search 0xC) :=
  if_pos (by simp [runs, fast, f3, passed])

end

/-- Settles O51: each command by what it does to a channel in its step of FAST. That F1_LIMIT acts at 48 superframes of F1 with no
premise on the partner's signal rests on log entry 51 (the model's choice). -/
theorem fastRetrainAdvances : Obligations.FastRetrainAdvances :=
  fun _ _ fast =>
    ⟨fun f1 => ⟨f1Acquired_beginsF2 fast f1, f1Limit_searches fast f1, fun _ => silenceToleranceExpiry_searches fast f1⟩,
      fun _ => f2End_decides fast, f3Limit_leaves fast⟩

end Sys2Proof.Machine
end

section
/-! SUPPORT. Quiet (R254 to R260): the exchange that ends both streams, the refreshes, and the alerts that lead out of it. -/

namespace Sys2Proof.Machine

/-! ### The entry exchange (R254, R255) -/

section
variable {c : ChanId} {s : State} (runs : s.runs = true) (data : (s.chan c).stands .data = true)
include runs data

theorem quietIdleTimeout_requests (mode : (s.chan c).quiet.mode = true) (unasked : (s.chan c).quiet.requested = none)
    (going : (s.chan c).quiet.ending = false) (streams : (s.chan c).quiet.txEnded = false) (idle : s.idleEnd c = true)
    (elapsed : (s.chan c).quiet.idleSince + 256 * s.elem 0x0600 c ≤ s.clock.symbols) :
    exec (.quietIdleTimeout c) s =
      .next ((s.sendLm c quietRequest).modQuiet c fun q => { q with requested := some s.clock.symbols }) :=
  if_pos (by simp [runs, data, mode, unasked, going, streams, idle, State.passedFrom, elapsed])

theorem quietReplyTimeout_idlesAgain {t : Nat} (requested : (s.chan c).quiet.requested = some t)
    (going : (s.chan c).quiet.ending = false) (streams : (s.chan c).quiet.txEnded = false)
    (elapsed : t + 256 * 64 ≤ s.clock.symbols) :
    exec (.quietReplyTimeout c) s =
      .next (s.modQuiet c fun q => { q with requested := none, idleSince := s.clock.symbols }) := by
  simp [exec, execQuietReplyTimeout, requested, runs, data, going, streams, State.passedFrom, elapsed]

theorem quietStreamsEnded_entersQuiet (ended : (s.chan c).quiet.txEnded = true) (unalerted : (s.chan c).quiet.alert = none) :
    exec (.quietStreamsEnded c) s = .next ((s.move c .quiet 0x23).modChan c fun y => { y with
      quiet := { y.quiet with seenEnd := if (s.chan c).quiet.rxEnded then none else some s.clock.symbols }
      air := { y.air.dropRest with noise := NoiseSum.reset } }) :=
  if_pos (by simp [runs, data, ended, unalerted])

end

section
variable {c : ChanId} {s t : State} {msg : Bytes}

theorem quietRequest_answered (taken : Delivered s c msg 0x30 t) (data : (t.chan c).stands .data = true)
    (legal : field msg 1 1 ≤ 80) :
    exec (.quietRequest c msg) s = .next
      (if t.idleEnd c ∧ (t.chan c).quiet.ending = false ∧ (t.chan c).quiet.requested = none then
        (t.sendLm c (quietReply 0)).modQuiet c fun q =>
          { q with ending := true, phase := (t.chan c).retry.phaseOf (field msg 1 1) }
       else t.sendLm c (quietReply 1)) := by
  simp [exec, execQuietRequest, taken.onMessage, data, legal, and_assoc]

theorem quietReply_awaited (taken : Delivered s c msg 0x31 t) (data : (t.chan c).stands .data = true)
    (requested : (t.chan c).quiet.requested.isSome = true) (going : (t.chan c).quiet.ending = false)
    (legal : field msg 1 1 ≤ 80) :
    exec (.quietReply c msg) s = .next
      (if byteAt msg 2 = 0 then t.modChan c fun y => { y with
        quiet := { y.quiet with ending := true, rxEnded := true, phase := y.retry.phaseOf (field msg 1 1) }
        air := { y.air with soft := [], used := 0 } }
       else t.modQuiet c fun q => { q with requested := none, idleSince := s.clock.symbols }) := by
  simp [exec, execQuietReply, taken.onMessage, data, requested, going, legal]

end

/-! ### Refreshes (R256, R257) -/

section
variable {c : ChanId} {s : State} (quiet : (s.chan c).stands .quiet = true)
include quiet

theorem quietRefresh_begins (boundary : s.atBoundary = true) (ended : (s.chan c).quiet.txEnded = true)
    (unalerted : (s.chan c).quiet.alert = none) (due : s.clock.sf.toNat % 81 = 0) :
    exec (.quietRefresh c) s = .next ((s.modQuiet c fun q => { q with refreshing := true }).say (.refresh c)) :=
  if_pos (by simp [boundary, quiet, ended, unalerted, due])

theorem refreshMissed_entersFast (runs : s.runs = true) :
    exec (.refreshMissed c) s = .next ((s.countMissed c 2).enterFast c 0x25 (s.clock.sf - 81)) :=
  if_pos (by simp [runs, quiet])

end

/-! ### Alerts (R258 to R260) -/

theorem Chan.suspended_iff {x : Chan} (stands : x.stands .quiet = true ∨ x.stands .data = true) :
    x.suspended = true ↔ x.quiet.txEnded = true ∧ x.quiet.alert = none := by
  simp [Chan.suspended, stands]

section
variable {c : ChanId} {s : State} (runs : s.runs = true)
  (stands : (s.chan c).stands .quiet = true ∨ (s.chan c).stands .data = true)
include runs stands

theorem alertAnswerTimeout_entersFast {n : Nat} (alert : (s.chan c).quiet.alert = some n)
    (unheard : (s.chan c).quiet.heard = none) (passed : 73 ≤ n) :
    exec (.alertAnswerTimeout c) s = .next (s.enterFast c 0x25 s.clock.sf) := by
  simp [exec, execAlertAnswerTimeout, alert, runs, stands, unheard, passed]

theorem quietWorkPending_alerts (ended : (s.chan c).quiet.txEnded = true) (unalerted : (s.chan c).quiet.alert = none)
    (work : s.hasWork c = true) : exec (.quietWorkPending c) s = .next (s.beginAlert c) :=
  if_pos (by simp [runs, (Chan.suspended_iff stands).mpr ⟨ended, unalerted⟩, work])

/-- The partner's alert is noted, and a suspended end begins its own. -/
theorem alertDetected_noted (unheard : (s.chan c).quiet.heard = none)
    (awaited : (s.chan c).quiet.rxEnded = true ∨ (s.chan c).quiet.alert.isSome = true ∨ (s.chan c).quiet.txEnded = true)
    {noted : State} (hears : noted = s.modQuiet c fun q => { q with heard := some 2 }) :
    exec (.alertDetected c) s =
      .next (if (s.chan c).quiet.txEnded = true ∧ (s.chan c).quiet.alert = none then noted.beginAlert c else noted) := by
  subst hears
  have acts : exec (.alertDetected c) s = _ := if_pos (by simpa [runs, unheard, or_assoc] using ⟨stands, awaited⟩)
  have suspended : ((s.modQuiet c fun q => { q with heard := some 2 }).chan c).suspended = (s.chan c).suspended := by
    rw [State.modQuiet, modChan_chan]
    rfl
  rw [acts]
  simp only [suspended, Chan.suspended_iff stands, apply_ite Host.Outcome.next]

end

/-- Settles O52: each command by what it does to a channel in DATA or in QUIET. Three clauses rest on deductions of the log: that
the missed refreshes count only where the received symbols had not shown them on entry 48, that a suspended end in DATA answers the
partner's alert on entry 56, and that the wait for the answer goes on in DATA on entry 91. -/
theorem quietIsEnteredAndLeft : Obligations.QuietIsEnteredAndLeft := by
  intro c s
  refine ⟨fun runs data => ⟨quietIdleTimeout_requests runs data, fun t => quietReplyTimeout_idlesAgain runs data,
      fun ended unalerted => ⟨_, quietStreamsEnded_entersQuiet runs data ended unalerted, rfl, fun d => ?links, ?seen⟩⟩,
    fun msg t => quietRequest_answered, fun msg t => quietReply_awaited,
    fun runs quiet => ⟨fun slot ended unalerted => quietRefresh_begins quiet (atBoundary_of_slot runs slot) ended unalerted,
      fun n missed => missed ▸ refreshMissed_entersFast quiet runs⟩,
    fun runs stands => ⟨fun n => alertAnswerTimeout_entersFast runs stands, fun ended unalerted =>
      ⟨quietWorkPending_alerts runs stands ended unalerted, fun unheard => ?answer⟩, fun unheard going => ?note⟩⟩
  case links =>
    rw [(links_modChan (SameLinks.refl _) ?_).link, move_link]
    exact fun _ => rfl
  case seen => rw [modChan_chan]
  case answer =>
    rw [alertDetected_noted runs stands unheard (.inr (.inr ended)) rfl, if_pos ⟨ended, unalerted⟩]
    rfl
  case note =>
    have awaited : (s.chan c).quiet.rxEnded = true ∨ (s.chan c).quiet.alert.isSome = true ∨ (s.chan c).quiet.txEnded = true :=
      going.elim (fun alerted => .inr (.inl alerted)) fun ⟨_, received⟩ => .inl received
    rw [alertDetected_noted runs stands unheard awaited rfl, if_neg]
    rintro ⟨ended, unalerted⟩
    simp [ended, unalerted] at going

end Sys2Proof.Machine
end

section
/-! SUPPORT. Sleep and wake (R261 to R268): what takes a channel to SLEEP, what a received wake frame makes of it, and how a wake
sent or received ends. -/

namespace Sys2Proof.Machine

/-! ### Asleep and woken (R261, R264, R267, R268) -/

theorem sleepNotice_sleeps {c : ChanId} {s t : State} {msg : Bytes} (taken : Delivered s c msg 0x32 t)
    (streams : (t.chan c).stands .data = true ∨ (t.chan c).stands .quiet = true ∨ (t.chan c).stands .fast = true) :
    exec (.sleepNotice c msg) s = .next (t.move c .sleep 0x21) := by
  simp [exec, execSleepNotice, taken.onMessage, or_assoc, streams]

/-- What the wake detector gives is the frame decoded from the runs it saw, or, with none, the frame itself. -/
def wakeFrameOf (runs : List Nat) (ident : BitVec 16) (data : Bytes) (check : BitVec 32) :
    Option (BitVec 16 × Bytes × BitVec 32) :=
  if runs = [] then some (ident, data, check) else wakeDecode runs

/-- An armed sleeping channel takes the frame that the detector gives, where it gives one. -/
theorem wakeFrameDecoded_armed {c : ChanId} {s : State} (wakes : s.wakes = true) (sleeps : (s.chan c).link = .sleep)
    (armed : (s.chan c).wake.armed = true) (runs : List Nat) (ident : BitVec 16) (data : Bytes) (check : BitVec 32) :
    exec (.wakeFrameDecoded c runs ident data check) s = .next
      ((wakeFrameOf runs ident data check).elim s fun f => s.takeWakeFrame c f.1 f.2.1 f.2.2) := by
  cases runs with
  | nil => exact if_pos (by simp [wakes, sleeps, armed])
  | cons r rs =>
    cases decoded : wakeDecode (r :: rs) <;>
      simp [exec, execWakeFrameDecoded, wakes, sleeps, armed, wakeFrameOf, decoded]

theorem takeWakeFrame_failed {c : ChanId} {s : State} {ident : BitVec 16} {data : Bytes} {check : BitVec 32}
    (fails : check ≠ wakeCheck ident data) :
    s.takeWakeFrame c ident data check = s.modWake c fun y => { y with failed := min 255 (y.failed + 1) } :=
  if_pos (bne_iff_ne.mpr fails)

theorem takeWakeFrame_checked {c : ChanId} {s : State} {ident : BitVec 16} {data : Bytes} {check : BitVec 32} {e : WakeEntry}
    (passes : check = wakeCheck ident data) (entry : s.image.wake[c.val]? = some e) :
    s.takeWakeFrame c ident data check = if e.matchesFrame ident data then s.woken c ident data
      else s.modWake c fun y => { y with notMatching := min 255 (y.notMatching + 1) } := by
  simp [State.takeWakeFrame, passes, entry]

/-- The restore ends; a channel still in SLEEP goes on to retrain. -/
theorem wakeRestoreDone_ends {c : ChanId} {s t : State} (boundary : s.atBoundary = true)
    (restoring : (s.chan c).wake.restoring = true) (ended : t = s.modWake c fun w => { w with restoring := false }) :
    exec (.wakeRestoreDone c) s =
      .next (if (s.chan c).stands .sleep then t.beginFast c 0x22 0x22 none none else t) := by
  subst ended
  rw [apply_ite Host.Outcome.next]
  exact if_pos (by simp [boundary, restoring])

/-! ### How a wake ends (R262, R263, R265) -/

section
variable {c : ChanId} {s : State} (runs : s.runs = true)
include runs

theorem wakeFramesSent_completes {a : BitVec 16} {b : Bytes} {p : Port} {q : Fin 512} {item : BitVec 32}
    (sending : (s.chan c).wake.sending = some (a, b, p, q, item)) {t : State}
    (completed : t = (s.modWake c fun y => { y with sending := none }).result p q item 0 0 0) :
    exec (.wakeFramesSent c) s = .next
      (if (s.chan c).wake.fromSleep = true ∧ (s.chan c).stored.isSome = true then
        t.beginFast c 0x28 1 none (some s.clock.sf)
       else t.arrive c .search 1) := by
  subst completed
  simp [exec, execWakeFramesSent, sending, runs, apply_ite Host.Outcome.next]

theorem wakeAnswerLimit_searches {t : Sf} (fast : (s.chan c).stands .fast = true) (f1 : (s.chan c).train.fast = .f1)
    (awaited : (s.chan c).train.answer = some t) (passed : s.passedSf t (s.elem 0x0602 c) = true) :
    exec (.wakeAnswerLimit c) s = .next (s.arrive c .search 0x27) := by
  simp [exec, execWakeAnswerLimit, awaited, runs, fast, f1, passed]

/-- A false wake leaves for SLEEP with notices where the link is up, and else at once. -/
theorem falseWakeTimeout_sleeps {t : Nat} (waking : (s.chan c).link.awake = true ∨ (s.chan c).link = .sleep ∧
      ((s.chan c).wake.restoring = true ∨ (s.chan c).bring.toSearch.isSome = true))
    (woken : (s.chan c).wake.falseSince = some t) (elapsed : t + 256 * s.elem 0x0603 c ≤ s.clock.symbols) {u : State}
    (ended : u = s.modWake c fun w => { w with falseSince := none }) :
    exec (.falseWakeTimeout c) s = .next
      (if (s.chan c).stands .data = true ∨ (s.chan c).stands .quiet = true then u.leaveNoticed c sleepNotice .sleep 0x26
       else u.move c .sleep 0x26) := by
  subst ended
  simp [exec, execFalseWakeTimeout, woken, runs, waking, State.passedFrom, elapsed, apply_ite Host.Outcome.next]

end

/-- Settles O53: a received frame by `wakeFrameDecoded_armed` and what its check and the wake table make of it, each other command
by what it does to a channel of a running link. -/
theorem sleepAndWakeAct : Obligations.SleepAndWakeAct := by
  intro c s
  refine ⟨fun msg t taken streams => ⟨_, sleepNotice_sleeps taken streams, rfl, fun d => ?links⟩, ?frames,
    fun boundary restoring => ⟨fun sleeps => ?retrains, fun left => ?ends⟩,
    fun a b p q item runs sending => wakeFramesSent_completes runs sending rfl,
    fun t runs => wakeAnswerLimit_searches runs,
    fun t runs waking woken elapsed => falseWakeTimeout_sleeps runs waking woken elapsed rfl⟩
  case links => rw [move_link, taken.taken, (links_modRetry (SameLinks.refl s)).link]
  case frames =>
    rintro runs f ident data check wakes sleeps armed given
    replace given : wakeFrameOf runs ident data check = f := given.symm
    rw [wakeFrameDecoded_armed wakes sleeps armed, given]
    exact ⟨fun undecoded => undecoded ▸ rfl, fun i d k decoded => decoded ▸ ⟨
      fun fails => congrArg _ (takeWakeFrame_failed fails),
      fun e passes entry => congrArg _ (takeWakeFrame_checked passes entry)⟩⟩
  case retrains => rw [wakeRestoreDone_ends boundary restoring rfl, if_pos sleeps]
  case ends => rw [wakeRestoreDone_ends boundary restoring rfl, if_neg (by simp [left])]

end Sys2Proof.Machine
end

section
/-! SUPPORT. The block as a whole: every command leaves the commands that wait, the invariant holds at reset and is kept by every step,
and the instructions of the test access port (R493, R495, Table 23.3). -/

namespace Sys2Proof.Machine

/-! ### Steps and the commands that wait -/

/-- Settles O1: the two arms of `step`, by whether a command waits; that an empty queue idles is log entry 2. -/
theorem stepRunsFrontCommand : Obligations.StepRunsFrontCommand := by
  refine ⟨fun s c rest waits => ?_, fun s empty => ?_⟩
  · rw [step, waits]
  · rw [step, empty]

/-- A meaning answers a next state with the same commands waiting. -/
def KeepsPending (s : State) : Host.Outcome State Fault Refusal → Prop
  | .next t => t.pending = s.pending
  | _ => False

theorem KeepsPending.ite {s a b : State} {c : Prop} [Decidable c] (h : a.pending = s.pending)
    (k : b.pending = s.pending) : KeepsPending s (if c then .next a else .next b) := by
  split <;> assumption

theorem LastsR.keepsPending {s : State} {r : Host.Outcome State Fault Refusal} (h : LastsR s r) : KeepsPending s r := by
  cases r with
  | next => exact Lasts.pending h
  | fault => exact h
  | refused => exact h

theorem setReset_pending (s : State) (pin : ResetPin) (level : Bool) : (s.setReset pin level).pending = s.pending := by
  cases pin <;> rfl

theorem edgesSeen_pending (s : State) (w : KeyWait) : (s.edgesSeen w).pending = s.pending := by
  rw [edgesSeen_eq]

/-- Every command leaves the commands that wait: a reset and the test access port keep them too. -/
theorem exec_keepsPending (c : Instr) (s : State) : KeepsPending s (exec c s) := by
  by_cases h : outlasts c = true
  · exact (exec_lasts c s h).keepsPending
  cases c with
  | resetAssert pin => exact setReset_pending s pin false
  | resetRelease pin => exact .ite (setReset_pending s pin true) (setReset_pending s pin true)
  | tapReset | idcode | samplePreload | startStatus | keyRead | factoryRef | dieId => exact rfl
  | extest | extestPulse | extestTrain | clamp | highz => exact rfl
  | keyProgram bits w => exact .ite (edgesSeen_pending _ w) rfl
  | bypass => exact .ite rfl rfl
  | _ => exact absurd rfl h

/-- Settles O2: every command answers a next state, by `exec_keepsPending`. -/
theorem commandsRunAndKeepQueue : Obligations.CommandsRunAndKeepQueue := by
  intro c s
  have kept := exec_keepsPending c s
  cases e : exec c s with
  | next t =>
    rw [e] at kept
    exact ⟨t, rfl, kept⟩
  | fault | refused =>
    rw [e] at kept
    exact kept.elim

/-! ### The invariant -/

/-- Settles O3: nothing is held, no register is selected, and both tables are empty. -/
theorem resetMeetsInvariant : Obligations.ResetMeetsInvariant :=
  ⟨fun _ => rfl, by decide, rfl, rfl⟩

/-- A meaning answers a next state of the invariant. -/
def MeetsInv : Host.Outcome State Fault Refusal → Prop
  | .next t => t.inv
  | _ => False

theorem MeetsInv.ite {a b : State} {c : Prop} [Decidable c] (h : a.inv) (k : b.inv) :
    MeetsInv (if c then .next a else .next b) := by
  split <;> assumption

/-- Within a hold only reset leaves the reset state, so what outlasts a command keeps the invariant. -/
theorem Lasts.inv {s t : State} (h : Lasts s t) (i : s.inv) : t.inv := by
  obtain ⟨hold, width, chans, queues⟩ := i
  refine ⟨fun held => h.stage (hold ?_), ?_, h.chans chans, h.queues queues⟩
  · rwa [h.tap] at held
  · rwa [h.tap]

theorem LastsR.meetsInv {s : State} {r : Host.Outcome State Fault Refusal} (h : LastsR s r) (i : s.inv) : MeetsInv r := by
  cases r with
  | next => exact Lasts.inv h i
  | fault => exact h
  | refused => exact h

/-- A device in the reset state meets the invariant with any register of Table 23.3 selected. -/
theorem enterReset_inv (s : State) (x : Tap) (width : x.width ∈ scanWidths) : { s.enterReset with tap := x }.inv :=
  ⟨fun _ => rfl, width, rfl, rfl⟩

/-- A scan selects a register of Table 23.3 and moves nothing else that the invariant speaks of. -/
theorem scanned_inv {s t : State} (i : s.inv) {width : Nat} (known : width ∈ scanWidths) (selects : t.tap.width = width)
    (holding : t.tap.holding = s.tap.holding) (start : t.start = s.start) (chans : t.chans = s.chans)
    (queues : t.queues = s.queues) : t.inv := by
  obtain ⟨hold, -, rise, rise'⟩ := i
  exact ⟨fun held => start ▸ hold (holding ▸ held), selects ▸ known, chans ▸ rise, queues ▸ rise'⟩

theorem scan_inv {s : State} (i : s.inv) (ir : Byte) {width : Nat} (value : Nat) (known : width ∈ scanWidths) :
    (s.scan ir width value).inv :=
  scanned_inv i known rfl rfl rfl rfl rfl

theorem setReset_inv {s : State} (i : s.inv) (pin : ResetPin) (level : Bool) : (s.setReset pin level).inv := by
  cases pin <;> exact i

/-- The release of reset leaves the reset state, which only a device that nothing holds does. -/
theorem leaveReset_inv {s : State} (i : s.inv) (free : s.tap.holding = false) : s.leaveReset.inv := by
  obtain ⟨-, width, chans, queues⟩ := i
  refine ⟨fun held => ?_, width, chans, queues⟩
  exact absurd (free.symm.trans held) Bool.false_ne_true

theorem edgesSeen_inv {s : State} (i : s.inv) (w : KeyWait) : (s.edgesSeen w).inv := by
  rw [edgesSeen_eq]
  exact i

theorem execResetAssert_inv {s : State} (i : s.inv) (pin : ResetPin) : MeetsInv (execResetAssert pin s) := by
  obtain ⟨-, width, -, -⟩ := setReset_inv i pin false
  exact enterReset_inv (s.setReset pin false) _ width

theorem execResetRelease_inv {s : State} (i : s.inv) (pin : ResetPin) : MeetsInv (execResetRelease pin s) := by
  unfold execResetRelease
  dsimp only
  split
  · next released =>
    have free : (s.setReset pin true).tap.holding = false := by
      simp only [Bool.and_eq_true, Bool.not_eq_true'] at released
      exact released.2
    exact leaveReset_inv (setReset_inv i pin true) free
  · exact setReset_inv i pin true

theorem extestScan_inv (s : State) (ir : Byte) (pins cells : BitVec 512) : (s.extestScan ir pins cells).inv :=
  ⟨fun _ => rfl, (by decide : 512 ∈ scanWidths), rfl, rfl⟩

theorem exec_inv {s : State} (i : s.inv) (c : Instr) : MeetsInv (exec c s) := by
  by_cases h : outlasts c = true
  · exact (exec_lasts c s h).meetsInv i
  cases c with
  | resetAssert pin => exact execResetAssert_inv i pin
  | resetRelease pin => exact execResetRelease_inv i pin
  | extest | extestPulse | extestTrain => exact extestScan_inv ..
  | clamp | highz => exact enterReset_inv (s.scan _ 1 0) _ (by decide : 1 ∈ scanWidths)
  | tapReset | idcode | startStatus | keyRead | factoryRef | dieId => exact scan_inv i _ _ (by decide)
  | samplePreload => exact scanned_inv i (by decide : 512 ∈ scanWidths) rfl rfl rfl rfl rfl
  | keyProgram bits w =>
    refine .ite (edgesSeen_inv ?_ w) (scan_inv i 0x12 _ (by decide))
    exact scanned_inv i (by decide : 288 ∈ scanWidths) rfl rfl rfl rfl rfl
  | bypass opcode => exact .ite i (scan_inv i opcode 0 (by decide))
  | _ => exact absurd rfl h

/-- Settles O4: the command at the front keeps the invariant by `exec_inv`; the commands that wait are no part of it. -/
theorem stepKeepsInvariant : Obligations.StepKeepsInvariant := by
  intro s t i e
  cases waits : s.pending with
  | nil =>
    obtain rfl : s = t := by simpa [step, waits] using e
    exact i
  | cons c rest =>
    have kept : MeetsInv (exec c { s with pending := rest }) := exec_inv (s := { s with pending := rest }) i c
    simp only [step, waits] at e
    rw [e] at kept
    exact kept

/-! ### Instructions of the test access port -/

theorem scan_eq (s : State) (ir : Byte) (width value : Nat) : s.scan ir width value = { s.tapIdle with
    tap := { s.tap with ir := ir, width := width, shifted := BitVec.ofNat 512 value, drives := .device } } := rfl

/-- Settles O14: each instruction is `State.scan` of its register. -/
theorem scanInstructionsShift : Obligations.ScanInstructionsShift := by
  refine fun s => ⟨fun trst => rfl, rfl, fun pins cells => ?_, rfl, ?_, ?_, ?_, fun opcode other => ?_⟩
  · simp [exec, execSamplePreload, State.shiftBoundary, scan_eq]
  · simp [exec, execKeyRead, scan_eq]
  · simp [exec, execFactoryRef, scan_eq]
  · simp [exec, execDieId, scan_eq]
  · have named : ([0x00, 0x01, 0x02, 0x03, 0x04, 0x09, 0x0A, 0x10, 0x11, 0x12, 0x13, 0x14] : List Byte).contains opcode =
        false := by simpa using other
    rw [exec, execBypass, if_neg (ne_true_of_eq_false named)]
    rfl

/-- An instruction that drives the pins from the boundary register resets the device, and shifts out the pins as so driven. -/
theorem extestScan_resets (s : State) (ir : Byte) (pins cells : BitVec 512) : ∃ t, s.extestScan ir pins cells = t ∧
    ResetFrom s.tapIdle t ∧ t.tap = { s.tap with
      ir := ir, width := 512, shifted := (s.pinsFromTap .boundary).sampled pins, boundary := cells, holding := true
      drives := .boundary } := by
  refine ⟨_, rfl, resetFrom_enterReset s.tapIdle _, ?_⟩
  simp [State.extestScan, State.shiftBoundary, State.scan, State.pinsFromTap, State.enterReset]

/-- Settles O15: each is the reset state but for the test access port; that the register has 512 cells, and that the hold begins also
where a reset input is low, is log entry 78. -/
theorem pinInstructionsReset : Obligations.PinInstructionsReset := by
  refine fun s => ⟨fun pins cells c ir named => ?_, fun c ir d named => ?_⟩
  · obtain ⟨t, e, r, k⟩ := extestScan_resets s ir pins cells
    simp only [List.mem_cons, Prod.mk.injEq, List.not_mem_nil, or_false] at named
    rcases named with ⟨rfl, rfl⟩ | ⟨rfl, rfl⟩ | ⟨rfl, rfl⟩ <;> exact ⟨t, congrArg Host.Outcome.next e, r, k⟩
  · simp only [List.mem_cons, Prod.mk.injEq, List.not_mem_nil, or_false] at named
    rcases named with ⟨rfl, rfl, rfl⟩ | ⟨rfl, rfl, rfl⟩ <;> exact ⟨_, rfl, resetFrom_enterReset s.tapIdle _, rfl⟩

/-! ### Commands that leave the channels -/

/-- Settles O12: the commands that the statement names are among those of `leavesChans`. -/
theorem hostSideLeavesChannels : Obligations.HostSideLeavesChannels := by
  intro c s t e named
  have kept := exec_keepsChans c s named
  rw [e] at kept
  exact kept

end Sys2Proof.Machine
end

section
/-! SUPPORT. Occurrences at the fault sources (R420 to R425): what counting one makes of its source, of ERR_N and of every other source. -/

namespace Sys2Proof.Machine

/-! ### One source's state -/

@[simp] theorem setSource_source (s : State) (k : Nat) (x : Source) : (s.setSource k x).source k = x :=
  tab_get_set ..

theorem setSource_source_ne (s : State) {j k : Nat} (x : Source) (h : j ≠ k) : (s.setSource k x).source j = s.source j :=
  tab_get_set_ne _ _ _ _ _ h

@[simp] theorem reactFault_source (s : State) (i : Scope) (k j : Nat) : (s.reactFault i k).source j = s.source j := by
  unfold State.reactFault
  split <;> rfl

@[simp] theorem reactFault_pins (s : State) (i : Scope) (k : Nat) : (s.reactFault i k).pins = s.pins := by
  unfold State.reactFault
  split <;> rfl

/-- A message's bookkeeping touches no counter of the source. -/
theorem message_counters (x : Source) (t : Sf) (severe merged : Bool) (inst : BitVec 16) (addr : Bytes) :
    ∃ n m d, (x.message t severe merged inst addr).2 = { x with suppressed := n, messaged := m, deferred := d } := by
  unfold Source.message
  split
  · split <;> exact ⟨_, _, _, rfl⟩
  · split <;> exact ⟨_, _, _, rfl⟩

/-! ### An occurrence counted -/

/-- The tally of an occurrence of a source at an instance. -/
def State.tallied (s : State) (k : Nat) (i : Option Scope) : Bool × Source :=
  (s.source k).tally s.clock.sf (s.threshold ((sourceKind k).getD 0)) (s.window ((sourceKind k).getD 0)) (instWord i)

/-- What an occurrence of a source has made of the sources and of ERR_N. -/
structure Counted (s t : State) (k : Nat) (i : Option Scope) : Prop where
  source : ∃ n m d, t.source k = { (s.tallied k i).2 with suppressed := n, messaged := m, deferred := d }
  others : ∀ j, j ≠ k → t.source j = s.source j
  err : t.pins.errLow = (s.pins.errLow || (s.tallied k i).1)

theorem countOne_counted (s : State) (k : Nat) (i : Option Scope) (addr : Bytes) : Counted s (s.countOne k i addr).2 k i := by
  unfold State.countOne
  extract_lets n r merged s1 s2 kind s3 m s4
  have tally : r = s.tallied k i := rfl
  have own2 : s2.source k = r.2 := by
    simp only [s2]
    split
    · split
      · rw [reactFault_source, setSource_source]
      · exact setSource_source ..
    · exact setSource_source ..
  have others2 (j : Nat) (h : j ≠ k) : s2.source j = s.source j := by
    simp only [s2]
    split
    · split
      · rw [reactFault_source, setSource_source_ne _ _ h]
      · exact setSource_source_ne _ _ h
    · exact setSource_source_ne _ _ h
  have pins2 : s2.pins = s.pins := by
    simp only [s2]
    split
    · split
      · rw [reactFault_pins]
        rfl
      · rfl
    · rfl
  have source3 (j : Nat) : s3.source j = s2.source j := by
    simp only [s3]
    split <;> rfl
  have err3 : s3.pins.errLow = (s.pins.errLow || r.1) := by
    simp only [s3]
    split
    · next severe => simp [severe]
    · next mild => simp [mild, pins2]
  obtain ⟨a, b, d, messaged⟩ := message_counters (s3.source k) s.clock.sf r.1 merged (instWord i) addr
  have bare : Counted s s3 k i :=
    ⟨⟨_, _, _, (source3 k).trans own2⟩, fun j h => (source3 j).trans (others2 j h), err3⟩
  have after : Counted s s4 k i := by
    refine ⟨⟨a, b, d, ?_⟩, fun j h => ?_, err3⟩
    · rw [setSource_source, messaged, source3, own2, tally]
    · rw [setSource_source_ne _ _ h, source3, others2 j h]
  split
  · split <;> exact after
  · split <;> exact bare

/-! ### The records it makes -/

/-- A record produced moves no source and no pin. -/
theorem pushRecord_aside (s : State) (n : NewRec) :
    (s.pushRecord n).2.faults = s.faults ∧ (s.pushRecord n).2.pins = s.pins := by
  unfold State.pushRecord
  dsimp only
  split
  · exact ⟨rfl, rfl⟩
  · split
    · exact ⟨setRings_faults .., setRings_pins ..⟩
    · split <;> exact ⟨setRings_faults .., setRings_pins ..⟩

theorem pushRecord_source (s : State) (n : NewRec) (j : Nat) : (s.pushRecord n).2.source j = s.source j := by
  rw [State.source, (pushRecord_aside s n).1, State.source]

/-- Records that are dropped count at the two sources of record loss alone, and never release ERR_N. -/
theorem produceList_sources (n : Nat) (l : List NewRec) (s : State) :
    (∀ j, j ≠ 0x394 → j ≠ 0x395 → (produceList n l s).source j = s.source j) ∧
    (s.pins.errLow = true → (produceList n l s).pins.errLow = true) := by
  fun_induction produceList n l s with
  | case1 => exact ⟨fun _ _ _ => rfl, id⟩
  | case2 => exact ⟨fun _ _ _ => rfl, id⟩
  | case3 n x t s r kept ih =>
    obtain ⟨sources, err⟩ := ih
    refine ⟨fun j a b => (sources j a b).trans (pushRecord_source s x j), fun low => err ?_⟩
    rw [(pushRecord_aside s x).2]
    exact low
  | case4 n x t s r dropped o ih =>
    obtain ⟨sources, err⟩ := ih
    have lost : Counted r.2 o.2 (0x394 + x.port.num) (some .device) := countOne_counted ..
    refine ⟨fun j a b => ?_, fun low => err ?_⟩
    · have other : j ≠ 0x394 + x.port.num := by
        cases h : x.port <;> simp [Port.num, a, b]
      exact ((sources j a b).trans (lost.others j other)).trans (pushRecord_source s x j)
    · rw [lost.err, (pushRecord_aside s x).2, low, Bool.true_or]

/-- An occurrence at a source that is not one of record loss: what it makes of that source is its tally. -/
theorem occur_source (s : State) {k : Nat} (i : Option Scope) (addr : Bytes) (a : k ≠ 0x394) (b : k ≠ 0x395) :
    ∃ n m d, (s.occur k i addr).source k = { (s.tallied k i).2 with suppressed := n, messaged := m, deferred := d } := by
  have counted := countOne_counted s k i addr
  rw [State.occur, State.produce, (produceList_sources _ _ _).1 k a b]
  exact counted.source

theorem occur_source_ne (s : State) {j k : Nat} (i : Option Scope) (addr : Bytes) (h : j ≠ k) (a : j ≠ 0x394) (b : j ≠ 0x395) :
    (s.occur k i addr).source j = s.source j := by
  rw [State.occur, State.produce, (produceList_sources _ _ _).1 j a b]
  exact (countOne_counted s k i addr).others j h

/-- An occurrence that makes its source severe asserts ERR_N (R421). -/
theorem occur_err (s : State) {k : Nat} (i : Option Scope) (addr : Bytes) (severe : (s.tallied k i).1 = true) :
    (s.occur k i addr).pins.errLow = true := by
  refine (produceList_sources _ _ _).2 ?_
  rw [(countOne_counted s k i addr).err, severe, Bool.or_true]

theorem tally_total (x : Source) (t : Sf) (n w : Nat) (inst : BitVec 16) :
    (x.tally t n w inst).2.total = min (x.total + 1) (2 ^ 32 - 1) := by
  unfold Source.tally
  dsimp only
  split
  · rfl
  · split <;> split <;> rfl

/-- The total of a source after an occurrence (R420). -/
theorem occur_total (s : State) {k : Nat} (i : Option Scope) (addr : Bytes) (a : k ≠ 0x394) (b : k ≠ 0x395) :
    ((s.occur k i addr).source k).total = min ((s.source k).total + 1) (2 ^ 32 - 1) := by
  obtain ⟨n, m, d, e⟩ := occur_source s i addr a b
  rw [e]
  exact tally_total ..

/-- At a severe source only the total goes on. -/
theorem tally_severe {x : Source} (h : x.severe = true) (t : Sf) (n w : Nat) (inst : BitVec 16) :
    x.tally t n w inst = (false, { x with total := min (x.total + 1) (2 ^ 32 - 1) }) := by
  simp [Source.tally, h]

/-- At another the window opens anew or goes on, and the threshold makes the source severe. -/
theorem tally_mild {x : Source} (h : x.severe = false) (t : Sf) (n w : Nat) (inst : BitVec 16) {opens : Bool}
    (ho : opens = (decide (x.count = 0) || decide (w ≤ (t - x.start).toNat))) {c : Nat} (hc : c = if opens then 1 else x.count + 1) :
    x.tally t n w inst = (decide (n ≤ c), { x with
      total := min (x.total + 1) (2 ^ 32 - 1), start := if opens then t else x.start, count := c
      severe := decide (n ≤ c), sticky := if n ≤ c then true else x.sticky, inst := if n ≤ c then inst else x.inst }) := by
  unfold Source.tally
  dsimp only
  rw [h, ← ho, if_neg Bool.false_ne_true]
  subst hc
  cases opens with
  | false => by_cases many : n ≤ x.count + 1 <;> simp [many]
  | true => by_cases many : n ≤ 1 <;> simp [many]

/-- Settles O60: the source by its tally, ERR_N by `Counted.err`, and every other source and the frame by what records can change. -/
theorem occurrencesAreCounted : Obligations.OccurrencesAreCounted := by
  rintro s t k n w i addr x y opens a b rfl rfl rfl rfl rfl hopens
  obtain ⟨u, m, d, own⟩ := occur_source s i addr a b
  refine ⟨reported_occur .., fun j h a b => occur_source_ne s i addr h a b, occur_total s i addr a b, fun severe => ?_,
    fun mild => ?_⟩
  · rw [own, State.tallied, tally_severe severe]
    exact ⟨severe, rfl, rfl, rfl, rfl⟩
  · have tally := tally_mild mild s.clock.sf (s.threshold ((sourceKind k).getD 0)) (s.window ((sourceKind k).getD 0))
      (instWord i) hopens rfl
    rw [own, State.tallied, tally]
    refine ⟨rfl, rfl, rfl, fun many => ⟨if_pos many, ?_⟩, fun few => ⟨if_neg (Nat.not_le.2 few), if_neg (Nat.not_le.2 few)⟩⟩
    refine occur_err s i addr ?_
    rw [State.tallied, tally]
    exact decide_eq_true many

end Sys2Proof.Machine
end

section
/-! SUPPORT. Training and the link control blocks (R282 to R299): what each makes of a port's link layer, what goes out on its lanes,
and nothing else. -/

namespace Sys2Proof.Machine

/-! ### More operations on one link layer -/

namespace LinkBecomes

variable {s t : State} {p : Port} {l : HostLink} {sent : List Out} (h : LinkBecomes s t p l sent)
include h

theorem useFresh : LinkBecomes s t.useFresh p l sent := by
  refine ⟨by cases p <;> exact h.link, ?_⟩
  obtain ⟨x, n, rfl⟩ : ∃ x n, t = { s.setLink p x with out := s.out ++ sent, fresh := n } := ⟨_, _, h.rest⟩
  cases p <;> rfl

theorem setLink {x m : HostLink} (k : x.offWire = m.offWire) : LinkBecomes s (t.setLink p x) p m sent :=
  h.modLink (f := fun _ => x) k

/-- Frames go out again, each under its own number. -/
theorem sayResent (frames : List Frame) :
    LinkBecomes s (Machine.sayResent p frames t) p l (sent ++ frames.map fun f => .resent p f) := by
  induction frames generalizing t sent with
  | nil => simpa [Machine.sayResent] using h
  | cons f frames ih =>
    have put := h.modLink (f := fun x => (x.putBlocks (frameWords f.kind f.seq f.body)).lay (t.lanes p)) (m := l)
      (by rw [lay_offWire, putBlocks_offWire, h.link])
    simpa [Machine.sayResent] using ih (put.say (.resent p f))

/-- Every unacknowledged frame goes out again, and the resend is counted. -/
theorem resendAll : LinkBecomes s (t.resendAll p) p { l with resends := if l.replay = [] then l.resends else l.resends + 1 }
    (sent ++ l.replay.map fun f => .resent p f) := by
  have replay : (t.link p).replay = l.replay := h.field HostLink.replay fun _ => rfl
  unfold State.resendAll
  dsimp only
  by_cases empty : l.replay = []
  · have same : ({ l with resends := if l.replay = [] then l.resends else l.resends + 1 } : HostLink) = l := by
      rw [if_pos empty]
    rw [same, if_pos (by rw [replay, empty]; rfl), empty, List.map_nil, List.append_nil]
    exact h
  · have counted := h.setLink (x := { t.link p with resends := (t.link p).resends + 1 })
      (m := { l with resends := l.resends + 1 })
      (congrArg (fun x : HostLink => { x with resends := x.resends + 1 }) h.link)
    have resent := counted.sayResent (t.link p).replay
    rw [congrArg (List.map fun f => Out.resent p f) replay] at resent
    rw [if_neg empty, if_neg (by simpa [replay] using empty)]
    exact resent

theorem sayAck : LinkBecomes s (t.sayAck p) p l (sent ++ [.link p 1 ((l.expected - 1).zeroExtend 16) 0]) := by
  have expected : (t.link p).expected = l.expected := h.field HostLink.expected fun _ => rfl
  rw [State.sayAck, expected]
  exact h.sayLink 1 _ 0

/-- A row of TRAIN blocks goes out. -/
theorem sendTraining : LinkBecomes s (t.sendTraining p) p l sent := by
  unfold State.sendTraining
  refine h.useFresh.modLink ?_
  rw [HostLink.trainRow, sendRow_offWire]
  exact h.useFresh.link

theorem beginAttempt : LinkBecomes s (t.beginAttempt p) p l.attempt sent :=
  (h.modLink (f := HostLink.attempt) (m := l.attempt) (congrArg HostLink.attempt h.link)).sendTraining

/-- Four RETRAIN blocks go out, and an attempt begins. -/
theorem retrainPort (reason : Nat) : LinkBecomes s (t.retrainPort p reason) p l.attempt
    (sent ++ List.replicate 4 (.link p 4 (BitVec.ofNat 16 reason) 0)) := by
  have said := (((h.sayLink 4 (BitVec.ofNat 16 reason) 0).sayLink 4 (BitVec.ofNat 16 reason) 0).sayLink 4
    (BitVec.ofNat 16 reason) 0).sayLink 4 (BitVec.ofNat 16 reason) 0
  have four (o : Out) : sent ++ List.replicate 4 o = sent ++ [o] ++ [o] ++ [o] ++ [o] := by simp [List.replicate]
  rw [four]
  exact said.beginAttempt

end LinkBecomes

/-! ### Training attempts (R282, R296, R297, R299) -/

theorem sendRow_wire_length (n : Nat) (l : HostLink) (row : List (BitVec 66)) :
    l.wire.length < (l.sendRow n row).wire.length := by
  unfold HostLink.sendRow HostLink.putRow
  dsimp only
  split <;> simp

/-- An attempt puts rows on the lanes. -/
theorem beginAttempt_wire (s : State) (p : Port) : ((s.beginAttempt p).link p).wire ≠ (s.link p).wire := by
  intro same
  have longer : (s.link p).wire.length < ((s.beginAttempt p).link p).wire.length := by
    rw [State.beginAttempt, State.sendTraining, modLink_link, HostLink.trainRow]
    have before : ((s.modLink p HostLink.attempt).useFresh.link p).wire = (s.link p).wire := by cases p <;> rfl
    exact before ▸ sendRow_wire_length ..
  rw [same] at longer
  exact Nat.lt_irrefl _ longer

theorem beginAttempt_begins (s : State) (p : Port) : LinkBecomes s (s.beginAttempt p) p (s.link p).attempt [] ∧
    ((s.beginAttempt p).link p).phase = .t1 ∧ ((s.beginAttempt p).link p).wire ≠ (s.link p).wire := by
  have begun := (LinkBecomes.refl s p).beginAttempt
  exact ⟨begun, begun.field HostLink.phase fun _ => rfl, beginAttempt_wire s p⟩

section
variable {s : State} {p : Port}

theorem mayTrain_of (enabled : s.enabled p = true) (counted : (s.link p).counted = true)
    (edges : (s.link p).clockStopped = false) (started : s.start.stage = .running ∨ s.start.stage = .switching) :
    s.mayTrain p = true := by
  rcases started with stage | stage <;> simp [State.mayTrain, enabled, counted, edges, stage, Stage.scheduled]

theorem hostTrainAttemptStart_begins (may : s.mayTrain p = true) (down : (s.link p).phase = .down) :
    exec (.hostTrainAttemptStart p) s = .next (s.beginAttempt p) := by
  rw [exec, execHostTrainAttemptStart, may, down]
  rfl

theorem attemptIdleEnd_begins (may : s.mayTrain p = true) (idle : (s.link p).phase = .idle) :
    exec (.attemptIdleEnd p) s = .next (s.beginAttempt p) := by
  rw [exec, execAttemptIdleEnd, may, idle]
  rfl

theorem trainingPhaseLimit_ends (phase : (s.link p).phase ∈ [LinkPhase.t1, .t2, .t3, .t4])
    (edges : (s.link p).clockStopped = false) :
    exec (.trainingPhaseLimit p) s = .next (s.setLink p { s.link p with phase := .idle }) := by
  have training : (s.link p).phase.training = true := by
    simp only [List.mem_cons, List.not_mem_nil, or_false] at phase
    rcases phase with h | h | h | h <;> rw [h] <;> rfl
  rw [exec, execTrainingPhaseLimit, training, edges]
  rfl

variable (up : s.linkUp p = true)
include up

theorem retrain_begins {b : LinkBlock} (ok : linkBlockOk 4 b = true) :
    exec (.retrain p b) s = .next (s.beginAttempt p) := by
  rw [exec, execRetrain, up, ok]
  rfl

theorem trainBlock_retrains (lane : Fin 16) (content : Bytes) :
    exec (.trainBlock p lane content) s = .next (s.beginAttempt p) := by
  obtain ⟨isUp, edges⟩ := (linkUp_iff s p).1 up
  simp [exec, execTrainBlock, isUp, edges]

theorem blockLockLost_retrains {lane : Fin 16} (used : lane.val < s.lanes p) {headers : List (BitVec 2)}
    (lost : 16 ≤ (headers.take 64).countP (fun h => h == 0 || h == 3)) :
    exec (.blockLockLost p lane headers) s = .next (s.retrainPort p 1) := by
  have shown : lockLost headers = true := decide_eq_true lost
  rw [exec, execBlockLockLost, up, shown, decide_eq_true used]
  rfl

end

/-- Settles O26: each cause begins an attempt by `LinkBecomes.beginAttempt`. -/
theorem hostTrainingStarts : Obligations.HostTrainingStarts := by
  refine ⟨fun p s enabled counted edges started => ?_, fun p b lane content headers s up => ?_,
    fun p s => trainingPhaseLimit_ends, fun l => rfl⟩
  · have may := mayTrain_of enabled counted edges started
    exact ⟨fun down => ⟨_, hostTrainAttemptStart_begins may down, beginAttempt_begins s p⟩,
      fun idle => ⟨_, attemptIdleEnd_begins may idle, beginAttempt_begins s p⟩⟩
  · have same := LinkBecomes.refl s p
    exact ⟨fun ok => ⟨_, retrain_begins up ok, same.beginAttempt⟩,
      ⟨_, trainBlock_retrains up lane content, same.beginAttempt⟩,
      fun used lost => ⟨_, blockLockLost_retrains up used lost, same.retrainPort 1⟩⟩

/-! ### The end of training (R284, R298) -/

section
variable {s : State} {p : Port}

theorem parametersFrameInterval_sends (t4 : (s.link p).phase = .t4) (edges : (s.link p).clockStopped = false) :
    exec (.parametersFrameInterval p) s = .next (s.sendParams p) := by
  rw [exec, execParametersFrameInterval, t4, edges]
  rfl

theorem sendParams_linkBecomes (s : State) (p : Port) : LinkBecomes s (s.sendParams p) p
    { s.link p with paramsSent := (s.link p).paramsSent || (s.link p).paramsSeen } [.params p (s.paramsBody p)] := by
  have said := (LinkBecomes.refl s p).say (.params p (s.paramsBody p))
  unfold State.sendParams
  refine said.modLink ?_
  rw [say_link']
  exact congrArg (fun x : HostLink => { x with paramsSent := (s.link p).paramsSent || (s.link p).paramsSeen })
    (lay_offWire (s.lanes p) ((s.link p).putBlocks (frameWords 15 0 (s.paramsBody p))))

theorem linkParametersFrame_takes {body : Bytes} (t4 : (s.link p).phase = .t4) (edges : (s.link p).clockStopped = false)
    (good : paramsGood body = true) : exec (.linkParametersFrame p body) s =
      .next (s.setLink p ((s.link p).takeParams (s.paramsAgree p body) body)) := by
  simp [exec, execLinkParametersFrame, t4, edges, good]

/-- In T1 to T3 a phase that ends leaves the lanes as they are mapped. -/
theorem advance_lanes (l : HostLink) (n : Nat) :
    (l.advance n).laneMap = l.laneMap ∧ (l.advance n).inverted = l.inverted ∧
    (l.phase ≠ .t2 → (l.advance n).aligned = l.aligned) := by
  unfold HostLink.advance
  split
  · exact ⟨rfl, rfl, fun _ => rfl⟩
  · split
    · next t2 => exact ⟨rfl, rfl, fun other => absurd (by simpa using And.left (by simpa using t2)) other⟩
    · split <;> exact ⟨rfl, rfl, fun _ => rfl⟩

theorem seePolarity_inverted (l : HostLink) (n : Nat) (row : List LaneBlock) :
    l.seePolarity n row = { l with inverted := if l.phase = .t1 then invertedLanes n row else l.inverted } := by
  unfold HostLink.seePolarity
  split <;> rfl

/-- A row in T1 to T3 maps the lanes, its inverted pairs corrected. -/
theorem alignRow_maps {row : List LaneBlock} {inv : List Nat} {lanes : List (Nat × Nat)}
    (phase : (s.link p).phase ∈ [LinkPhase.t1, .t2, .t3]) (edges : (s.link p).clockStopped = false)
    (hinv : inv = if (s.link p).phase = .t1 then invertedLanes (s.lanes p) row else (s.link p).inverted)
    (hlanes : lanes = readRow (s.lanes p) (fun i => inv.contains i) row) (ok : lanesOk (s.lanes p) lanes = true) :
    exec (.alignRow p row) s = .next (s.setLink p (HostLink.advance { s.link p with
      inverted := inv, laneMap := lanes, aligned := (s.link p).aligned || (s.link p).phase == .t3 } (s.lanes p))) := by
  have sees : (s.link p).seePolarity (s.lanes p) row = { s.link p with inverted := inv } := by
    rw [seePolarity_inverted, hinv]
  have edges' : ((s.link p).seePolarity (s.lanes p) row).clockStopped = false := by
    rw [sees]
    exact edges
  have phase' : ((s.link p).seePolarity (s.lanes p) row).phase = (s.link p).phase := by rw [sees]
  have reads : ((s.link p).seePolarity (s.lanes p) row).readLanes (s.lanes p) row = lanes := by
    rw [sees]
    exact hlanes.symm
  obtain ⟨training, early⟩ : (s.link p).phase.training = true ∧ (s.link p).phase ≠ .t4 := by
    simp only [List.mem_cons, List.not_mem_nil, or_false] at phase
    rcases phase with h | h | h <;> rw [h] <;> exact ⟨rfl, nofun⟩
  simp only [exec, execAlignRow, State.alignOn, reads, edges', phase', ok, training, early, Bool.not_true, Bool.or_false,
    Bool.false_eq_true, if_false, if_true]
  simp only [sees, edges]

/-- In T4, once both parameters frames have gone, a row that names every lane brings the link up. -/
theorem alignRow_bringsUp {row : List LaneBlock} (t4 : (s.link p).phase = .t4) (edges : (s.link p).clockStopped = false)
    (ok : lanesOk (s.lanes p) (readRow (s.lanes p) (fun i => (s.link p).inverted.contains i) row) = true)
    (paramsSent : (s.link p).paramsSent = true) (farPeerSeen : (s.link p).farPeerSeen = true) :
    exec (.alignRow p row) s = .next ((s.bringUp p).owedStart p) := by
  have sees : (s.link p).seePolarity (s.lanes p) row = s.link p := by
    rw [seePolarity_inverted, if_neg (by rw [t4]; nofun)]
  have ready : (s.link p).ready = true := by simp [HostLink.ready, t4, paramsSent, farPeerSeen, edges]
  simp only [exec, execAlignRow, State.alignOn, sees, HostLink.readLanes, ok, edges, t4, ready, State.trained, Bool.not_true,
    Bool.or_false, Bool.false_eq_true, if_false, if_true]

/-- The link comes up afresh, or resumes with the frames that the far end has not received. -/
theorem bringUp_fresh (fresh : (s.link p).trained = false) : LinkBecomes s (s.bringUp p) p (HostLink.pump { s.link p with
      phase := .up, trained := true, nextSeq := 0, expected := 0, nakSent := false, replay := [], resends := 0
      consumed := [0, 0, 0], doorbells := 64 } s.clock.symbols) [] := by
  simp only [State.bringUp, fresh, Bool.false_eq_true, if_false]
  exact ((LinkBecomes.refl s p).setLink rfl).pump

theorem bringUp_resumed (trained : (s.link p).trained = true) : LinkBecomes s (s.bringUp p) p (HostLink.pump { s.link p with
      phase := .up, replay := framesFrom (s.link p).farNext (s.link p).replay, resends := 0 } s.clock.symbols)
    ((framesFrom (s.link p).farNext (s.link p).replay).map fun f => Out.resent p f) := by
  simp only [State.bringUp, trained, if_true]
  exact (((LinkBecomes.refl s p).setLink rfl).sayResent _).pump

theorem pump_phase (l : HostLink) (n : Nat) : (l.pump n).phase = l.phase :=
  (pumpList_sends n l.waiting l).1.phase

/-- The link is up then, and nothing away from it has changed. -/
theorem bringUp_up (s : State) (p : Port) :
    ((s.bringUp p).link p).phase = .up ∧ (s.bringUp p).runs = s.runs ∧ (s.bringUp p).rings p = s.rings p := by
  cases h : (s.link p).trained with
  | false =>
    have up := bringUp_fresh h
    exact ⟨(up.field HostLink.phase fun _ => rfl).trans (pump_phase ..), up.runs, up.rings p⟩
  | true =>
    have up := bringUp_resumed h
    exact ⟨(up.field HostLink.phase fun _ => rfl).trans (pump_phase ..), up.runs, up.rings p⟩

theorem owedStart_none (none : (s.rings p).startPending = false) : (s.bringUp p).owedStart p = s.bringUp p := by
  obtain ⟨-, -, rings⟩ := bringUp_up s p
  simp [State.owedStart, rings, none]

theorem owedStart_writes (owed : (s.rings p).startPending = true) (runs : s.runs = true) :
    (s.bringUp p).owedStart p = (s.bringUp p).writeStart p := by
  obtain ⟨up, runs', rings⟩ := bringUp_up s p
  simp [State.owedStart, rings, owed, up, runs', runs]

end

/-- Settles O28: the frames of T4 by what they set, the rows by `alignRow_maps` and `alignRow_bringsUp`. That a resume drops the
frames below the far end's next expected and takes the resend count back to 0 is the model's reading of R298. -/
theorem trainingEnds : Obligations.TrainingEnds := by
  refine ⟨fun p s t4 edges => ⟨_, parametersFrameInterval_sends t4 edges, sendParams_linkBecomes s p⟩,
    fun p body s t4 edges good => linkParametersFrame_takes t4 edges good,
    fun p row inv lanes s phase edges hinv hlanes ok => ⟨_, alignRow_maps phase edges hinv hlanes ok, ?_⟩,
    fun p row s t4 edges ok paramsSent farPeerSeen => ?_⟩
  · rw [setLink_link]
    obtain ⟨laneMap, inverted, aligned⟩ := advance_lanes { s.link p with
      inverted := inv, laneMap := lanes, aligned := (s.link p).aligned || (s.link p).phase == .t3 } (s.lanes p)
    exact ⟨rfl, laneMap, inverted, aligned⟩
  · have up := alignRow_bringsUp t4 edges ok paramsSent farPeerSeen
    refine ⟨fun none => ?_, fun owed runs => ?_⟩
    · rw [owedStart_none none] at up
      exact ⟨fun fresh => ⟨_, up, bringUp_fresh fresh⟩, fun trained => ⟨_, up, bringUp_resumed trained⟩⟩
    · rw [up, owedStart_writes owed runs]

/-! ### Link control blocks (R285, R291 to R295) -/

section
variable {s : State} {p : Port} (up : s.linkUp p = true)
include up

theorem ack_frees {b : LinkBlock} (ok : linkBlockOk 1 b = true) :
    exec (.ack p b) s = .next ((s.modLink p fun l => l.ackUpTo (b.value.truncate 12)).pump p) := by
  rw [exec, execAck, up, ok]
  rfl

theorem nak_resends {b : LinkBlock} (ok : linkBlockOk 2 b = true) : exec (.nak p b) s =
    .next (((s.modLink p fun l => l.ackUpTo (b.value.truncate 12)).resendAll p).pump p) := by
  rw [exec, execNak, up, ok]
  rfl

theorem credit_grants {b : LinkBlock} (ok : linkBlockOk 3 b = true) : exec (.credit p b) s =
    .next ((s.modLink p fun l => l.grant (bits b.value.toNat 1 0) b.count).pump p) := by
  rw [exec, execCredit, up, ok]
  rfl

theorem ackRepeat_repeats : exec (.ackRepeat p) s = .next (s.sayAck p) := by
  rw [exec, execAckRepeat, if_pos up]

theorem creditRepeat_repeats : exec (.creditRepeat p) s = .next (s.sayLink p 3 0 (s.link p).doorbells) := by
  rw [exec, execCreditRepeat, if_pos up]

end

/-- An acknowledgement frees the frames up to its number; the resend count starts again where it frees one (R292). -/
theorem ackUpTo_eq (l : HostLink) (seq : BitVec 12) : l.ackUpTo seq = { l with
    replay := l.replay.filter fun f => decide (2048 ≤ (seq - f.seq).toNat)
    resends := if ∃ f ∈ l.replay, (seq - f.seq).toNat < 2048 then 0 else l.resends } := by
  have kept (f : Frame) : (!acked seq f) = decide (2048 ≤ (seq - f.seq).toNat) := by
    rw [acked, ← decide_not]
    simp only [Nat.not_lt]
  have frees : l.replay.any (acked seq) = true ↔ ∃ f ∈ l.replay, (seq - f.seq).toNat < 2048 := by simp [acked]
  unfold HostLink.ackUpTo
  by_cases h : ∃ f ∈ l.replay, (seq - f.seq).toNat < 2048
  · rw [if_pos (frees.2 h), if_pos h]
    simp only [kept]
  · rw [if_neg (h ∘ frees.1), if_neg h]
    have all : l.replay.filter (fun f => decide (2048 ≤ (seq - f.seq).toNat)) = l.replay := by
      refine List.filter_eq_self.2 fun f mem => decide_eq_true ?_
      exact Nat.le_of_not_lt fun low => h ⟨f, mem, low⟩
    rw [all]

theorem nth_setNth {α : Type} (d : α) (l : List α) (k i : Nat) (v : α) :
    nth d (setNth l k v) i = if i = k ∧ k < l.length then v else nth d l i := by
  induction l generalizing k i with
  | nil => simp [setNth, nth]
  | cons x l ih =>
    cases k with
    | zero => cases i <;> simp [setNth, nth]
    | succ k =>
      cases i with
      | zero => simp [setNth, nth]
      | succ i => simpa [setNth, nth] using ih k i

/-- CREDIT sets the total of its class where that is not behind and at most 32,768 ahead, and no other (R294). -/
theorem grant_sets {l : HostLink} (three : l.granted.length = 3) {cls n : Nat} {count : BitVec 16} (low : 1 ≤ cls) (high : cls ≤ 3)
    (hn : n = (count - nth 0 l.consumed (cls - 1)).toNat) :
    l.grant cls count = { l with granted := (l.grant cls count).granted } ∧
    nth 0 (l.grant cls count).granted (cls - 1) =
      (if n ≤ 32768 ∧ l.credit (cls - 1) ≤ n then count else nth 0 l.granted (cls - 1)) ∧
    ∀ i, i ≠ cls - 1 → nth 0 (l.grant cls count).granted i = nth 0 l.granted i := by
  have named : cls ≠ 0 := by omega
  have within : cls - 1 < l.granted.length := by omega
  simp only [HostLink.grant, if_neg named, ← hn, Bool.and_eq_true, decide_eq_true_eq]
  split
  · refine ⟨rfl, ?_, fun i other => ?_⟩
    · rw [nth_setNth, if_pos ⟨rfl, within⟩]
    · rw [nth_setNth, if_neg fun same => other same.1]
  · exact ⟨rfl, rfl, fun _ _ => rfl⟩

/-- Settles O29: each block by what it makes of the link layer, what ACK and CREDIT then do by `ackUpTo_eq` and `grant_sets`. -/
theorem linkControlBlocks : Obligations.LinkControlBlocks := by
  refine ⟨fun p b s up ok => ⟨_, ack_frees up ok, ?_⟩, fun l seq => ?_, fun p b s l up ok acked => ⟨_, nak_resends up ok, ?_⟩,
    fun p b s up ok => ⟨_, credit_grants up ok, ?_⟩, fun l cls n count three low high hn => grant_sets three low high hn,
    fun p s up => ⟨⟨_, ackRepeat_repeats up, ?_⟩, ⟨_, creditRepeat_repeats up, ?_⟩⟩⟩
  · exact ((LinkBecomes.refl s p).modLink rfl).pump
  · rw [ackUpTo_eq]
    exact ⟨rfl, rfl, rfl⟩
  · have freed : LinkBecomes s (s.modLink p fun l => l.ackUpTo (b.value.truncate 12)) p l [] :=
      (LinkBecomes.refl s p).modLink (congrArg HostLink.offWire acked)
    exact freed.resendAll.pump
  · exact ((LinkBecomes.refl s p).modLink rfl).pump
  · exact (LinkBecomes.refl s p).sayAck
  · exact (LinkBecomes.refl s p).sayLink 3 0 _

/-! ### Replay intervals (R292, R299) -/

section
variable {s : State} {p : Port} (up : s.linkUp p = true) (waits : (s.link p).replay ≠ [])
include up waits

theorem replayInterval_resends (few : (s.link p).resends < 4) : exec (.replayInterval p) s = .next (s.resendAll p) := by
  simp [exec, execReplayInterval, up, waits, few]

theorem replayInterval_retrains (many : 4 ≤ (s.link p).resends) : exec (.replayInterval p) s = .next (s.retrainPort p 3) := by
  simp [exec, execReplayInterval, up, waits, many]

end

/-- Settles O30: below four resends by `LinkBecomes.resendAll`, then by `LinkBecomes.retrainPort`. -/
theorem replayIntervals : Obligations.ReplayIntervals := by
  intro p s up waits
  have same := LinkBecomes.refl s p
  refine ⟨fun few => ⟨_, replayInterval_resends up waits few, ?_⟩,
    fun many => ⟨_, replayInterval_retrains up waits many, same.retrainPort 3⟩⟩
  have resent := same.resendAll
  rwa [if_neg waits] at resent

end Sys2Proof.Machine
end

section
/-! SUPPORT. The items of a queue (Tables 14.8, 17.2): the next item acts by its body, and what each one starts or completes with. -/

namespace Sys2Proof.Machine

/-- The next item of a queue acts by its body; nothing happens where the action does not come about. -/
theorem onItem_next {s : State} {p : Port} {q : Fin 512} {i : Item} {b : ItemBody} (next : s.nextItem p q = some (i, some b))
    (act : Item → ItemBody → Option State) : s.onItem p q act = (act i b).getD s := by
  rw [State.onItem, next]

theorem channelItem_own {s : State} {p : Port} {c : ChanId} (own : s.ownChannel p c = true) (q : Fin 512) (i : Item)
    (act : State → Option State) : s.channelItem p q i c act = act (s.startItem p q i.index) := by
  rw [State.channelItem, if_pos own]

/-- A channel item on a channel of the other port completes with result 1 (R326). -/
theorem channelItem_foreign {s : State} {p : Port} {c : ChanId} (foreign : s.ownChannel p c = false) (q : Fin 512) (i : Item)
    (act : State → Option State) :
    s.channelItem p q i c act = some ((s.startItem p q i.index).result p q i.index 1 0 0) := by
  rw [State.channelItem, if_neg (ne_true_of_eq_false foreign)]

/-! ### Maintenance items -/

section
variable {s : State} {p : Port} {q : Fin 512} {i : Item}

theorem malformedItem_completes (next : s.nextItem p q = some (i, none)) :
    exec (.malformedItem p q) s = .next ((s.startItem p q i.index).complete p q i.index 0x01 0 none) := by
  rw [exec, execMalformedItem, next]

theorem faultClear_clears {first last : Nat} (next : s.nextItem p q = some (i, some (.faultClear first last))) :
    exec (.faultClear p q) s = .next ((clearSources ((List.range 0x39B).filter fun k =>
      decide (first ≤ k) && decide (k ≤ last) && k != 0x398) (s.startItem p q i.index)).releaseErr.result p q i.index 0 0 0) := by
  rw [exec, execFaultClear, onItem_next next]
  dsimp only [Option.getD_some]

theorem faultAcknowledge_stops {src : Nat} (next : s.nextItem p q = some (i, some (.faultAcknowledge src))) {r : Reaction}
    (grace : (s.startItem p q i.index).graceOf src = some r) : exec (.faultAcknowledge p q) s =
      .next (((s.startItem p q i.index).acknowledge r src).result p q i.index 0 0 0) := by
  rw [exec, execFaultAcknowledge, onItem_next next]
  simp only [grace, Option.getD_some]

theorem faultAcknowledge_findsNone {src : Nat} (next : s.nextItem p q = some (i, some (.faultAcknowledge src)))
    (grace : (s.startItem p q i.index).graceOf src = none) : exec (.faultAcknowledge p q) s =
      .next ((s.startItem p q i.index).result p q i.index
        (if (s.startItem p q i.index).wasAcknowledged src then 7 else 2) 0 0) := by
  rw [exec, execFaultAcknowledge, onItem_next next]
  simp only [grace, Option.getD_some]

theorem calibrate_addsTask {point : Nat} {store : Bool} {channels : BitVec 64} {ports : BitVec 2}
    (next : s.nextItem p q = some (i, some (.calibrate point store channels ports))) :
    exec (.calibrate p q) s = .next { s.startItem p q i.index with tasks := s.tasks ++
      [newTask (.calibration point store channels ports) (itemOrigin p q i) s.clock.sf] } := by
  rw [exec, execCalibrate, onItem_next next]
  rfl

theorem soundCable_addsTask {c : ChanId} {mode : Nat} (next : s.nextItem p q = some (i, some (.sound c mode))) :
    exec (.soundCable p q) s = .next (if s.ownChannel p c then { s.startItem p q i.index with tasks := s.tasks ++
        [newTask (.sounding c mode) (itemOrigin p q i) s.clock.sf] }
      else (s.startItem p q i.index).result p q i.index 1 0 0) := by
  rw [exec, execSoundCable, onItem_next next]
  cases own : s.ownChannel p c with
  | true =>
    dsimp only
    rw [channelItem_own own]
    rfl
  | false =>
    dsimp only
    rw [channelItem_foreign own]
    rfl

theorem enterDormant_accepts {k : DormantKind} (next : s.nextItem p q = some (i, some (.dormant k))) :
    exec (.enterDormant p q) s = .next (if s.asleep && s.entry.isNone then { s.startItem p q i.index with
        entry := some { kind := k, queue := (p, q), item := i.index, written := false, acked := none } }
      else (s.startItem p q i.index).result p q i.index 2 0 0) := by
  rw [exec, execEnterDormant, onItem_next next]
  cases s.asleep && s.entry.isNone <;> rfl

theorem inject_refused {k port chan : Nat} (next : s.nextItem p q = some (i, some (.inject k port chan)))
    (off : s.par 0x0A5E ≠ 1) : exec (.injectCheckInversion p q) s =
      .next ((s.startItem p q i.index).result p q i.index 4 0 0) := by
  rw [exec, execInjectCheckInversion, onItem_next next]
  simp [off]

theorem inject_arms {k port chan : Nat} (next : s.nextItem p q = some (i, some (.inject k port chan)))
    (on : s.par 0x0A5E = 1) (free : (s.faults.armed.any fun a => a.1 == k) = false) :
    exec (.injectCheckInversion p q) s = .next { s.startItem p q i.index with faults := { s.faults with
      armed := s.faults.armed ++ [(k, injectField k port chan, p, q, i.index, s.clock.sf)] } } := by
  rw [exec, execInjectCheckInversion, onItem_next next]
  simp only [on, free]
  rfl

end

/-- Settles O39: each item by what it starts. That an enter-dormant item also completes with 2 while another entry is under way is
log entry 58. -/
theorem maintenanceItemsAct : Obligations.MaintenanceItemsAct :=
  fun _ _ _ _ => ⟨malformedItem_completes, fun _ _ => faultClear_clears,
    fun _ next => ⟨fun _ => faultAcknowledge_stops next, faultAcknowledge_findsNone next⟩,
    fun _ _ _ _ => calibrate_addsTask, fun _ _ => soundCable_addsTask, fun _ => enterDormant_accepts,
    fun _ _ _ next => ⟨inject_refused next, inject_arms next⟩⟩

/-! ### Channel items -/

section
variable {s : State} {p : Port} {q : Fin 512} {i : Item} {c : ChanId}

theorem channelUp_foreign {w : Option (BitVec 16 × Bytes)} (foreign : s.ownChannel p c = false)
    (next : s.nextItem p q = some (i, some (.up c w))) :
    exec (.channelUp p q) s = .next ((s.startItem p q i.index).result p q i.index 1 0 0) := by
  rw [exec, execChannelUp, onItem_next next]
  dsimp only
  rw [channelItem_foreign foreign, Option.getD_some]

theorem channelDown_foreign (foreign : s.ownChannel p c = false) (next : s.nextItem p q = some (i, some (.down c))) :
    exec (.channelDown p q) s = .next ((s.startItem p q i.index).result p q i.index 1 0 0) := by
  rw [exec, execChannelDown, onItem_next next]
  dsimp only
  rw [channelItem_foreign foreign, Option.getD_some]

theorem channelQuiet_foreign (foreign : s.ownChannel p c = false) (next : s.nextItem p q = some (i, some (.quiet c))) :
    exec (.channelQuiet p q) s = .next ((s.startItem p q i.index).result p q i.index 1 0 0) := by
  rw [exec, execChannelQuiet, onItem_next next]
  dsimp only
  rw [channelItem_foreign foreign, Option.getD_some]

theorem channelSleep_foreign (foreign : s.ownChannel p c = false) (next : s.nextItem p q = some (i, some (.sleep c))) :
    exec (.channelSleep p q) s = .next ((s.startItem p q i.index).result p q i.index 1 0 0) := by
  rw [exec, execChannelSleep, onItem_next next]
  dsimp only
  rw [channelItem_foreign foreign, Option.getD_some]

variable (own : s.ownChannel p c = true) {t : State} (started : t = s.startItem p q i.index)
include own started

theorem channelUp_own {w : Option (BitVec 16 × Bytes)} (next : s.nextItem p q = some (i, some (.up c w))) :
    exec (.channelUp p q) s = .next
      (if (t.chan c).quarantined then t.result p q i.index 2 0 0
       else if (t.chan c).down then (t.modQuiet c fun x => { x with mode := false }).bringChannelUp c w p q i.index
       else (t.modQuiet c fun x => { x with mode := false }).result p q i.index 7 0 0) := by
  rw [exec, execChannelUp, onItem_next next]
  dsimp only
  rw [channelItem_own own, ← started]
  split
  · rfl
  · split <;> rfl

theorem channelDown_own (next : s.nextItem p q = some (i, some (.down c))) (free : (t.chan c).wake.downItem = none) :
    exec (.channelDown p q) s = .next
      (if (t.chan c).stands .off && (t.chan c).wake.sending.isNone then t.result p q i.index 7 0 0
       else (((t.stopSending c).modQuiet c fun y => { y with mode := false }).modWake c fun w =>
         { w with downItem := some (p, q, i.index), falseSince := none }).leave c .off 2) := by
  rw [exec, execChannelDown, onItem_next next]
  dsimp only
  rw [channelItem_own own, ← started, if_neg (by simp [free])]
  split <;> rfl

theorem channelQuiet_own (next : s.nextItem p q = some (i, some (.quiet c))) : exec (.channelQuiet p q) s = .next
    (if (t.chan c).link = .off ∨ (t.chan c).link = .quarantine then t.result p q i.index 2 0 0
     else if (t.chan c).quiet.mode then t.result p q i.index 7 0 0
     else (t.modQuiet c fun y => { y with mode := true }).result p q i.index 0 0 0) := by
  rw [exec, execChannelQuiet, onItem_next next]
  dsimp only
  rw [channelItem_own own, ← started]
  simp only [Bool.or_eq_true, decide_eq_true_eq]
  split
  · rfl
  · split <;> rfl

theorem channelSleep_own (next : s.nextItem p q = some (i, some (.sleep c))) (free : (t.chan c).wake.sleepItem = none) :
    exec (.channelSleep p q) s = .next
      (if (t.chan c).link = .hold ∨ (t.chan c).link = .quarantine then t.result p q i.index 2 0 0
       else if (t.chan c).stands .sleep && (t.chan c).wake.sending.isNone then t.result p q i.index 7 0 0
       else ((t.stopSending c).modWake c fun w =>
         { w with sleepItem := some (p, q, i.index), falseSince := none }).sleepChannel c) := by
  rw [exec, execChannelSleep, onItem_next next]
  dsimp only
  rw [channelItem_own own, ← started, if_neg (by simp [free])]
  simp only [Bool.or_eq_true, decide_eq_true_eq]
  split
  · rfl
  · split <;> rfl

end

/-- Settles O40: on a channel of the other port by `channelItem_foreign`, on an own one by what each item starts. That channel-up ends
quiet mode also where it completes with 7, and channel-down the wake frames under way, is log entry 54; result 2 in QUARANTINE is R432. -/
theorem channelItemsAct : Obligations.ChannelItemsAct :=
  fun _ _ _ _ _ _ started => started ▸ ⟨fun foreign ⟨_, next⟩ => channelUp_foreign foreign next, channelDown_foreign,
    channelQuiet_foreign, channelSleep_foreign,
    fun own => ⟨fun _ => channelUp_own own rfl, channelDown_own own rfl, channelQuiet_own own rfl, channelSleep_own own rfl⟩⟩

/-! ### The margin override (R470) -/

/-- Completing an item leaves the channels and the image. -/
theorem result_chan (s : State) (p : Port) (q : Fin 512) (item : BitVec 32) (result status extra : Nat) (d : ChanId) :
    (s.result p q item result status extra).chan d = s.chan d :=
  SameChans.chan (chans_result (SameChans.refl s)) d

theorem result_elem (s : State) (p : Port) (q : Fin 512) (item : BitVec 32) (result status extra id k : Nat) :
    (s.result p q item result status extra).elem id k = s.elem id k := by
  rw [State.elem, (within_result (Within.refl s)).image, State.elem]

/-- A margin override item has completed with a result, after the override was set. -/
def State.overridden (s : State) (p : Port) (q : Fin 512) (item : BitVec 32) (c : ChanId) (v : Option Nat) : State :=
  (s.modChan c fun x => { x with load := { x.load with override := v } }).result p q item 0 0 0

theorem overridden_chan (s : State) (p : Port) (q : Fin 512) (item : BitVec 32) (c : ChanId) (v : Option Nat) (d : ChanId) :
    (s.overridden p q item c v).chan d =
      if d = c then { s.chan c with load := { (s.chan c).load with override := v } } else s.chan d := by
  rw [State.overridden, result_chan, modChan_chan_if]

theorem overridden_elem (s : State) (p : Port) (q : Fin 512) (item : BitVec 32) (c : ChanId) (v : Option Nat) (id k : Nat) :
    (s.overridden p q item c v).elem id k = s.elem id k :=
  result_elem ..

section
variable {s : State} {p : Port} {q : Fin 512} {i : Item} {c : ChanId} {m : Nat}
  (next : s.nextItem p q = some (i, some (.margin c m))) (own : s.ownChannel p c = true)
include next own

theorem marginOverride_clears (all : m = 0xFFFF) : exec (.marginOverride p q) s =
    .next ((s.startItem p q i.index).overridden p q i.index c none) := by
  rw [exec, execMarginOverride, onItem_next next]
  dsimp only
  rw [channelItem_own own, if_pos all]
  rfl

theorem marginOverride_sets (part : m ≠ 0xFFFF) (low : s.elem 0x0308 c ≤ m) (high : m ≤ s.elem 0x0309 c) :
    exec (.marginOverride p q) s = .next ((s.startItem p q i.index).overridden p q i.index c (some m)) := by
  have within : ((s.startItem p q i.index).elem 0x0308 c ≤ m && m ≤ (s.startItem p q i.index).elem 0x0309 c) = true := by
    have startElem (k : Nat) : (s.startItem p q i.index).elem k c = s.elem k c := rfl
    simp only [startElem, Bool.and_eq_true, decide_eq_true_eq]
    exact ⟨low, high⟩
  rw [exec, execMarginOverride, onItem_next next]
  dsimp only
  rw [channelItem_own own, if_neg part, if_pos within]
  rfl

theorem marginOverride_refuses (part : m ≠ 0xFFFF) (outside : m < s.elem 0x0308 c ∨ s.elem 0x0309 c < m) :
    exec (.marginOverride p q) s = .next ((s.startItem p q i.index).result p q i.index 3 0 0) := by
  have beyond : ¬((s.startItem p q i.index).elem 0x0308 c ≤ m && m ≤ (s.startItem p q i.index).elem 0x0309 c) = true := by
    have startElem (k : Nat) : (s.startItem p q i.index).elem k c = s.elem k c := rfl
    simp only [startElem, Bool.and_eq_true, decide_eq_true_eq]
    omega
  rw [exec, execMarginOverride, onItem_next next]
  dsimp only
  rw [channelItem_own own, if_neg part, if_neg beyond]
  rfl

end

/-- Settles O41: by where the value lies, what then stands by `overridden_chan`. -/
theorem marginOverrideHeld : Obligations.MarginOverrideHeld := by
  rintro p q c m s i t next own rfl
  have set (v : Option Nat) (e : exec (.marginOverride p q) s =
      .next ((s.startItem p q i.index).overridden p q i.index c v)) : ∃ u, exec (.marginOverride p q) s = .next u ∧
        u = (s.startItem p q i.index).overridden p q i.index c v ∧
        u.marginM c = v.getD (s.elem 0x0307 c) ∧ (∀ d, d ≠ c → u.chan d = s.chan d) ∧
        u.chan c = { s.chan c with load := { (s.chan c).load with override := (u.chan c).load.override } } := by
    refine ⟨_, e, rfl, ?_, fun d other => ?_, ?_⟩
    · rw [State.marginM, overridden_chan, if_pos rfl, overridden_elem]
      rfl
    · rw [overridden_chan, if_neg other]
      rfl
    · rw [overridden_chan, if_pos rfl]
      rfl
  by_cases all : m = 0xFFFF
  · obtain ⟨u, e, is, margin, others, own'⟩ := set none (marginOverride_clears next own all)
    exact ⟨u, e, fun _ => ⟨margin, is⟩, fun part => absurd all part, fun part => absurd all part, others, own'⟩
  by_cases within : s.elem 0x0308 c ≤ m ∧ m ≤ s.elem 0x0309 c
  · obtain ⟨u, e, is, margin, others, own'⟩ := set (some m) (marginOverride_sets next own all within.1 within.2)
    exact ⟨u, e, fun whole => absurd whole all, fun _ _ _ => ⟨margin, is⟩, fun _ outside => by omega, others, own'⟩
  · have outside : m < s.elem 0x0308 c ∨ s.elem 0x0309 c < m := by omega
    refine ⟨_, marginOverride_refuses next own all outside, fun whole => absurd whole all,
      fun _ low high => absurd ⟨low, high⟩ within, fun _ _ => ⟨?_, rfl⟩, fun d _ => result_chan .., ?_⟩
    · rw [State.marginM, result_chan, result_elem]
      rfl
    · rw [result_chan]
      rfl

/-! ### Receive items -/

/-- Settles O44: the item starts, by `State.startItem`. -/
theorem receiveItemsWait : Obligations.ReceiveItemsWait := by
  intro p q s i a b c next
  rw [exec, execReceiveItem, next]
  rfl

/-! ### Stream items (R400 to R414) -/

section
variable {s t : State} {p : Port} {q : Fin 512} {i : Item} (started : t = s.startItem p q i.index)
include started

theorem streamStart_starts {lead : Nat} {reserve : BitVec 64}
    (next : s.nextItem p q = some (i, some (.streamStart lead reserve))) : exec (.streamStart p q) s = .next
      (if (s.role p q).stream = 3 then
        (t.modStream p q fun x => { x with withdrawn := false }).complete p q i.index 0x00 0 none
       else if (s.queue p q).stream.running then t.complete p q i.index 0x15 0 none
       else (t.modStream p q fun x => { x with
        running := true, start := s.clock.sf, lead := lead, nextSlot := 0, dueSlot := 0, episode := 0, slots := [],
        reserveAddr := reserve, reservePos := 0, episodeOpen := false, frames := 0 }).complete p q i.index 0 0 none) := by
  rw [exec, execStreamStart, onItem_next next]
  dsimp only
  rw [← started]
  split
  · rfl
  · split <;> rfl

theorem streamBuffer_claims {a : BitVec 64} {n : Nat} (next : s.nextItem p q = some (i, some (.streamBuffer a n))) :
    exec (.streamBuffer p q) s = .next
      (t.modStream p q fun x => if (s.role p q).stream == 1 && x.running then
        { x with slots := x.slots ++ [(x.nextSlot, i.index)], nextSlot := x.nextSlot + 1 } else x) := by
  rw [exec, execStreamBuffer, State.takeBuffer, onItem_next next, started]
  rfl

theorem streamStop_stops (next : s.nextItem p q = some (i, some .streamStop)) : exec (.streamStop p q) s = .next
    (if (s.queue p q).stream.running then
      (t.modStream p q fun x => { x with running := false }).complete p q i.index 0x00 0 none
     else t.complete p q i.index 0x15 0 none) := by
  rw [exec, execStreamStop, onItem_next next]
  dsimp only
  rw [← started]
  split <;> rfl

theorem reserveRelease_closed (next : s.nextItem p q = some (i, some .reserveRelease))
    (shut : (s.queue p q).stream.episodeOpen = false) :
    exec (.reserveRelease p q) s = .next (t.complete p q i.index 0x15 0 none) := by
  rw [exec, execReserveRelease, onItem_next next]
  dsimp only
  rw [← started, shut]
  rfl

/-- An open episode ends: the partner is told where the stream has one, and the event is recorded (R411). -/
theorem reserveRelease_ends (next : s.nextItem p q = some (i, some .reserveRelease))
    (episode : (s.queue p q).stream.episodeOpen = true) (idle : s.inReserve p q = false) (c : Option ChanId)
    (chan : (s.queue p q).stream.chan = c) : exec (.reserveRelease p q) s = .next
      (((c.elim (t.modStream p q fun y => { y with episodeOpen := false, reservePos := 0 }) fun c =>
        (t.modStream p q fun y => { y with episodeOpen := false, reservePos := 0 }).signal c 5 0 0 0 q).streamRecord p q
          ⟨5, c.elim 0 Fin.val, (s.queue p q).stream.frames, 0, 0, 0, 0, 0, 0⟩).complete p q i.index 0x00 0 none) := by
  rw [exec, execReserveRelease, onItem_next next]
  dsimp only
  rw [← started, episode, idle, chan]
  cases c <;> rfl

end

/-- Settles O45: each item by what it makes of the stream's timeline. -/
theorem streamItemsAct : Obligations.StreamItemsAct :=
  fun _ _ _ _ _ started => ⟨fun _ _ => streamStart_starts started, fun _ _ => streamBuffer_claims started,
    streamStop_stops started, fun next => ⟨reserveRelease_closed started next,
      fun episode idle => ⟨fun c => reserveRelease_ends started next episode idle (some c),
        reserveRelease_ends started next episode idle none⟩⟩⟩

end Sys2Proof.Machine
end

section
/-! SUPPORT. Sending on a host link, frame by frame (R287, R288, R293, R294, R300): the order of the numbers and the bounds that hold. -/

namespace Sys2Proof.Machine

/-- Frames numbered consecutively from a sequence number on. -/
def Numbered (n : BitVec 12) (sent : List Frame) : Prop :=
  ∀ i (h : i < sent.length), sent[i].seq = n + BitVec.ofNat 12 i

theorem Numbered.append {n : BitVec 12} {a b : List Frame} (ha : Numbered n a) (hb : Numbered (n + BitVec.ofNat 12 a.length) b) :
    Numbered n (a ++ b) := by
  intro i low
  rw [List.getElem_append]
  split
  · next within => exact ha i within
  · next beyond =>
    rw [hb, BitVec.add_assoc, ← BitVec.ofNat_add, Nat.add_sub_cancel' (Nat.le_of_not_lt beyond)]

/-- Frames have gone out behind those in the replay buffer, within the bounds of R288 and the credits of R294; reads in flight keep
their tags (R300). -/
structure SentWithin (l m : HostLink) : Prop where
  frames : l.replay.length ≤ 2048 → m.replay.length ≤ 2048
  space : l.used ≤ 65536 → m.used ≤ 65536
  behind : ∃ sent, m.replay = l.replay ++ sent ∧ Numbered l.nextSeq sent ∧ m.nextSeq = l.nextSeq + BitVec.ofNat 12 sent.length
  credit : ∀ i < 3, m.credit i ≤ l.credit i
  tags : (l.reads.map (·.tag)).Nodup → (m.reads.map (·.tag)).Nodup
  reads : l.reads <+: m.reads

namespace SentWithin

/-- The transactions that wait are of no account. -/
theorem waits (l : HostLink) (ws : List Wait) : SentWithin l { l with waiting := ws } :=
  ⟨id, id, ⟨[], by simp [Numbered]⟩, fun _ _ => Nat.le_refl _, id, List.prefix_rfl⟩

theorem trans {l m n : HostLink} (h : SentWithin l m) (k : SentWithin m n) : SentWithin l n := by
  obtain ⟨a, kept, numbered, next⟩ := h.behind
  obtain ⟨b, kept', numbered', next'⟩ := k.behind
  refine ⟨k.frames ∘ h.frames, k.space ∘ h.space, ⟨a ++ b, ?_, numbered.append (next ▸ numbered'), ?_⟩,
    fun i low => Nat.le_trans (k.credit i low) (h.credit i low), k.tags ∘ h.tags, h.reads.trans k.reads⟩
  · rw [kept', kept, List.append_assoc]
  · rw [next', next, BitVec.add_assoc, ← BitVec.ofNat_add, List.length_append]

end SentWithin

/-- What a frame that may be sent finds: space in the buffer and credits for it. -/
theorem maySend_finds {l : HostLink} {kind data : Nat} {body : Bytes} (may : l.maySend kind body data = true) :
    (l.phase = .up ∧ l.clockStopped = false) ∧ l.replay.length < 2048 ∧ l.used + frameSize body ≤ 65536 ∧
    (frameCost kind data).1 ≤ l.credit 0 ∧ (frameCost kind data).2.1 ≤ l.credit 1 ∧ (frameCost kind data).2.2 ≤ l.credit 2 := by
  simpa [HostLink.maySend, and_assoc] using may

/-- Consuming no more than the credit leaves no more credit than before. -/
theorem consume_le {granted consumed : BitVec 16} {n : Nat} (enough : n ≤ (granted - consumed).toNat) :
    (granted - (consumed + BitVec.ofNat 16 n)).toNat ≤ (granted - consumed).toNat := by
  bv_omega

theorem used_sendFrame (l : HostLink) (kind data : Nat) (body : Bytes) :
    (l.sendFrame kind body data).used = l.used + frameSize body := by
  simp [HostLink.used, HostLink.sendFrame]

/-- A frame that may be sent is sent within the bounds. -/
theorem sendFrame_within {l : HostLink} {kind data : Nat} {body : Bytes} (may : l.maySend kind body data = true) :
    SentWithin l (l.sendFrame kind body data) := by
  obtain ⟨-, few, space, header, payload, nonPosted⟩ := maySend_finds may
  refine ⟨fun _ => ?_, fun _ => (used_sendFrame ..).trans_le space, ⟨[⟨kind, l.nextSeq, body⟩], rfl, fun i low => ?_, rfl⟩, fun i low => ?_,
    id, List.prefix_rfl⟩
  · simpa [HostLink.sendFrame] using few
  · obtain rfl : i = 0 := by simpa using low
    simp
  · match i with
    | 0 => exact consume_le header
    | 1 => exact consume_le payload
    | 2 => exact consume_le nonPosted

/-- A free tag is one that no read in flight has (R300). -/
theorem freeTag_free {l : HostLink} {n t tag : Nat} (free : l.freeTag n t = some tag) : tag < t + n ∧ l.tagBusy tag = false := by
  induction n generalizing t with
  | zero => simp [HostLink.freeTag] at free
  | succ n ih =>
    rw [HostLink.freeTag] at free
    split at free
    · obtain ⟨low, idle⟩ := ih free
      exact ⟨by omega, idle⟩
    · next idle =>
      obtain rfl := Option.some.inj free
      exact ⟨by omega, eq_false_of_ne_true idle⟩

/-- A read with a free tag joins those in flight. -/
theorem nodup_tags_concat {l : HostLink} {r : HostRead} {tag : Nat} (free : l.freeTag 1024 0 = some tag) (is : r.tag = BitVec.ofNat 16 tag)
    (distinct : (l.reads.map (·.tag)).Nodup) : ((l.reads ++ [r]).map (·.tag)).Nodup := by
  obtain ⟨low, idle⟩ := freeTag_free free
  have value : r.tag.toNat = tag := by
    rw [is, BitVec.toNat_ofNat]
    omega
  have other : ∀ x ∈ l.reads, x.tag ≠ r.tag := fun x flies same => by
    simp only [HostLink.tagBusy, Bool.or_eq_false_iff, List.any_eq_false, beq_iff_eq] at idle
    exact idle.1 x flies (same ▸ value)
  rw [List.map_append, List.nodup_append]
  refine ⟨distinct, by simp, fun a mem b is => ?_⟩
  obtain ⟨x, flies, rfl⟩ := List.mem_map.1 mem
  obtain rfl : b = r.tag := by simpa using is
  exact other x flies

/-- A transaction goes out within the bounds, on a link that is up. -/
theorem trySend_within {t : Nat} {l m : HostLink} {w : Wait} (h : l.trySend t w = some m) :
    SentWithin l m ∧ l.phase = .up ∧ l.clockStopped = false := by
  cases w with
  | read addr len why =>
    simp only [HostLink.trySend] at h
    split at h
    · cases h
    · next tag free =>
      obtain ⟨may, ⟨⟩⟩ := Option.ite_none_right_eq_some.1 h
      obtain ⟨frames, space, behind, credit, -, -⟩ := sendFrame_within may
      exact ⟨⟨frames, space, behind, credit, nodup_tags_concat free rfl, List.prefix_append ..⟩, (maySend_finds may).1⟩
  | write | event | reply =>
    simp only [HostLink.trySend] at h
    obtain ⟨may, ⟨⟩⟩ := Option.ite_none_right_eq_some.1 h
    exact ⟨sendFrame_within may, (maySend_finds may).1⟩

theorem pumpList_within (t : Nat) (ws : List Wait) (l : HostLink) : SentWithin l (HostLink.pumpList t ws l) := by
  induction ws generalizing l with
  | nil => exact .waits l []
  | cons w ws ih =>
    simp only [HostLink.pumpList]
    split
    · next m sent => exact (trySend_within sent).1.trans (ih m)
    · exact .waits l _

/-- On a link that is not up nothing goes out. -/
theorem pumpList_down (t : Nat) (ws : List Wait) {l : HostLink} (down : l.phase ≠ .up ∨ l.clockStopped = true) :
    HostLink.pumpList t ws l = { l with waiting := ws } := by
  cases ws with
  | nil => rfl
  | cons w ws =>
    simp only [HostLink.pumpList]
    split
    · next m sent =>
      obtain ⟨-, up, ticks⟩ := trySend_within sent
      simp [up, ticks] at down
    · rfl

/-- Settles O31: `pumpList_within`, an induction on what waits, and `pumpList_down`. -/
theorem sendingKeepsLimits : Obligations.SendingKeepsLimits := by
  refine ⟨fun n l few space => ?_, fun n l distinct => ?_, fun n l down => pumpList_down n l.waiting down⟩
  · have sent := pumpList_within n l.waiting l
    exact ⟨sent.frames few, sent.space space, sent.behind, sent.credit⟩
  · have sent := pumpList_within n l.waiting l
    exact ⟨sent.tags distinct, sent.reads⟩

end Sys2Proof.Machine
end

section
/-! SUPPORT. A sequenced frame by its number (R287, R289 to R291), a bad one and one that is not acted on, and how a host read ends
(R300). -/

namespace Sys2Proof.Machine

/-! ### The frame that is not the expected one -/

namespace LinkBecomes

variable {s t : State} {p : Port} {l : HostLink} {sent : List Out} (h : LinkBecomes s t p l sent)
include h

theorem faults : t.faults = s.faults := by
  rw [h.rest]
  cases p <;> rfl

theorem queues : t.queues = s.queues := by
  rw [h.rest]
  cases p <;> rfl

theorem transport : t.transport = s.transport := by
  rw [h.rest]
  cases p <;> rfl

theorem source (k : Nat) : t.source k = s.source k := by rw [State.source, h.faults, State.source]

/-- One NAK goes out until a frame is accepted (R289). -/
theorem sayNak : LinkBecomes s (t.sayNak p) p { l with nakSent := true }
    (sent ++ if l.nakSent then [] else [.link p 2 ((l.expected - 1).zeroExtend 16) 0]) := by
  unfold State.sayNak
  rw [h.field HostLink.nakSent fun _ => rfl, h.field HostLink.expected fun _ => rfl]
  cases gone : l.nakSent with
  | true =>
    have same : ({ l with nakSent := true } : HostLink) = l := by rw [← gone]
    simpa [same] using h
  | false =>
    have marked : LinkBecomes s (t.modLink p fun l => { l with nakSent := true }) p { l with nakSent := true } sent :=
      h.modLink (congrArg (fun x : HostLink => { x with nakSent := true }) h.link)
    exact marked.sayLink 2 _ 0

end LinkBecomes

theorem arrival_duplicate {l : HostLink} {seq : BitVec 12} (behind : 2048 ≤ (seq - l.expected).toNat) :
    l.arrival seq = .duplicate := by
  simp only [HostLink.arrival]
  rw [if_neg (by omega), if_neg (by omega)]

theorem arrival_later {l : HostLink} {seq : BitVec 12} (ahead : 0 < (seq - l.expected).toNat)
    (near : (seq - l.expected).toNat < 2048) : l.arrival seq = .later := by
  simp only [HostLink.arrival]
  rw [if_neg (by omega), if_pos near]

section
variable {s : State} {p : Port} (up : s.linkUp p = true) (armed : s.armedFor 2 p.num = none)
include up armed

theorem onFrame_duplicate {seq : BitVec 12} (behind : 2048 ≤ (seq - (s.link p).expected).toNat) (kind : Nat) (act : State → State) :
    s.onFrame p kind seq act = s.sayAck p := by
  simp [State.onFrame, up, armed, State.acceptFrame, arrival_duplicate behind]

theorem onFrame_later {seq : BitVec 12} (ahead : 0 < (seq - (s.link p).expected).toNat)
    (near : (seq - (s.link p).expected).toNat < 2048) (kind : Nat) (act : State → State) :
    s.onFrame p kind seq act = s.sayNak p := by
  simp [State.onFrame, up, armed, State.acceptFrame, arrival_later ahead near]

end

/-! ### The five kinds of frame -/

/-- A command carries a frame of a kind and number, whose action is `act`. -/
def CarriesFrame (s : State) (p : Port) (seq : BitVec 12) (c : Instr) : Prop :=
  ∃ kind act, exec c s = .next (s.onFrame p kind seq act)

theorem carriesFrame {s : State} {p : Port} {seq : BitVec 12} {c : Instr}
    (kinds : (∃ kind body, c = .frameNotActedOn p seq kind body ∧ notActable kind.toNat body = true) ∨
      (∃ tag status data, c = .readCompletion p seq tag status data) ∨ (∃ body, c = .anchorMessage p seq body) ∨
      (∃ target index, c = .workQueueDoorbell p seq target index) ∨ (∃ target index, c = .consumedDoorbell p seq target index)) :
    CarriesFrame s p seq c := by
  rcases kinds with ⟨kind, body, rfl, ignored⟩ | ⟨_, _, _, rfl⟩ | ⟨_, rfl⟩ | ⟨_, _, rfl⟩ | ⟨_, _, rfl⟩
  · rw [CarriesFrame, exec, execFrameNotActedOn, if_pos ignored]
    exact ⟨_, _, rfl⟩
  all_goals exact ⟨_, _, rfl⟩

/-- The expected frame is acknowledged by its own number. -/
theorem accepted_eq (s : State) (p : Port) : s.accepted p = (s.setLink p { s.link p with
    expected := (s.link p).expected + 1, nakSent := false }).sayLink p 1 ((s.link p).expected.zeroExtend 16) 0 := by
  have before : ((s.modLink p HostLink.accept).link p).expected - 1 = (s.link p).expected := by
    rw [modLink_link]
    exact BitVec.add_sub_cancel ..
  rw [State.accepted, State.sayAck, before]
  rfl

/-- With the schedule running and no frame held, the expected frame is acted on. -/
theorem accepted_free {s : State} {p : Port} (runs : s.runs = true) (held : (s.link p).held = []) :
    ((s.accepted p).runs && ((s.accepted p).link p).held.isEmpty) = true := by
  have a := linkBecomes_accepted s p
  rw [a.runs, a.field HostLink.held fun _ => rfl]
  simp [HostLink.accept, runs, held]

section
variable {s : State} {p : Port} (up : s.linkUp p = true) (armed : s.armedFor 2 p.num = none) (runs : s.runs = true)
  (held : (s.link p).held = [])
include up armed runs held

theorem frameNotActedOn_ignored {kind : Byte} {body : Bytes} (ignored : notActable kind.toNat body = true) :
    exec (.frameNotActedOn p (s.link p).expected kind body) s = .next ((s.accepted p).ignoreFrame p kind.toNat) := by
  rw [exec, execFrameNotActedOn, if_pos ignored, onFrame_accepted up armed, if_pos (accepted_free runs held)]

theorem readCompletion_acts (tag : BitVec 16) (status : Byte) (data : Bytes) :
    exec (.readCompletion p (s.link p).expected tag status data) s = .next ((s.accepted p).actCompletion p tag status data) := by
  rw [exec, execReadCompletion, onFrame_accepted up armed, if_pos (accepted_free runs held)]

theorem takeFrame_acts (kind : Nat) (h : Held) (act : State → State) :
    (s.onFrame p kind (s.link p).expected fun t => t.takeFrame p h act) = (act (s.accepted p)).returnCredit p := by
  rw [onFrame_accepted up armed, State.takeFrame, if_pos (accepted_free runs held)]

end

/-- Settles O32: by `arrival`, in which a difference of exactly 2,048 is behind (log entry 75); the expected frame by
`linkBecomes_accepted`, and acted on by the command's own meaning. -/
theorem framesInSequence : Obligations.FramesInSequence := by
  intro p seq c s kinds up armed
  obtain ⟨kind, act, meaning⟩ := carriesFrame (s := s) kinds
  have same := LinkBecomes.refl s p
  refine ⟨fun behind => ⟨_, meaning, ?_⟩, fun ahead near => ⟨fun gone => ?_, fun first => ⟨_, meaning, ?_⟩⟩, ?_⟩
  · rw [onFrame_duplicate up armed behind]
    exact same.sayAck
  · rw [meaning, onFrame_later up armed ahead near, State.sayNak, if_pos gone]
  · rw [onFrame_later up armed ahead near]
    simpa [first] using same.sayNak
  · rintro rfl u rfl
    rw [← accepted_eq]
    refine ⟨linkBecomes_accepted s p, fun runs held => ⟨?_, ?_, ?_, ?_, ?_⟩⟩
    · rintro kind body rfl
      have ignored : notActable kind.toNat body = true := by simpa using kinds
      have four : kind.toNat = 4 ↔ kind = 4 := by
        rw [← BitVec.toNat_inj]
        rfl
      rw [frameNotActedOn_ignored up armed runs held ignored, State.ignoreFrame]
      simp only [four]
      split
      · next is => rw [is]; rfl
      · rfl
    · rintro tag status data rfl
      exact readCompletion_acts up armed runs held ..
    all_goals
      intros
      subst c
      exact congrArg _ (takeFrame_acts up armed runs held ..)

/-! ### Bad frames, and frames that are not acted on -/

theorem Reported.queues {s t : State} (h : Reported s t) : t.queues = s.queues := by rw [h.frame]

theorem Reported.out {s t : State} (h : Reported s t) : t.out = s.out := by rw [h.frame]

theorem Reported.transport {s t : State} (h : Reported s t) : t.transport = s.transport := by rw [h.frame]

theorem reported_hostLinkError (s : State) (p : Port) (cause kind : Nat) : Reported s (s.hostLinkError p cause kind) :=
  reported_occur ..

theorem hostLinkError_total (s : State) (p : Port) (cause kind : Nat) :
    ((s.hostLinkError p cause kind).source (0x392 + p.num)).total = min ((s.source (0x392 + p.num)).total + 1) (2 ^ 32 - 1) :=
  occur_total s _ _ (by cases p <;> decide) (by cases p <;> decide)

theorem injected_unarmed {s : State} {checker sel : Nat} (h : s.armedFor checker sel = none) (src : Nat) :
    s.injected checker sel src = s := by
  rw [State.injected, h]

/-- A frame that fails a check, with no injection armed: NAKed and counted. -/
theorem refuseFrame_bad {s : State} {p : Port} {f : RawFrame} (bad : frameGood f = false) (armed : s.armedFor 2 p.num = none) :
    s.refuseFrame p f = (s.sayNak p).hostLinkError p 1 (field f.start 0 1) := by
  have unarmed : (s.badFrame p (field f.start 0 1)).armedFor 2 p.num = none := by
    rw [State.armedFor, State.badFrame, (reported_hostLinkError ..).armed, (LinkBecomes.refl s p).sayNak.faults]
    exact armed
  simp only [State.refuseFrame, bad, Bool.false_and, Bool.not_false, if_true, injected_unarmed unarmed]
  rfl

/-- A frame that is not acted on is counted, and the credit of a doorbell goes back. -/
theorem ignoreFrame_becomes {s t : State} {p : Port} {l : HostLink} {sent : List Out} (h : LinkBecomes s t p l sent)
    (up : l.phase = .up) (edges : l.clockStopped = false) (kind : Byte) : ∃ sent',
    LinkBecomes (t.hostLinkError p 2 kind.toNat) (t.ignoreFrame p kind.toNat) p
      { l with doorbells := if kind = 4 then l.doorbells + 1 else l.doorbells } sent' := by
  have counted := reported_hostLinkError t p 2 kind.toNat
  have standing : LinkBecomes (t.hostLinkError p 2 kind.toNat) (t.hostLinkError p 2 kind.toNat) p l [] :=
    ⟨by rw [counted.link, h.link], (LinkBecomes.refl ..).rest⟩
  by_cases doorbell : kind = 4
  · subst doorbell
    exact ⟨_, standing.returnCredit up edges⟩
  · have other : kind.toNat ≠ 4 := fun same => doorbell (BitVec.eq_of_toNat_eq same)
    rw [State.ignoreFrame, if_neg other, if_neg doorbell]
    exact ⟨_, standing⟩

/-- Settles O33: a bad frame by `refuseFrame_bad`, one that is not acted on by `frameNotActedOn_ignored`. -/
theorem badFramesAreCounted : Obligations.BadFramesAreCounted := by
  refine ⟨fun p blocks f s up read bad armed => ?_, fun p kind body s up armed runs held ignored => ?_⟩
  · have nak := (LinkBecomes.refl s p).sayNak
    have counted := reported_hostLinkError (s.sayNak p) p 1 (field f.start 0 1)
    refine ⟨(s.sayNak p).hostLinkError p 1 (field f.start 0 1), ?_, ?_, ?_, ?_, ?_, ?_⟩
    · simp only [exec, execHostFrameBad, read, State.takesFrames, up, Bool.true_or, if_true, refuseFrame_bad bad armed]
    · rw [counted.link, nak.link]
    · rw [hostLinkError_total, nak.source]
    · rw [counted.chans, nak.chans]
    · rw [counted.queues, nak.queues]
    · rw [counted.out, nak.rest]
      rfl
  · have taken := linkBecomes_accepted s p
    have counted := reported_hostLinkError (s.accepted p) p 2 kind.toNat
    obtain ⟨phase, edges⟩ := (linkUp_iff s p).1 up
    obtain ⟨sent, after⟩ := ignoreFrame_becomes taken phase edges kind
    refine ⟨_, frameNotActedOn_ignored up armed runs held ignored, after.link, ?_, ?_, ?_⟩
    · rw [after.source, hostLinkError_total, taken.source]
    · rw [after.chans, counted.chans, taken.chans]
    · rw [after.queues, counted.queues, taken.queues]

/-! ### The end of a host read -/

theorem readOf_accepted (s : State) (p : Port) (tag : BitVec 16) : (s.accepted p).readOf p tag = s.readOf p tag := by
  rw [State.readOf, (linkBecomes_accepted s p).field HostLink.reads fun _ => rfl]
  rfl

section
variable {s : State} {p : Port} {tag : BitVec 16} {r : HostRead} (flies : s.readOf p tag = some r)
include flies

theorem actCompletion_delivers {data : Bytes} (whole : data.length = r.length) :
    s.actCompletion p tag 0 data = ((s.modLink p (HostLink.dropRead tag)).delivered p data r.purpose).pump p := by
  simp [State.actCompletion, flies, whole]

theorem actCompletion_fails {status : Byte} (failed : status ≠ 0) :
    s.actCompletion p tag status [] = (s.modLink p (HostLink.dropRead tag)).readFailed p r.purpose := by
  simp only [State.actCompletion, flies, if_neg failed]
  rfl

end

theorem actCompletion_unknown {s : State} {p : Port} {tag : BitVec 16} (gone : s.readOf p tag = none) (status : Byte) (data : Bytes) :
    s.actCompletion p tag status data = s.hostLinkError p 2 2 := by
  rw [State.actCompletion, gone]

theorem readCompletionTimeout_holds {s : State} {p : Port} {tag : BitVec 16} {r : HostRead} (flies : s.readOf p tag = some r)
    (runs : s.runs = true) (late : r.issued + 256 * s.hostTimeout p ≤ s.clock.symbols) :
    exec (.readCompletionTimeout p tag) s = .next ((s.setLink p { s.link p with
      reads := (s.link p).reads.filter (fun x => x.tag != tag)
      heldTags := (s.link p).heldTags ++ [(tag, s.clock.symbols)] }).readFailed p r.purpose) := by
  have overdue : s.passedFrom r.issued (s.hostTimeout p) = true := decide_eq_true late
  simp only [exec, execReadCompletionTimeout, flies, runs, overdue, Bool.true_and, if_true]
  rfl

theorem tagHoldExpiry_frees {s : State} {p : Port} {tag : BitVec 16} {since : Nat} (held : (tag, since) ∈ (s.link p).heldTags)
    (late : since + 256 * (4 * s.hostTimeout p) ≤ s.clock.symbols) : exec (.tagHoldExpiry p tag) s =
    .next ((s.modLink p fun l => { l with heldTags := l.heldTags.filter fun h => !(h.1 == tag) }).pump p) := by
  rw [exec, execTagHoldExpiry, if_pos]
  exact List.any_eq_true.2 ⟨_, held, by simp [State.passedFrom, late]⟩

/-- Settles O36: a completion by `actCompletion`, a timeout and a hold by their own meanings. -/
theorem hostReadsEnd : Obligations.HostReadsEnd := by
  refine ⟨fun p tag status data r s u up armed runs held flies is => ?_, fun p tag status data s up armed runs held gone => ?_,
    fun p tag r s flies runs late => readCompletionTimeout_holds flies runs late,
    fun p tag since s held late => ⟨_, tagHoldExpiry_frees held late, ?_⟩⟩
  · rw [← accepted_eq] at is
    subst is
    have taken := linkBecomes_accepted s p
    have flies' : (s.accepted p).readOf p tag = some r := (readOf_accepted ..).trans flies
    refine ⟨taken.modLink (congrArg (HostLink.dropRead tag) taken.link), fun good whole => ?_, fun failed empty => ?_⟩
    · subst good
      rw [readCompletion_acts up armed runs held, actCompletion_delivers flies' whole]
    · subst empty
      rw [readCompletion_acts up armed runs held, actCompletion_fails flies' failed]
  · have taken := linkBecomes_accepted s p
    have counted := reported_hostLinkError (s.accepted p) p 2 2
    refine ⟨_, readCompletion_acts up armed runs held .., ?_⟩
    rw [actCompletion_unknown ((readOf_accepted ..).trans gone), hostLinkError_total, taken.source, counted.queues, taken.queues,
      counted.chans, taken.chans, counted.transport, taken.transport]
    exact ⟨rfl, rfl, rfl, rfl⟩
  · have freed : LinkBecomes s (s.modLink p fun l => { l with heldTags := l.heldTags.filter fun h => !(h.1 == tag) }) p
        { s.link p with heldTags := (s.link p).heldTags.filter fun h => h.1 != tag } [] := (LinkBecomes.refl s p).modLink rfl
    exact freed.pump

end Sys2Proof.Machine
end

section
/-! SUPPORT. Rings in host memory: what a write there leaves, item fetch, event frames and records (R301, R319, R331 to R335), and the
entries of a queue written in item order (R320, R322 to R324). -/

namespace Sys2Proof.Machine

/-! ### Writes to host memory -/

/-- A write to host memory changes the link layer that carries it alone. -/
theorem hostWrite_becomes (s : State) (p : Port) (addr : BitVec 64) (data : Bytes) :
    ∃ m, LinkBecomes s (s.hostWrite p addr data) p m [] := by
  have each (l : List (BitVec 64 × Nat)) (bytes : Bytes) (t : State) (m : HostLink) (h : LinkBecomes s t p m []) :
      ∃ m, LinkBecomes s (writePieces p l bytes t) p m [] := by
    induction l generalizing bytes t m with
    | nil => exact ⟨m, h⟩
    | cons x l ih => exact ih _ _ _ (h.sendHost _)
  exact each _ _ _ _ (LinkBecomes.refl s p)

section
variable (s : State) (p : Port) (addr : BitVec 64) (data : Bytes)

theorem hostWrite_rings (p' : Port) : (s.hostWrite p addr data).rings p' = s.rings p' := by
  obtain ⟨m, h⟩ := hostWrite_becomes s p addr data
  exact h.rings p'

theorem hostWrite_queues : (s.hostWrite p addr data).queues = s.queues := by
  obtain ⟨m, h⟩ := hostWrite_becomes s p addr data
  exact h.queues

theorem hostWrite_queue (p' : Port) (q : Fin 512) : (s.hostWrite p addr data).queue p' q = s.queue p' q := by
  obtain ⟨m, h⟩ := hostWrite_becomes s p addr data
  exact h.queue p' q

theorem hostWrite_chans : (s.hostWrite p addr data).chans = s.chans := by
  obtain ⟨m, h⟩ := hostWrite_becomes s p addr data
  exact h.chans

end

/-! ### Item fetch and event frames -/

theorem itemFetch_issues {p : Port} {q : Fin 512} {a : Anchor} {s : State} (anchor : (s.rings p).anchor = some a)
    (runs : s.runs = true) (enabled : descEnabled (a.desc q) = true) (idle : (s.queue p q).reading = false)
    (entry : s.entry = none) (posted : 0 < s.fetchCount p a q) :
    exec (.itemFetch p q) s = .next (((s.modRings p fun r => r.setCompletion (descRing (a.desc q))
        { r.completionRing (descRing (a.desc q)) with
          reserved := (r.completionRing (descRing (a.desc q))).reserved + s.fetchCount p a q }).setQueue p q
        { s.queue p q with reading := true }).hostRead p
      (descBase a (a.desc q) + BitVec.ofNat 64 (64 * ((s.queue p q).consumed.toNat % descItems (a.desc q))))
      (64 * s.fetchCount p a q) (.fetch q (s.queue p q).consumed (s.fetchCount p a q))) := by
  simp [exec, execItemFetch, State.fetchItems, anchor, runs, enabled, idle, entry, posted]

section
variable {p : Port} {ring : Fin 64} {s : State} (runs : s.runs = true) (first : (s.link p).waiting = [])
  (may : (s.link p).maySend 7 (eventBody 0 0 0) 0 = true)
include runs first may

theorem eventReady_of : s.eventReady p = true := by simp [State.eventReady, runs, first, may]

theorem eventFrame_completion (due : ((s.rings p).completionRing ring.val).eventDue = true) :
    exec (.eventFrame p 1 ring) s = .next ((s.setRings p ((s.rings p).setCompletion ring.val
      { (s.rings p).completionRing ring.val with eventDue := false })).sendHost p
        (.event (eventBody 1 ring.val ((s.rings p).completionRing ring.val).producer.toNat))) := by
  simp [exec, execEventFrame, State.sendEvent, eventReady_of runs first may, due]

theorem eventFrame_record {kind : Byte} (names : kind = 2 ∧ ring ≠ 0 ∨ kind = 3 ∧ ring = 0)
    (due : ((s.rings p).recordRing ring.val).eventDue = true) :
    exec (.eventFrame p kind ring) s = .next ((s.setRings p ((s.rings p).setRecord ring.val
      { (s.rings p).recordRing ring.val with eventDue := false })).sendHost p
        (.event (eventBody kind.toNat ring.val ((s.rings p).recordRing ring.val).producer.toNat))) := by
  have named : ((kind = 2 && ring.val != 0) || (kind = 3 && ring.val == 0)) = true := by
    rcases names with ⟨rfl, other⟩ | ⟨rfl, rfl⟩
    · have other' : ring.val ≠ 0 := fun zero => other (Fin.ext zero)
      simp [other']
    · rfl
  have notCompletion : ¬kind = 1 := by
    rcases names with ⟨rfl, -⟩ | ⟨rfl, -⟩ <;> decide
  rw [exec, execEventFrame, State.sendEvent]
  dsimp only
  rw [if_neg (by simp [eventReady_of runs first may]), if_neg notCompletion, if_pos named, if_pos due]

end

/-! ### Records -/

/-- Of the rings, a record that is written moves its own (R331). -/
theorem writeRecord_rings (s : State) (p : Port) (a : Anchor) (r : Rec) (pad : Nat) :
    ∃ due, ((s.writeRecord p a r pad).rings p) = (s.rings p).setRecord r.ring { (s.rings p).recordRing r.ring with
      producer := ((s.rings p).recordRing r.ring).producer + BitVec.ofNat 32 (pad + r.bytes.length / 32), eventDue := due } := by
  unfold State.writeRecord
  dsimp only
  rw [hostWrite_rings, modRings_rings, hostWrite_rings]
  split
  · exact ⟨_, rfl⟩
  · rw [hostWrite_rings]
    exact ⟨_, rfl⟩

/-- A record's write leaves channels and queues. -/
theorem writeRecord_leaves (s : State) (p : Port) (a : Anchor) (r : Rec) (pad : Nat) :
    (s.writeRecord p a r pad).chans = s.chans ∧ (s.writeRecord p a r pad).queues = s.queues := by
  unfold State.writeRecord
  dsimp only
  rw [hostWrite_chans, hostWrite_queues, modRings_chans, modRings_queues, hostWrite_chans, hostWrite_queues]
  split
  · exact ⟨rfl, rfl⟩
  · exact ⟨hostWrite_chans .., hostWrite_queues ..⟩

theorem releaseWake_pins (s : State) : ∃ pins, s.releaseWake = { s with pins := pins } := by
  unfold State.releaseWake
  split
  · exact ⟨s.pins, rfl⟩
  · exact ⟨_, rfl⟩

/-- What follows a record that is written: WAKE_N is released after a wake record, and INT asserted through a fence on ring 0. -/
def State.afterRecord (u : State) (p : Port) (x : Rec) : State :=
  if x.ring = 0 then (if x.kind = 6 then u.releaseWake else u).fence p .intFence
  else if x.kind = 6 then u.releaseWake else u

theorem afterRecord_leaves (u : State) (p : Port) (x : Rec) : (u.afterRecord p x).rings p = u.rings p ∧
    (u.afterRecord p x).chans = u.chans ∧ (u.afterRecord p x).queues = u.queues := by
  have released : ∃ pins, (if x.kind = 6 then u.releaseWake else u) = { u with pins := pins } := by
    split
    · exact releaseWake_pins u
    · exact ⟨u.pins, rfl⟩
  obtain ⟨pins, is⟩ := released
  unfold State.afterRecord
  rw [is]
  have same : ({ u with pins := pins } : State).rings p = u.rings p := by cases p <;> rfl
  split
  · exact ⟨(modLink_rings' ..).trans same, modLink_chans .., modLink_queues ..⟩
  · exact ⟨same, rfl, rfl⟩

/-- The first record of a port's buffer goes out where its ring has space (R331, R335). -/
theorem recordWrite_writes {p : Port} {a : Anchor} {x : Rec} {rest : List Rec} {pad : Nat} {s : State}
    (anchor : (s.rings p).anchor = some a) (buffer : (s.rings p).buffer = x :: rest) (up : s.linkUp p = true)
    (runs : s.runs = true)
    (hpad : pad = (if ((s.rings p).recordRing x.ring).producer.toNat % a.recordSize x.ring + x.bytes.length / 32 > a.recordSize x.ring
      then a.recordSize x.ring - ((s.rings p).recordRing x.ring).producer.toNat % a.recordSize x.ring else 0))
    (space : ((s.rings p).recordRing x.ring).held + pad + x.bytes.length / 32 ≤ a.recordSize x.ring) :
    exec (.recordWrite p) s = .next (((s.setRings p { s.rings p with
        buffer := (admitOutside rest (s.rings p).outside).1, outside := (admitOutside rest (s.rings p).outside).2
        }).writeRecord p a x pad).afterRecord p x) := by
  simp only [exec, execRecordWrite, State.recordWrite, anchor, buffer, up, runs, ← hpad, space, decide_true, Bool.and_true, if_true]
  rfl

/-- Settles O37: fetch and event frames by their own meanings, a record by `recordWrite_writes` and what it leaves. -/
theorem itemsAndRecordsMove : Obligations.ItemsAndRecordsMove := by
  refine ⟨fun p q a s anchor runs enabled idle entry posted n k hn hk => ?_,
    fun p ring s runs first may => ⟨fun due => eventFrame_completion runs first may due,
      fun kind names due => eventFrame_record runs first may names due⟩,
    fun p a x rest units size pad s anchor buffer up runs hunits hsize hpad space => ?_⟩
  · subst hn hk
    exact itemFetch_issues anchor runs enabled idle entry posted
  · subst hunits hsize
    refine ⟨_, recordWrite_writes anchor buffer up runs hpad space, ?_⟩
    generalize hb : admitOutside rest (s.rings p).outside = b
    have ring (r : PortRings) (i : Nat) (v : Ring) : (r.setRecord i v).recordRing i = v := tab_get_set ..
    obtain ⟨due, rings⟩ := writeRecord_rings (s.setRings p { s.rings p with buffer := b.1, outside := b.2 }) p a x pad
    obtain ⟨chans, queues⟩ := writeRecord_leaves (s.setRings p { s.rings p with buffer := b.1, outside := b.2 }) p a x pad
    obtain ⟨rings', chans', queues'⟩ := afterRecord_leaves
      ((s.setRings p { s.rings p with buffer := b.1, outside := b.2 }).writeRecord p a x pad) p x
    rw [rings', chans', queues', rings, chans, queues, ring, setRings_rings]
    refine ⟨rfl, rfl, fun empty => ?_, setRings_chans .., setRings_queues .., _, rfl, rfl⟩
    rw [← hb, empty]
    rfl

/-! ### Completion entries in item order -/

/-- Entries have been written for items at the head of a queue, those of `rest` remain, and no other queue has changed. -/
structure EntriesWritten (s t : State) (p : Port) (q : Fin 512) (n : Nat) (written rest : List Item) : Prop where
  items : (t.queue p q).items = rest
  producer : ((t.rings p).completionRing n).producer = ((s.rings p).completionRing n).producer + BitVec.ofNat 32 written.length
  lastDone : (t.queue p q).lastDone = (written.getLast?.map Item.index).or (s.queue p q).lastDone
  others : ∀ p' q', ¬(p' = p ∧ q' = q) → t.queue p' q' = s.queue p' q'

section
variable {s : State} {p : Port} {q : Fin 512} {a : Anchor} (anchor : (s.rings p).anchor = some a)
include anchor

theorem writeEntry_rings (i : Item) (code : Byte) (detail : BitVec 32) : ∃ r : Ring,
    (s.writeEntry p q i code detail).rings p = (s.rings p).setCompletion (descRing (a.desc q)) r ∧
    r.producer = ((s.rings p).completionRing (descRing (a.desc q))).producer + 1 := by
  unfold State.writeEntry
  rw [anchor]
  dsimp only
  rw [modQueue_rings', hostWrite_rings, modRings_rings, hostWrite_rings]
  exact ⟨_, rfl, rfl⟩

theorem writeEntry_queue (i : Item) (code : Byte) (detail : BitVec 32) (p' : Port) (q' : Fin 512) :
    (s.writeEntry p q i code detail).queue p' q' =
      if p' = p ∧ q' = q then { s.queue p q with lastDone := some i.index } else s.queue p' q' := by
  unfold State.writeEntry
  rw [anchor]
  dsimp only
  split
  · next same =>
    obtain ⟨rfl, rfl⟩ := same
    rw [modQueue_queue, hostWrite_queue, modRings_queue', hostWrite_queue]
  · next other => rw [modQueue_queue_ne _ _ _ _ _ _ other, hostWrite_queue, modRings_queue', hostWrite_queue]

end

theorem flushItems_stops {p : Port} {q : Fin 512} {i : Item} (unfinished : i.isDone = false) (l : List Item) (s : State) :
    flushItems p q (i :: l) s = s := by
  unfold flushItems
  split
  · next is => simp [Item.isDone, is] at unfinished
  · rfl

theorem flushItems_writes {p : Port} {q : Fin 512} {i : Item} (done : i.isDone = true) (l : List Item) (s : State) :
    ∃ code detail, flushItems p q (i :: l) s =
      flushItems p q l ((s.modQueue p q fun x => { x with items := x.items.drop 1 }).writeEntry p q i code detail) := by
  rw [flushItems]
  split
  · exact ⟨_, _, rfl⟩
  · next other =>
    cases h : i.phase with
    | done code detail => exact absurd h (other code detail)
    | _ => simp [Item.isDone, h] at done

/-- The entries of the finished items at the head of a queue are written (R324). -/
theorem flushItems_entries {p : Port} {q : Fin 512} {a : Anchor} {l : List Item} {s : State} (anchor : (s.rings p).anchor = some a)
    (items : (s.queue p q).items = l) :
    EntriesWritten s (flushItems p q l s) p q (descRing (a.desc q)) (l.takeWhile Item.isDone) (l.dropWhile Item.isDone) := by
  induction l generalizing s with
  | nil => exact ⟨items, (BitVec.add_zero _).symm, rfl, fun _ _ _ => rfl⟩
  | cons i l ih =>
    cases done : i.isDone with
    | false =>
      rw [flushItems_stops done, List.takeWhile_cons_of_neg (by simp [done]), List.dropWhile_cons_of_neg (by simp [done])]
      exact ⟨items, (BitVec.add_zero _).symm, rfl, fun _ _ _ => rfl⟩
    | true =>
      obtain ⟨code, detail, is⟩ := flushItems_writes (p := p) (q := q) done l s
      rw [is, List.takeWhile_cons_of_pos done, List.dropWhile_cons_of_pos done]
      have anchor' : ((s.modQueue p q fun x => { x with items := x.items.drop 1 }).rings p).anchor = some a := by
        rw [modQueue_rings', anchor]
      obtain ⟨r, rings, producer⟩ := writeEntry_rings (q := q) anchor' i code detail
      have queue := writeEntry_queue (q := q) anchor' i code detail
      have rest := ih (s := (s.modQueue p q fun x => { x with items := x.items.drop 1 }).writeEntry p q i code detail)
        (by rw [rings]; exact anchor') (by rw [queue, if_pos ⟨rfl, rfl⟩, modQueue_queue, items]; rfl)
      refine ⟨rest.items, ?_, ?_, fun p' q' other => ?_⟩
      · rw [rest.producer, rings, show ((PortRings.setCompletion _ _ r).completionRing _) = r from tab_get_set .., producer, modQueue_rings',
          BitVec.add_assoc, List.length_cons, Nat.add_comm _ 1, BitVec.ofNat_add]
        rfl
      · rw [rest.lastDone, queue, if_pos ⟨rfl, rfl⟩, List.getLast?_cons]
        cases (l.takeWhile Item.isDone).getLast? <;> rfl
      · rw [rest.others p' q' other, queue, if_neg other, modQueue_queue_ne _ _ _ _ _ _ other]

/-- A fault counted after the entries leaves what they left. -/
theorem EntriesWritten.reported {s t u : State} {p : Port} {q : Fin 512} {n : Nat} {written rest : List Item}
    (h : EntriesWritten s t p q n written rest) (k : Reported t u) : EntriesWritten s u p q n written rest := by
  have queue (p' : Port) (q' : Fin 512) : u.queue p' q' = t.queue p' q' := by rw [State.queue, k.queues, State.queue]
  refine ⟨(queue p q).symm ▸ h.items, ?_, (queue p q).symm ▸ h.lastDone, fun p' q' other => (queue p' q').trans (h.others p' q' other)⟩
  rw [k.rings p]
  exact h.producer

/-- An item that has completed, or is no longer held, completes no more. -/
theorem complete_again {s : State} {p : Port} {q : Fin 512} {index : BitVec 32}
    (done : ∀ i, s.findItem p q index = some i → i.isDone = true) (code : Byte) (detail : BitVec 32) (c : Option ChanId) :
    s.complete p q index code detail c = s := by
  unfold State.complete
  split
  · rfl
  · next i found =>
    split
    · rfl
    · next other =>
      have is := done i found
      cases h : i.phase with
      | done code' detail' => exact absurd h (other code' detail')
      | _ => simp [Item.isDone, h] at is

/-- An item that has not completed is marked, the finished head of its queue is written, and at most a fault is counted. -/
theorem complete_reports {s : State} {p : Port} {q : Fin 512} {index : BitVec 32} {i : Item}
    (found : s.findItem p q index = some i) (unfinished : i.isDone = false) (code : Byte) (detail : BitVec 32) (c : Option ChanId) :
    Reported ((s.setPhase p q index (.done code detail)).flushQueue p q) (s.complete p q index code detail c) := by
  unfold State.complete
  rw [found]
  dsimp only
  split
  · next is => simp [Item.isDone, is] at unfinished
  · split
    · exact reported_occur ..
    · exact .refl _

/-- Settles O59: by `flushItems_entries`, an induction on the items of the queue, and `complete_again`. -/
theorem completionsInOrder : Obligations.CompletionsInOrder := by
  refine fun s p q index code detail c => ⟨fun i a l t n found unfinished anchor hn hl ht => ?_,
    fun done => complete_again done code detail c⟩
  subst hn ht
  have marked : ((s.setPhase p q index (.done code detail)).queue p q).items = l := by
    rw [State.setPhase, modQueue_queue, hl]
  have rings : (s.setPhase p q index (.done code detail)).rings p = s.rings p := modQueue_rings' ..
  have written := flushItems_entries (q := q) ((congrArg PortRings.anchor rings).trans anchor) marked
  have counted := complete_reports found unfinished code detail c
  rw [State.flushQueue, marked] at counted
  have after := written.reported counted
  refine ⟨after.items, rings ▸ after.producer, fun x last => ?_, fun p' q' other => ?_⟩
  · rw [after.lastDone, last]
    rfl
  · have other' : ¬(p' = p ∧ q' = q) := fun ⟨hp, hq⟩ => other (by rw [hp, hq])
    rw [after.others p' q' other', State.setPhase, modQueue_queue_ne _ _ _ _ _ _ other']

end Sys2Proof.Machine
end

section
/-! SUPPORT. The window items and what they drain (R355, R356, R365). -/

namespace Sys2Proof.Machine

/-- An open that waits for its read waits for the slot's descriptor. -/
theorem windowBusy_of_opening {s : State} {p : Port} {w : Nat} (h : s.opening p w = true) : s.windowBusy p w = true := by
  obtain ⟨y, reads, opens⟩ := List.any_eq_true.1 h
  refine List.any_eq_true.2 ⟨y, reads, ?_⟩
  cases y with
  | openDesc q item v =>
    obtain rfl : v = w := by simpa using opens
    exact beq_self_eq_true _
  | _ => simp at opens

theorem opening_idle {s : State} {p : Port} {w : Nat} (idle : s.windowBusy p w = false) : s.opening p w = false := by
  cases h : s.opening p w with
  | false => rfl
  | true => simp [windowBusy_of_opening h] at idle

section
variable {p : Port} {q : Fin 512} {s : State} {i : Item} {w : Nat}

theorem windowOpen_reads (next : s.nextItem p q = some (i, some (.windowOpen w))) : exec (.windowOpen p q) s =
    .next (if s.windowBusy p w then s
      else (s.startItem p q i.index).windowItem p q i.index w (.openDesc q i.index w)) := by
  rw [exec, execWindowOpen, onItem_next next]
  dsimp only
  split <;> rfl

theorem windowRevoke_reads {g : Nat} (next : s.nextItem p q = some (i, some (.windowRevoke w g))) : exec (.windowRevoke p q) s =
    .next (if s.opening p w then (s.startItem p q i.index).result p q i.index 7 0 0
      else if s.windowBusy p w then s
      else (s.startItem p q i.index).windowItem p q i.index w (.revokeDesc q i.index w g)) := by
  rw [exec, execWindowRevoke, onItem_next next]
  dsimp only
  split
  · rfl
  · split <;> rfl

theorem pageReady_reads {g off code : Nat} (next : s.nextItem p q = some (i, some (.pageReady w g off code))) :
    exec (.pageReady p q) s = .next (if s.windowBusy p w then s
      else (s.startItem p q i.index).windowItem p q i.index w (.readyDesc q i.index w g off code)) := by
  rw [exec, execPageReady, onItem_next next]
  dsimp only
  split <;> rfl

/-- The three items alike: they wait for another's read, or begin their own; a revoke that meets an open's read gives result 7. -/
theorem windowItems_read {c : Instr} {body : ItemBody} {why : Purpose} (next : s.nextItem p q = some (i, some body))
    (kinds : (c = .windowOpen p q ∧ body = .windowOpen w ∧ why = .openDesc q i.index w) ∨
      (∃ g, c = .windowRevoke p q ∧ body = .windowRevoke w g ∧ why = .revokeDesc q i.index w g) ∨
      (∃ g off code, c = .pageReady p q ∧ body = .pageReady w g off code ∧ why = .readyDesc q i.index w g off code)) :
    exec c s = .next (if s.windowBusy p w then
        if c = .windowRevoke p q ∧ s.opening p w = true then (s.startItem p q i.index).result p q i.index 7 0 0 else s
      else (s.startItem p q i.index).windowItem p q i.index w why) := by
  rcases kinds with ⟨rfl, rfl, rfl⟩ | ⟨g, rfl, rfl, rfl⟩ | ⟨g, off, code, rfl, rfl, rfl⟩
  · rw [windowOpen_reads next, if_neg (by simp : ¬(Instr.windowOpen p q = .windowRevoke p q ∧ s.opening p w = true))]
  · rw [windowRevoke_reads next]
    cases busy : s.windowBusy p w with
    | false => simp [opening_idle busy]
    | true => simp
  · rw [pageReady_reads next, if_neg (by simp : ¬(Instr.pageReady p q = .windowRevoke p q ∧ s.opening p w = true))]

end

/-- A drained item completes with result 0, and its drain is over. -/
theorem drained_completes {p : Port} {q : Fin 512} {s : State} {d : Drain} {page : Bool} (runs : s.runs = true)
    (found : (s.transport.drains.find? fun e => e.port == p && e.queue == q && e.page.isSome == page && e.fence == 2) = some d) :
    s.drained p q page = (s.modTransport fun t => { t with drains := t.drains.filter fun e => !(e == d) }).result p q d.item 0 0 0 := by
  simp only [State.drained, runs, Bool.true_and, found]

/-- Settles O42: by `windowItems_read`, in which an item waits for another's read of the slot's descriptor (corner after R357, log entry
111), and `State.windowItem`. -/
theorem windowItemsAct : Obligations.WindowItemsAct := by
  refine ⟨fun p q s i a w t ht ha c body why next kinds => ?_, fun p q s d page runs found => ?_⟩
  · subst ht ha
    have reads := windowItems_read next kinds
    refine ⟨fun busy => ?_, fun idle none => ?_, fun x idle anchor => ?_⟩
    · rw [reads, if_pos busy]
    · rw [reads, if_neg (ne_true_of_eq_false idle), State.windowItem, none]
    · rw [reads, if_neg (ne_true_of_eq_false idle), State.windowItem, anchor]
  · have drained := drained_completes runs found
    cases page with
    | false => exact congrArg _ drained
    | true => exact congrArg _ drained

end Sys2Proof.Machine
end

section
/-! SUPPORT. The items of the transport (R366, R370, R371, R395, R414), a stream's slots as they fall due, and the signals to a stream's
sender (R403 to R407, R413, R414). -/

namespace Sys2Proof.Machine

/-! ### Transport items -/

/-- The next item of a queue, a transport item, starts by the states of its channels; a relay waits for one of 32 places (R394). -/
theorem startTransport_next {s : State} {p : Port} {q : Fin 512} {i : Item} {b : TransportBody}
    (next : s.nextItem p q = some (i, some (.transport b))) : s.startTransport p q b.kind =
    if b.kind = .send ∧ (s.queue p q).stream.withdrawn = true ∧ (s.role p q).stream = 3 then
      (s.startItem p q i.index).complete p q i.index 0x16 0 none
    else if s.ready b.chan = .down ∨ s.ready b.chan2 = .down then
      (s.startItem p q i.index).complete p q i.index 0x0E 0 (some b.chan)
    else if s.ready b.chan = .wait ∨ s.ready b.chan2 = .wait then s
    else if b.kind = .relay ∧ 32 ≤ s.relays then s
    else ((s.startItem p q i.index).modTransport fun x => { x with
      ops := x.ops ++ [opOf p q i b]
      lastFrames := if b.kind = .send ∧ (s.role p q).stream = 3 then s.frameSent p q i b x.lastFrames else x.lastFrames
      }).advance := by
  have kind : (b.kind != b.kind) = false := bne_self_eq_false b.kind
  simp only [State.startTransport, next, kind, Bool.and_eq_true, Bool.or_eq_true, decide_eq_true_eq, beq_iff_eq, and_assoc,
    Bool.false_eq_true, if_false]

/-- Settles O43: each of the six commands starts an item of its kind, by `startTransport_next`. -/
theorem transportItemsStart : Obligations.TransportItemsStart := by
  rintro p q s i b t c next rfl kinds
  have starts := startTransport_next next
  simp only [List.mem_cons, Prod.mk.injEq, List.not_mem_nil, or_false] at kinds
  rcases kinds with ⟨rfl, is⟩ | ⟨rfl, is⟩ | ⟨rfl, is⟩ | ⟨rfl, is⟩ | ⟨rfl, is⟩ | ⟨rfl, is⟩
  all_goals
    rw [← starts, is]
    rfl

/-! ### Slots that fall due -/

/-- A running feed stream whose next slot is due handles that slot, with its buffer taken if none was (R403). -/
theorem streamSlotDue_falls {p : Port} {q : Fin 512} {s : State} (runs : s.runs = true) (feed : (s.role p q).stream = 1)
    (running : (s.queue p q).stream.running = true)
    (due : (s.clock.sf - s.due p q (s.queue p q).stream.dueSlot).toNat < 2 ^ 47) : exec (.streamSlotDue p q) s =
    .next ((if (s.queue p q).stream.slots.any fun e => e.1 == (s.queue p q).stream.dueSlot then s
      else s.takeBuffer p q).slotFalls p q (s.queue p q).stream.dueSlot) := by
  have falls : (s.runs && (s.role p q).stream == 1 && (s.queue p q).stream.running &&
      decide ((s.clock.sf - s.due p q (s.queue p q).stream.dueSlot).toNat < 2 ^ 47)) = true := by
    simp only [runs, feed, running, due, decide_true, beq_self_eq_true, Bool.and_self]
  rw [exec, execStreamSlotDue, State.slotDue, if_pos falls]

section
variable {r : State} {p : Port} {q : Fin 512} {k : Nat}

theorem slotFalls_exhausts (empty : (r.queue p q).stream.slots.find? (fun e => e.1 == k) = none) :
    r.slotFalls p q k = r.exhaust p q k 0 := by
  simp only [State.slotFalls, empty]

variable {e : Nat × BitVec 32} {i : Item} (slot : (r.queue p q).stream.slots.find? (fun e => e.1 == k) = some e)
  (item : r.findItem p q e.2 = some i)
include slot item

theorem slotFalls_passes {code : Byte} {detail : BitVec 32} (done : i.phase = .done code detail) :
    r.slotFalls p q k = r.modStream p q fun y => { y with episode := 0, dueSlot := k + 1 } := by
  simp only [State.slotFalls, slot, item, done]

theorem slotFalls_late (late : ∀ code detail, i.phase ≠ .done code detail) : r.slotFalls p q k =
    if (r.queue p q).stream.episode < r.allowance p q then r.firebreak p q k i else r.exhaust p q k i.index := by
  cases phase : i.phase with
  | done code detail => exact absurd phase (late code detail)
  | _ => simp only [State.slotFalls, slot, item, phase]

end

/-! ### Signals at the sender -/

section
variable {s t : State} {c : ChanId} {msg : Bytes} (signal : Delivered s c msg 0x50 t)
include signal

/-- A disposition of a stream send of this end. -/
theorem streamSignal_disposes {o : Op} (sent : t.op (BitVec.ofNat 32 (field msg 4 4)) = some o) (send : o.kind = .send)
    (stream : (t.role o.port o.queue).stream = 3) {event : Nat} (is : field msg 1 1 = event)
    (disposes : event = 1 ∨ event = 3 ∨ event = 4 ∨ event = 6) :
    exec (.streamSignal c msg) s = .next (t.disposition o c event (field msg 2 1) (field msg 8 8)) := by
  rw [exec, execStreamSignal, signal.onMessage]
  rcases disposes with rfl | rfl | rfl | rfl <;> simp [is, sent, send, stream]

/-- A decelerate or resume event acts where a frame has gone to the stream. -/
theorem streamSignal_tells (is : field msg 1 1 = 2 ∨ field msg 1 1 = 5) : exec (.streamSignal c msg) s =
    .next (match t.transport.lastFrames.find? fun f => f.1 == t.owner c && f.2.1 == BitVec.ofNat 16 (field msg 0x10 2) with
      | some f => t.streamRecord f.2.2.1 f.2.2.2.1 ⟨field msg 1 1, c.val, f.2.2.2.2.toNat, 0, 0, 0, 0, 0, 0⟩
      | none => t) := by
  have tells : (field msg 1 1 = 2 || field msg 1 1 = 5) = true := by simpa using is
  rw [exec, execStreamSignal, signal.onMessage]
  exact congrArg Host.Outcome.next (if_pos tells)

end

/-- Settles O46: the slot by `slotFalls`, the signal by `streamSignal_disposes` and `streamSignal_tells`. -/
theorem streamSlotsAndSignals : Obligations.StreamSlotsAndSignals := by
  refine ⟨fun p q s r runs feed running due hr => ?_, fun c msg s t runs type waits taken => ?_⟩
  · have falls := streamSlotDue_falls runs feed running due
    rw [← hr] at falls
    refine ⟨fun empty => ?_, fun e i slot item => ⟨fun ⟨code, detail, done⟩ => ?_, fun late => ?_⟩⟩
    · rw [falls, slotFalls_exhausts empty]
    · rw [falls, slotFalls_passes slot item done]
    · rw [falls, slotFalls_late slot item late]
  · have signal : Delivered s c msg 0x50 t := ⟨runs, type, waits, taken⟩
    refine ⟨fun o sent send stream => ⟨fun is => ?_, fun is => ?_, fun is => ?_, fun is => ?_⟩, fun is => ⟨fun f last => ?_, fun none => ?_⟩⟩
    · exact streamSignal_disposes signal sent send stream is (.inl rfl)
    · exact streamSignal_disposes signal sent send stream is (.inr (.inl rfl))
    · exact streamSignal_disposes signal sent send stream is (.inr (.inr (.inl rfl)))
    · exact streamSignal_disposes signal sent send stream is (.inr (.inr (.inr rfl)))
    · rw [streamSignal_tells signal is, last]
    · rw [streamSignal_tells signal is, none]

end Sys2Proof.Machine
end

section
/-! SUPPORT. The messages of the retry layer, its timers, and a header whose check failed (R344, R384, R386, R388 to R392). -/

namespace Sys2Proof.Machine

section
variable {s t : State} {c : ChanId} {msg : Bytes}

theorem restart_drops (h : Delivered s c msg 0x40 t) : exec (.restart c msg) s =
    .next ((t.modRetry (t.owner c) fun r => { r with
      partial' := [], hunting := none, merge := r.merge.filter fun x => !earlierThan x (t.instant c 0) }).abandonChan c) := by
  rw [exec, execRestart, h.onMessage]

theorem pad_takes (h : Delivered s c msg 0x43 t) : exec (.pad c msg) s = .next t := by
  rw [exec, execPad, h.onMessage, id]

/-- The operations whose bytes the named codewords of the group carried (R389). -/
theorem discardNotice_loses (h : Delivered s c msg 0x42 t) (first last oa ob : Nat) (hf : first = field msg 4 2)
    (hl : last = field msg 6 2) (ha : oa = field msg 1 1) (hb : ob = field msg 2 1) : exec (.discardNotice c msg) s =
    .next (State.loseRefs c ((t.bond c).flatMap fun d =>
      ((t.chan d).retry.history.filter fun h =>
        (if oa = ob then (if (t.chan d).partner.bondedLink then t.pairOffset d else 0) == oa &&
            inRange (BitVec.ofNat 12 first) (BitVec.ofNat 12 last) h.1
         else if (if (t.chan d).partner.bondedLink then t.pairOffset d else 0) = oa then
          decide ((h.1 - BitVec.ofNat 12 first).toNat < 2048)
         else if (if (t.chan d).partner.bondedLink then t.pairOffset d else 0) = ob then
          decide ((BitVec.ofNat 12 last - h.1).toNat < 2048)
         else false)).flatMap (·.2)) t).advance := by
  subst hf hl ha hb
  rw [exec, execDiscardNotice, h.onMessage]

/-! ### Resume (R391) -/

variable (h : Delivered s c msg 0x41 t)
include h

/-- A resume that nothing waits for is a give-up. -/
theorem resume_unasked (other : ∀ acked, (t.chan c).retry.resumption ≠ .running false acked) :
    exec (.resume c msg) s = .next (t.giveUp c true) := by
  rw [exec, execResume, h.onMessage]
  dsimp only
  split
  · next acked is => exact absurd is (other acked)
  · rfl

section
variable {acked : Bool} (runs : (t.chan c).retry.resumption = .running false acked)
include runs

/-- A resume with no valid number is a give-up. -/
theorem resume_numberless (none : (field msg 1 1).testBit 0 = false) : exec (.resume c msg) s = .next ((t.modRetry c fun x =>
    { x with resumption := if acked then .complete else .running true false }).giveUp c true) := by
  rw [exec, execResume, h.onMessage]
  simp only [runs, none, Bool.false_and, Bool.false_eq_true, if_false]

/-- A resume that names one of the kept codewords releases those before it and sends the rest again, numbered onward. -/
theorem resume_sendsRest {n : BitVec 12} {rest v : List Codeword} {w : Codeword} (hn : n = BitVec.ofNat 12 (field msg 2 2))
    (hr : rest = renumber (t.chan c).retry.next ((t.chan c).retry.kept.filter fun w => !before w.seq n))
    (valid : (field msg 1 1).testBit 0 = true) (kept : (t.chan c).retry.kept = w :: v)
    (names : (n - w.seq).toNat ≤ ((t.chan c).retry.oldNext - w.seq).toNat) : exec (.resume c msg) s =
    .next (State.refsAcked c (refsIn ((t.chan c).retry.kept.filter fun w => before w.seq n)) (t.modRetry c fun x => { x with
      kept := [], retain := x.retain ++ rest, resend := x.resend ++ rest
      next := x.next + BitVec.ofNat 12 rest.length
      resumption := if acked then .complete else .running true false
      history := keepHistory (x.history ++ rest.map fun w => (w.seq, w.ops)) })).advance := by
  subst hn hr
  rw [exec, execResume, h.onMessage]
  simp only [kept] at names ⊢
  simp only [runs, valid, names, decide_true, Bool.true_and, if_true]

end

end

/-! ### Timers, and a header whose check failed -/

section
variable {s : State} {c : ChanId} (runs : s.runs = true)
include runs

theorem retransmitTimeout_resends {w : Codeword} {v : List Codeword} {n : Nat} (sends : (s.chan c).txData = true)
    (oldest : (s.chan c).retry.retain = w :: v) (latest : w.latest = some n)
    (late : n + s.retransmitTime c < (s.chan c).retry.clock) (idle : (s.chan c).retry.resend = []) :
    exec (.retransmitTimeout c) s = .next (s.modRetry c fun x => { x with resend := x.retain }) := by
  simp [exec, execRetransmitTimeout, oldest, latest, runs, sends, late, idle]

theorem retryBudgetExpiry_givesUp {w : Codeword} {n : Nat} (sends : (s.chan c).txData = true)
    (unacknowledged : w ∈ (s.chan c).retry.retain) (first : w.first = some n)
    (late : n + s.elem 0x0705 c ≤ (s.chan c).retry.clock) : exec (.retryBudgetExpiry c) s = .next (s.giveUp c false) := by
  have past : ((s.chan c).retry.retain.any fun w =>
      match w.first with | some t => decide (t + s.elem 0x0705 c ≤ (s.chan c).retry.clock) | none => false) = true :=
    List.any_eq_true.2 ⟨w, unacknowledged, by simp [first, late]⟩
  rw [exec, execRetryBudgetExpiry, if_pos (by rw [runs, sends]; exact past)]

theorem headerCheckFailed_counts {header : Bytes} (failed : (s.chan (s.owner c)).retry.bad.contains header = true) :
    exec (.headerCheckFailed c header) s = .next ((s.modRetry (s.owner c) fun r =>
      { r with bad := eraseFirst (· == header) r.bad }).occurChan 1 c (addrPacket (readHead header) 0xFF)) := by
  rw [exec, execHeaderCheckFailed, if_pos (by rw [runs, failed]; rfl)]

end

/-- Settles O54: the messages through `Delivered.onMessage`; the retransmission is R384's, the budget R386's. -/
theorem retryMessagesAct : Obligations.RetryMessagesAct := by
  refine fun c msg s t => ⟨restart_drops,
    fun h => ⟨fun acked rest n runs hn hr => ⟨fun valid w v kept names => resume_sendsRest h runs hn hr valid kept names,
      resume_numberless h runs⟩, resume_unasked h⟩,
    discardNotice_loses, pad_takes, fun runs sends => ⟨?_, ?_⟩, fun header runs failed => headerCheckFailed_counts runs failed⟩
  · exact fun w v n oldest latest late idle => retransmitTimeout_resends runs sends oldest latest late idle
  · exact fun w n unacknowledged first late => retryBudgetExpiry_givesUp runs sends unacknowledged first late

end Sys2Proof.Machine
end

section
/-! SUPPORT. Packets that have arrived (R345, R433, Tables 15.1 to 15.4): a stranger's is discarded, a request refused by its first failing
check, and what passes acted on by its kind. -/

namespace Sys2Proof.Machine

/-- The packet commands with the kind of packet that each takes (Table 15.1). -/
def packetCommands (c : ChanId) (pkt : Packet) : List (Nat × Instr) :=
  [(1, .writePacket c pkt), (2, .readRequest c pkt), (3, .readResponse c pkt), (4, .messagePacket c pkt), (5, .atomicRequest c pkt),
    (6, .atomicResponse c pkt), (7, .flushRequest c pkt), (8, .flushResponse c pkt), (9, .statusPacket c pkt)]

theorem mem_packetCommands {c : ChanId} {pkt : Packet} {k : Nat} {cmd : Instr} : (k, cmd) ∈ packetCommands c pkt ↔
    k = 1 ∧ cmd = .writePacket c pkt ∨ k = 2 ∧ cmd = .readRequest c pkt ∨ k = 3 ∧ cmd = .readResponse c pkt ∨
    k = 4 ∧ cmd = .messagePacket c pkt ∨ k = 5 ∧ cmd = .atomicRequest c pkt ∨ k = 6 ∧ cmd = .atomicResponse c pkt ∨
    k = 7 ∧ cmd = .flushRequest c pkt ∨ k = 8 ∧ cmd = .flushResponse c pkt ∨ k = 9 ∧ cmd = .statusPacket c pkt := by
  simp [packetCommands]

/-! ### Taking a packet (R345) -/

section
variable {s t : State} {c : ChanId} {pkt : Packet} {k : Nat} {h : Head}

theorem Arrived.takePacket (arrived : Arrived s c pkt k h t) : s.takePacket c pkt k = some (h, true, t) := by
  obtain ⟨runs, head, kind, waits, source, taken⟩ := arrived
  simp only [State.takePacket, ← head, kind, runs, waits, source, taken, beq_self_eq_true, Bool.and_self, if_true]

/-- A packet whose source is not the partner is discarded and counted as kind 1. -/
theorem takePacket_stranger (runs : s.runs = true) (head : h = readHead pkt.header) (kind : h.kind = k)
    (waits : (s.chan (s.owner c)).retry.arrived.contains pkt = true) (source : h.source ≠ (s.chan c).partner.node) :
    s.takePacket c pkt k = some (h, false, (s.modRetry (s.owner c) fun r =>
      { r with arrived := eraseFirst (· == pkt) r.arrived }).occurChan 1 c (addrPacket h 0xFF)) := by
  have stranger : (h.source == (s.chan c).partner.node) = false := beq_eq_false_iff_ne.2 source
  simp only [State.takePacket, ← head, kind, runs, waits, stranger, beq_self_eq_true, Bool.and_self, if_true, if_false,
    Bool.false_eq_true]

/-- Every packet command discards a stranger's packet alike. -/
theorem packet_discarded {u : State} {cmd : Instr} (is : (k, cmd) ∈ packetCommands c pkt)
    (take : s.takePacket c pkt k = some (h, false, u)) : exec cmd s = .next u := by
  rcases mem_packetCommands.1 is with ⟨rfl, rfl⟩ | ⟨rfl, rfl⟩ | ⟨rfl, rfl⟩ | ⟨rfl, rfl⟩ | ⟨rfl, rfl⟩ | ⟨rfl, rfl⟩ | ⟨rfl, rfl⟩ |
    ⟨rfl, rfl⟩ | ⟨rfl, rfl⟩
  · rw [exec, execWritePacket, State.onRequest, take]
  · rw [exec, execReadRequest, State.onRequest, take]
  · rw [exec, execReadResponse, take]
  · rw [exec, execMessagePacket, State.onRequest, take]
  · rw [exec, execAtomicRequest, State.onRequest, take]
  · rw [exec, execAtomicResponse, take]
  · rw [exec, execFlushRequest, State.onRequest, take]
  · rw [exec, execFlushResponse, take]
  · rw [exec, execStatusPacket, take]

/-! ### Requests -/

/-- The commands of the five kinds of request go through the same checks. -/
theorem packet_onRequest {cmd : Instr} (is : (k, cmd) ∈ packetCommands c pkt) (request : k ∈ [1, 2, 4, 5, 7]) (s : State) :
    ∃ act, exec cmd s = .next (s.onRequest c pkt k act) := by
  have named := mem_packetCommands.1 is
  simp only [List.mem_cons, List.not_mem_nil, or_false] at request
  rcases request with rfl | rfl | rfl | rfl | rfl
  · obtain rfl : cmd = .writePacket c pkt := by simpa using named
    exact ⟨_, rfl⟩
  · obtain rfl : cmd = .readRequest c pkt := by simpa using named
    exact ⟨_, rfl⟩
  · obtain rfl : cmd = .messagePacket c pkt := by simpa using named
    exact ⟨_, rfl⟩
  · obtain rfl : cmd = .atomicRequest c pkt := by simpa using named
    exact ⟨_, rfl⟩
  · obtain rfl : cmd = .flushRequest c pkt := by simpa using named
    exact ⟨_, rfl⟩

section
variable (arrived : Arrived s c pkt k h t) (act : Head → State → State)
include arrived

theorem onRequest_malformed (fields : headFieldsOk h = false) : s.onRequest c pkt k act = t.refuse c h 0xB := by
  simp [State.onRequest, arrived.takePacket, fields]

theorem onRequest_astray (fields : headFieldsOk h = true) (astray : h.dest.toNat ≠ t.node) :
    s.onRequest c pkt k act = t.refuse c h 0xA := by
  simp [State.onRequest, arrived.takePacket, fields, astray]

theorem onRequest_quiesced (fields : headFieldsOk h = true) (here : h.dest.toNat = t.node)
    (quiesced : t.faults.quiesced = true) : s.onRequest c pkt k act = t.refuse c h 8 := by
  simp [State.onRequest, arrived.takePacket, fields, here, quiesced]

end

theorem onRequest_passed (passed : Passed s c pkt k h t) (act : Head → State → State) : s.onRequest c pkt k act = act h t := by
  obtain ⟨arrived, fields, here, runs⟩ := passed
  simp [State.onRequest, arrived.takePacket, fields, here, runs]

end

/-- Write, read and atomic requests act at their window. -/
theorem packet_windowRequest {s t : State} {c : ChanId} {pkt : Packet} {k : Nat} {h : Head} {cmd : Instr}
    (is : (k, cmd) ∈ packetCommands c pkt) (passed : Passed s c pkt k h t) (window : k ∈ [1, 2, 5]) :
    exec cmd s = .next (t.windowRequest c pkt h) := by
  have acts := onRequest_passed passed fun h t => t.windowRequest c pkt h
  have named := mem_packetCommands.1 is
  simp only [List.mem_cons, List.not_mem_nil, or_false] at window
  rcases window with rfl | rfl | rfl
  · obtain rfl : cmd = .writePacket c pkt := by simpa using named
    rw [exec, execWritePacket, acts]
  · obtain rfl : cmd = .readRequest c pkt := by simpa using named
    rw [exec, execReadRequest, acts]
  · obtain rfl : cmd = .atomicRequest c pkt := by simpa using named
    rw [exec, execAtomicRequest, acts]

section
variable {s t : State} {c : ChanId} {pkt : Packet} {h : Head}

/-- The first packet of a message goes to its queue, a later one to its message. -/
theorem messagePacket_acts (passed : Passed s c pkt 4 h t) : exec (.messagePacket c pkt) s =
    .next (if h.flags.testBit 0 then t.firstPacket c pkt h else match t.messageOf c h with
      | none => t
      | some m =>
        if m.dropped then (if h.flags.testBit 1 then t.dropMessage m else t)
        else if (t.role m.port m.queue).stream = 2 then t.drainChunk c h pkt m
        else t.placeChunk c h pkt m h.offset.toNat) := by
  rw [exec, execMessagePacket]
  exact congrArg Host.Outcome.next (onRequest_passed passed _)

theorem flushRequest_acts (passed : Passed s c pkt 7 h t) :
    exec (.flushRequest c pkt) s = .next (t.addReq c pkt .flushing).afterReq := by
  rw [exec, execFlushRequest, onRequest_passed passed]

end

/-! ### Responses -/

/-- A response that names no operation changes nothing but that it is taken. -/
theorem response_unnamed {s t : State} {c : ChanId} {pkt : Packet} {k : Nat} {h : Head} {cmd : Instr}
    (is : (k, cmd) ∈ packetCommands c pkt) (arrived : Arrived s c pkt k h t) (response : k ∈ [3, 6, 8]) (unnamed : t.op h.txn = none) :
    exec cmd s = .next t := by
  have take := arrived.takePacket
  have nothing (f : Op → Bool) : t.answered h f = none := by rw [State.answered, unnamed, Option.bind_none]
  have named := mem_packetCommands.1 is
  simp only [List.mem_cons, List.not_mem_nil, or_false] at response
  rcases response with rfl | rfl | rfl
  · obtain rfl : cmd = .readResponse c pkt := by simpa using named
    simp only [exec, execReadResponse, take, nothing]
  · obtain rfl : cmd = .atomicResponse c pkt := by simpa using named
    simp only [exec, execAtomicResponse, take, nothing]
  · obtain rfl : cmd = .flushResponse c pkt := by simpa using named
    simp only [exec, execFlushResponse, take, nothing]

theorem answered_of {t : State} {h : Head} {o : Op} (names : t.op h.txn = some o) {f : Op → Bool} (meets : f o = true) :
    t.answered h f = some o := by
  rw [State.answered, names, Option.bind_some, if_pos meets]

section
variable {s t : State} {c : ChanId} {pkt : Packet} {h : Head} {o : Op} (names : t.op h.txn = some o)
include names

/-- A read response for a chunk that is outstanding: refused by its status, else checked and placed. -/
theorem readResponse_answers (arrived : Arrived s c pkt 3 h t) (reads : o.kind = .read ∨ o.kind = .relay) {i : Nat}
    (hi : i = (h.offset - o.offset).toNat / 4096) (out : (o.out.any fun e => e.1 == i) = true) {r : Bool × State}
    (hr : r = t.checkFixity c h 0xFF pkt.payload pkt.trailer.toNat
      (match o.expected.find? fun e => e.1 == i with | some e => e.2.toNat | none => pkt.trailer.toNat)) :
    exec (.readResponse c pkt) s = .next (if h.status = 0 then
        (if r.1 = true ∧ pkt.payload.length = o.chunkLen i then r.2.placeRead o i pkt else (r.2.failChunk o 0x0B i).advance)
      else t.refused o i h.status) := by
  subst hi hr
  have answered := answered_of names (f := fun o => o.kind == .read || o.kind == .relay) (by simpa using reads)
  by_cases good : h.status = 0
  · simp only [exec, execReadResponse, arrived.takePacket, answered, out, good, Bool.not_true, Bool.false_eq_true, if_true, if_false,
      bne_self_eq_false, Bool.and_eq_true, beq_iff_eq]
    exact (apply_ite Host.Outcome.next ..).symm
  · have failed : (h.status != 0) = true := bne_iff_ne.2 good
    simp only [exec, execReadResponse, arrived.takePacket, answered, out, failed, if_neg good, Bool.not_true, Bool.false_eq_true,
      if_true, if_false]

theorem atomicResponse_answers (arrived : Arrived s c pkt 6 h t) (atomic : o.kind = .atomic) (sent : o.next = 1) :
    exec (.atomicResponse c pkt) s = .next (if h.status ≠ 0 then t.refused o 0 h.status
      else ((t.hostWrite o.port o.addr (fit 8 pkt.payload)).endOp o 0x00 0).advance) := by
  have answered := answered_of names (f := fun o => o.kind == .atomic && o.next == 1) (by simp [atomic, sent])
  simp only [exec, execAtomicResponse, arrived.takePacket, answered, bne_iff_ne]
  split <;> rfl

theorem flushResponse_answers (arrived : Arrived s c pkt 8 h t) (flush : o.kind = .flush ∨ o.kind = .relay)
    (flushing : o.flushing = true) {r : Option (BitVec 32) × State}
    (hr : r = t.takeFailure o.port o.queue (if o.kind = .relay then o.chan2 else o.chan)) : exec (.flushResponse c pkt) s =
    .next (match o.failed, r.1 with
      | some f, _ => (r.2.endOp o f.1 f.2).advance
      | none, some index => (r.2.endOp o 0x10 index.toNat).advance
      | none, none => (r.2.endOp o (statusCode h.status)
        (if o.kind = .relay then (if h.status = 0 then o.chunks else o.nextWrite) else 0)).advance) := by
  have answered := answered_of names (f := fun o => (o.kind == .flush || o.kind == .relay) && o.flushing)
    (by simpa [flushing] using flush)
  simp only [exec, execFlushResponse, arrived.takePacket, answered, ← hr]
  cases o.failed with
  | some f => rfl
  | none => cases r.1 <;> rfl

section
variable (arrived : Arrived s c pkt 9 h t)
include arrived

theorem statusPacket_write (kind : o.kind = .write) :
    exec (.statusPacket c pkt) s = .next (t.refused o ((h.offset - o.offset).toNat / 4096) h.status) := by
  simp only [exec, execStatusPacket, arrived.takePacket, names, kind]

theorem statusPacket_relay (kind : o.kind = .relay) :
    exec (.statusPacket c pkt) s = .next (t.refused o ((h.offset - o.addr).toNat / 4096) h.status) := by
  simp only [exec, execStatusPacket, arrived.takePacket, names, kind]

theorem statusPacket_send (kind : o.kind = .send) : exec (.statusPacket c pkt) s =
    .next (t.refused o (if h.offset.toNat = o.length then 0 else h.offset.toNat / 4096) h.status) := by
  simp only [exec, execStatusPacket, arrived.takePacket, names, kind]

end

end

/-- A status with no outstanding operation is kept for the next flush (R372). -/
theorem statusPacket_unnamed {s t : State} {c : ChanId} {pkt : Packet} {h : Head} (arrived : Arrived s c pkt 9 h t)
    (unnamed : t.op h.txn = none) : exec (.statusPacket c pkt) s =
    .next (t.recordFailure (txnQueue h.txn).1 (txnQueue h.txn).2 c (t.txnItem h.txn)) := by
  simp only [exec, execStatusPacket, arrived.takePacket, unnamed]

/-- Settles O55: a stranger's packet by `packet_discarded`, a request by `onRequest` (at a quiesced device after checks 3 and 4, log entry
72), a response by its operation (a status with none is kept for the next flush, log entry 35). -/
theorem packetsAreChecked : Obligations.PacketsAreChecked := by
  intro c pkt s t h k cmd is
  have named := mem_packetCommands.1 is
  refine ⟨fun runs head kind waits source => packet_discarded is (takePacket_stranger runs head kind waits source),
    fun arrived => ⟨fun request fields => ?_, fun request fields astray => ?_, fun request fields here quiesced => ?_,
      response_unnamed is arrived⟩,
    fun passed => ⟨packet_windowRequest is passed, ?_, ?_, ?_⟩, fun arrived o names => ⟨?_, ?_, ?_, ?_⟩, fun arrived => ?_⟩
  · obtain ⟨act, acts⟩ := packet_onRequest is request s
    rw [acts, onRequest_malformed arrived act fields]
  · obtain ⟨act, acts⟩ := packet_onRequest is request s
    rw [acts, onRequest_astray arrived act fields astray]
  · obtain ⟨act, acts⟩ := packet_onRequest is request s
    rw [acts, onRequest_quiesced arrived act fields here quiesced]
  · rintro rfl first
    obtain rfl : cmd = .messagePacket c pkt := by simpa using named
    rw [messagePacket_acts passed, if_pos first]
  · rintro rfl later
    obtain rfl : cmd = .messagePacket c pkt := by simpa using named
    exact (messagePacket_acts passed).trans (congrArg _ (if_neg (ne_true_of_eq_false later)))
  · rintro rfl
    obtain rfl : cmd = .flushRequest c pkt := by simpa using named
    exact flushRequest_acts passed
  · rintro rfl reads i hi out
    obtain rfl : cmd = .readResponse c pkt := by simpa using named
    refine ⟨fun refused => ?_, fun good r hr => ?_⟩
    · rw [readResponse_answers names arrived reads hi out rfl, if_neg refused]
    · rw [readResponse_answers names arrived reads hi out hr, if_pos good]
  · rintro rfl atomic sent
    obtain rfl : cmd = .atomicResponse c pkt := by simpa using named
    exact atomicResponse_answers names arrived atomic sent
  · rintro rfl flush flushing r hr
    obtain rfl : cmd = .flushResponse c pkt := by simpa using named
    exact flushResponse_answers names arrived flush flushing hr
  · rintro rfl
    obtain rfl : cmd = .statusPacket c pkt := by simpa using named
    exact ⟨statusPacket_write names arrived, statusPacket_relay names arrived, statusPacket_send names arrived⟩
  · rintro rfl unnamed
    obtain rfl : cmd = .statusPacket c pkt := by simpa using named
    exact statusPacket_unnamed arrived unnamed

end Sys2Proof.Machine
end

section
/-! SUPPORT. The timers of the transport: stalled requests, resends, response limits, aged translations and deduplication entries (R359,
R363, R364, R380, R390). -/

namespace Sys2Proof.Machine

theorem tab_get_erase {α : Type} (d : α) (t : Tab α) (k : Nat) : Tab.get d (Tab.erase t k) k = d := by
  induction t with
  | nil => rfl
  | cons x t ih =>
    rw [Tab.erase]
    split
    · exact ih
    · next other => rw [Tab.get, if_neg other, ih]

theorem tab_get_erase_ne {α : Type} (d : α) (t : Tab α) {k j : Nat} (h : j ≠ k) : Tab.get d (Tab.erase t k) j = Tab.get d t j := by
  induction t with
  | nil => rfl
  | cons x t ih =>
    rw [Tab.erase, Tab.get]
    split
    · next same => rw [if_neg (same ▸ h.symm), ih]
    · rw [Tab.get, ih]

section
variable {s : State} (runs : s.runs = true)
include runs

theorem stallLimitExpiry_refuses {req n v : Nat} {r : Req} (known : s.req req = some r) (held : r.stage = .held n v)
    (late : s.passedFrom v (s.par 0x0800) = true) : exec (.stallLimitExpiry req) s = .next (s.failReq r 6 none) := by
  simp only [exec, execStallLimitExpiry, known, held, runs, late, Bool.and_self, if_true]

theorem resendBackoffExpiry_resends {txn : BitVec 32} {chunk x due : Nat} {o : Op} (known : s.op txn = some o) (idle : o.prep = none)
    (waits : (chunk, x, some due) ∈ o.resends) (passed : due ≤ s.clock.symbols) :
    exec (.resendBackoffExpiry txn chunk) s = .next (s.resendChunk o chunk) := by
  have any : (o.resends.any fun r => r.1 == chunk &&
      (match r.2.2 with | some due => decide (due ≤ s.clock.symbols) | none => false)) = true :=
    List.any_eq_true.2 ⟨_, waits, by simp [passed]⟩
  rw [exec, execResendBackoffExpiry, known]
  dsimp only
  rw [if_pos]
  rw [runs, idle]
  exact any

/-- The first chunk of an operation that has had no response within the limit fails with code 0x0F. -/
theorem responseLimitExpiry_fails {txn : BitVec 32} {o : Op} {e : Nat × Option Nat} (known : s.op txn = some o)
    (reads : o.kind = .read ∨ o.kind = .relay)
    (late : (o.out.find? fun e => match e.2 with
      | some a => s.passedFrom a (s.responseLimit o.chan)
      | none => false) = some e) : exec (.responseLimitExpiry txn) s = .next (s.failChunk o 0x0F e.1).advance := by
  rw [exec, execResponseLimitExpiry, known]
  dsimp only
  split
  · next e' late' =>
    cases late'.symm.trans late
    rw [if_pos (by simpa [runs] using reads)]
  · next none => cases none.symm.trans late

end

theorem translationAgedOut_leaves {s : State} {entry : Fin 4096} {x : CacheEntry} (cached : (entry.val, x) ∈ s.transport.cache)
    (aged : x.age = 4) : exec (.translationAgedOut entry) s = .next (s.modCache fun t => Tab.erase t entry.val) := by
  rw [exec, execTranslationAgedOut, if_pos]
  exact List.any_eq_true.2 ⟨_, cached, by simp [aged]⟩

/-! ### Deduplication entries (R380) -/

/-- The entries of a deduplication table that stay when those of a nonce have outlived their answer. -/
def State.dedupKeep (s : State) (table : Fin 1024) (nonce : BitVec 64) : List Dedup :=
  (Tab.get [] s.transport.dedup table.val).filter fun d =>
    !(d.nonce == nonce && d.prior.isSome && s.passedFrom d.since (s.par 0x0708))

/-- The tables after that: an emptied table is dropped. -/
def State.dedupAfter (s : State) (table : Fin 1024) (nonce : BitVec 64) : Tab (List Dedup) :=
  if (s.dedupKeep table nonce).isEmpty then Tab.erase s.transport.dedup table.val
  else Tab.set s.transport.dedup table.val (s.dedupKeep table nonce)

theorem dedupAfter_table (s : State) (table : Fin 1024) (nonce : BitVec 64) :
    Tab.get [] (s.dedupAfter table nonce) table.val = s.dedupKeep table nonce := by
  unfold State.dedupAfter
  split
  · next empty => rw [tab_get_erase, List.isEmpty_iff.1 empty]
  · rw [tab_get_set]

theorem dedupAfter_others (s : State) {table : Fin 1024} (nonce : BitVec 64) {k : Nat} (other : k ≠ table.val) :
    Tab.get [] (s.dedupAfter table nonce) k = Tab.get [] s.transport.dedup k := by
  unfold State.dedupAfter
  split
  · rw [tab_get_erase_ne _ _ other]
  · rw [tab_get_set_ne _ _ _ _ _ other]

section
variable {s : State} {table : Fin 1024} {d : Dedup} (answered : d.prior.isSome = true)
  (late : s.passedFrom d.since (s.par 0x0708) = true)
include answered late

/-- An answered entry that is past its life does not stay. -/
theorem not_mem_dedupKeep : d ∉ s.dedupKeep table d.nonce := by
  simp only [State.dedupKeep, List.mem_filter, answered, late, beq_self_eq_true, Bool.and_self, Bool.not_true, Bool.false_eq_true,
    and_false, not_false_eq_true]

theorem dedupEntryExpired_leaves (runs : s.runs = true) (kept : d ∈ Tab.get [] s.transport.dedup table.val) :
    exec (.dedupEntryExpired table d.nonce) s =
      .next { s with transport := { s.transport with dedup := s.dedupAfter table d.nonce } } := by
  have fewer : (s.dedupKeep table d.nonce).length ≠ (Tab.get [] s.transport.dedup table.val).length :=
    Nat.ne_of_lt (List.length_filter_lt_length_iff_exists.2 ⟨d, kept, by simp [answered, late]⟩)
  rw [exec, execDedupEntryExpired]
  dsimp only
  rw [if_pos]
  · rfl
  · rw [runs]
    exact bne_iff_ne.2 fewer

end

/-- Settles O56: each timer by its own meaning; a translation of age 4 is the model's mark of one that R359 invalidates (log entry 25). -/
theorem transportTimersExpire : Obligations.TransportTimersExpire := by
  refine fun s => ⟨fun req r n v runs known held late => stallLimitExpiry_refuses runs known held late,
    fun txn chunk o x due runs known idle waits passed => resendBackoffExpiry_resends runs known idle waits passed,
    fun txn o e runs known reads late => responseLimitExpiry_fails runs known reads late,
    fun entry x cached aged => translationAgedOut_leaves cached aged, ?_⟩
  rintro table nonce d runs kept rfl answered late
  refine ⟨_, dedupEntryExpired_leaves answered late runs kept, rfl, ?_, fun k other => dedupAfter_others s d.nonce other⟩
  rw [dedupAfter_table]
  exact not_mem_dedupKeep answered late

end Sys2Proof.Machine
end

section
/-! SUPPORT. Calibration: the command pin, the end of a measure phase, and the store step by step (R450 to R458, R153, R154). -/

namespace Sys2Proof.Machine

/-! ### The command pin (R450, R451) -/

section
variable {s : State}

theorem calNArmed_arms {t : Nat} (runs : s.runs = true) (high : s.calib.highSince = some t) (level : s.pins.calN = true)
    (held : s.passedFrom t 814 = true) :
    exec .calNArmed s = .next (s.modCalib fun k => { k with armed := true, highSince := none }) := by
  simp only [exec, execCalNArmed, high, runs, level, held, Bool.and_self, if_true]

theorem calNRising_times (low : s.pins.calN = false) (watched : s.watchesCal = true) : exec .calNRising s =
    .next ({ s with pins := { s.pins with calN := true } }.modCalib fun k => { k with highSince := some s.clock.symbols }) := by
  simp only [exec, execCalNRising, low, watched, Bool.not_false, Bool.and_self, if_true]

/-- Falling while armed, with no calibration of its own waiting or running, the pin commands one. -/
theorem calNFalling_commands {t : State} (ht : t = ({ s with pins := { s.pins with calN := false } }.modCalib fun k =>
      { k with armed := false, highSince := none })) (level : s.pins.calN = true) (watched : s.watchesCal = true) :
    exec .calNFalling s = .next (if s.calib.armed = true ∧ s.pinTask = false then t.commandByPin else t) := by
  subst ht
  simp only [exec, execCalNFalling, level, watched, Bool.and_self, if_true, Bool.and_eq_true, Bool.not_eq_true']
  exact (apply_ite Host.Outcome.next ..).symm

end

/-! ### The measure phase (R454, R455) -/

section
variable {s : State} {t : Task} {x : Sf} (runs : s.runs = true) (calibrating : s.calibrating = some t) (started : t.started = some x)
  (measuring : s.calib.adopted = none)
include runs calibrating started measuring

theorem calibrationWaitLimit_waited (late : s.passedSf x (s.par 0x0B01) = true) :
    exec .calibrationWaitLimit s = .next (s.setTask t { t with waited := true }) := by
  simp only [exec, execCalibrationWaitLimit, calibrating, started, measuring, runs, late, Option.isNone_none, Bool.and_self, if_true]

/-- The set is adopted within 4 °C of its point, and the calibration fails with outcome 2 otherwise. -/
theorem measurePhaseEnd_ends {point : Nat} {store : Bool} {channels : BitVec 64} {ports : BitVec 2} {m0 m : CalMeasured} {payload : Bytes}
    (clearing : s.mayRun 84 1 = true) (hm : m = s.allowedOf m0) (kind : t.kind = .calibration point store channels ports)
    (done : channels &&& ~~~m.noSpare = 0 ∨ t.waited = true)
    (hp : payload = mixPayload point (if t.origin.item.isSome then 1 else 2) channels (s.laneMask ports)
      ((s.calib.sets.find? fun e => e.1 == point).map (·.2)) m) (good : s.payloadOk point payload = true) :
    exec (.measurePhaseEnd m0) s = .next (if s.nearPoint point then
        s.adopt t point payload (channels &&& ~~~m.noSpare) (s.since x)
      else s.failCalibration t 2 s.calib.t (s.since x) (channels &&& ~~~m.noSpare).toNat) := by
  have done' : (channels &&& ~~~m.noSpare == 0 || t.waited) = true := by simpa using done
  simp only [exec, execMeasurePhaseEnd, calibrating, kind, started, measuring, ← hm, ← hp, runs, clearing, done', good, Bool.and_self,
    if_true]
  exact (apply_ite Host.Outcome.next ..).symm

end

/-! ### The store, step by step (R153, R154) -/

section
variable {s : State} {x : Store} (runs : s.runs = true) (storing : s.calib.store = some x)
include runs storing

/-- A poll of the status, where nothing is being read: a busy flash is polled again, a ready one goes on. -/
theorem flashStatusPoll_polls (copy : x.step ≠ .readback) (last : x.step ≠ .lastRead) (busy : Bool) (area : Bytes) :
    exec (.flashStatusPoll busy area) s = .next (if busy then s.say (.flash x.dev 0x05 0 [])
      else (s.say (.flash x.dev 0x05 0 [])).storeAdvance x) := by
  cases step : x.step with
  | readback => exact absurd step copy
  | lastRead => exact absurd step last
  | _ =>
    simp only [exec, execFlashStatusPoll, storing, runs, step, Bool.not_true, Bool.false_eq_true, if_false]
    exact (apply_ite Host.Outcome.next ..).symm

theorem flashStatusPoll_places (last : x.step = .lastRead) (busy : Bool) (area : Bytes) :
    exec (.flashStatusPoll busy area) s = .next ((s.select x.dev false).placeEntry x area) := by
  simp only [exec, execFlashStatusPoll, storing, runs, last, Bool.not_true, Bool.false_eq_true, if_false]

theorem flashBusyLimit_erase (erases : (∃ k, x.step = .erase k) ∨ (∃ k a, x.step = .lastErase k a)) :
    exec .flashBusyLimit s = .next (s.storeFailed x 1) := by
  rcases erases with ⟨k, is⟩ | ⟨k, a, is⟩
  all_goals simp only [exec, execFlashBusyLimit, storing, runs, is, Bool.not_true, Bool.false_eq_true, if_false]

theorem flashBusyLimit_program (programs : (∃ k, x.step = .program k) ∨ x.step = .lastProgram) :
    exec .flashBusyLimit s = .next (s.storeFailed x 2) := by
  rcases programs with ⟨k, is⟩ | is
  all_goals simp only [exec, execFlashBusyLimit, storing, runs, is, Bool.not_true, Bool.false_eq_true, if_false]

/-- The copy read back is stored where it is good and has its sequence number. -/
theorem storeReadbackDone_checks (reads : x.step = .readback) (unarmed : (s.armedFor 6 0).isSome = false) (copy : Bytes) :
    exec (.storeReadbackDone copy) s = .next
      (if s.copyOk x.point copy = true ∧ field copy 8 4 = x.seq then (s.select x.dev false).copyStored x
       else (s.select x.dev false).storeFailed x 3) := by
  have step : (x.step == .readback) = true := beq_iff_eq.2 reads
  simp only [exec, execStoreReadbackDone, storing, runs, step, unarmed, Bool.and_self, if_true, Bool.false_eq_true, if_false,
    Bool.and_eq_true, beq_iff_eq]
  exact (apply_ite Host.Outcome.next ..).symm

end

/-- Settles O57: the pin, the measure phase and each step of the store by its own meaning. -/
theorem calibrationActs : Obligations.CalibrationActs := by
  refine fun s => ⟨fun t runs high level held => calNArmed_arms runs high level held, calNRising_times,
    fun t ht level watched => calNFalling_commands ht level watched,
    fun t x runs calibrating started measuring late => calibrationWaitLimit_waited runs calibrating started measuring late,
    fun t x point store channels ports m0 m payload runs clearing hm calibrating kind started measuring done hp good =>
      measurePhaseEnd_ends runs calibrating started measuring clearing hm kind done hp good,
    fun x runs storing => ⟨fun copy last area => ?_, fun last => flashStatusPoll_places runs storing last,
      flashBusyLimit_erase runs storing, flashBusyLimit_program runs storing, storeReadbackDone_checks runs storing⟩⟩
  have polls := flashStatusPoll_polls runs storing copy last
  exact ⟨polls true area, polls false area⟩

end Sys2Proof.Machine
end
